-- ==== Sys2Proof/Word.lean ====
section
/-! DEFINITION. The words of the FJ3214 (R2, R103, R105): fixed widths, and the one shape in which every
register file and every memory is held: a list of (index, value) pairs, indices strictly rising, no entry
equal to what an unlisted index reads as. The operations on it stand in Machine/SMap.lean. -/

namespace Sys2Proof

/-- A word: 14 bits (R2). -/
abbrev Word := BitVec 14
/-- A double word, a syllable, an F28 value: 28 bits (R2, R201). -/
abbrev DWord := BitVec 28
/-- An address-class register: 24 bits (R103). -/
abbrev AWord := BitVec 24
/-- An accumulator, 56 physical bits (R105). -/
abbrev Acc := BitVec 56
/-- A syllable address: 14 bits (R60). -/
abbrev IAddr := BitVec 14
/-- A byte at the host boundary (R8). -/
abbrev Byte := BitVec 8
/-- A 16-bit host field. -/
abbrev U16 := BitVec 16
/-- A frame-class counter: 32 bits (R473). -/
abbrev U32 := BitVec 32
/-- A 64-bit host field. -/
abbrev U64 := BitVec 64
/-- Device time as the time unit keeps it: 42 bits of seconds, 80 of fraction (R504). -/
abbrev DTime := BitVec 122

/-- A sparse array of `w`-bit values: (index, value), indices strictly rising, no entry holding the
value an unlisted index reads as. -/
abbrev SMap (w : Nat) := List (Nat × BitVec w)

end Sys2Proof
end

