-- ==== Sys2Proof/Syntax.lean ====
section
/-! DEFINITION. The commands of the FJ3214: `Instr`, one constructor per row of spec/opcode_table.json, with the
row's operands. Three kinds of row stand in the table, and the spec's file 95 calls each one step, whole and
indivisible: an operation that issues on a Lorner core (its operands are the raw fields of R223, so that a
reserved encoding can be written down and takes the exception the spec gives it); an event inside the device
or at one of its ports; a command a host, the bench monitor or JTAG gives. -/

namespace Sys2Proof

/-! ### Where things happen -/

/-- A Lorner core (R22, R482): signal core `c` of geode `g` (8 is the spare position at reset), the supervisor of
geode `g`, or the hub. -/
inductive CoreRef where
  | sig (g : Fin 8) (c : Fin 9)
  | sup (g : Fin 8)
  | hub
deriving DecidableEq, Repr

/-- Whether the operation ends its bundle (R58, R59). `unended`: it stands in the eighth syllable and no S bit
is 1 yet. -/
inductive BundleEnd where
  | more
  | last
  | unended
deriving DecidableEq, Repr

/-- How an operation stands in its bundle: the core that issues it, the syllable index that holds it, whether
it is a short operation (R232), whether its bundle ends with it, and whether a reserved or unused bit of its
encoding outside the fields written down here is 1 (R233). Commands of one bundle come in the order of R61. -/
structure Site where
  core  : CoreRef
  syl   : BitVec 3
  short : Bool
  fin   : BundleEnd
  rsv   : Bool
deriving DecidableEq, Repr

/-! ### Operand formats of R223, raw -/

/-- The address slot of a class 000 or 001 operation (R222). -/
inductive ASlot where
  | a0
  | a1
deriving DecidableEq, Repr

/-- Format R3: X, Y, Z and B. -/
structure R3 where
  x : BitVec 5
  y : BitVec 5
  z : BitVec 5
  b : BitVec 2
deriving DecidableEq, Repr

/-- Format RI6: X, Y and a signed 6-bit immediate. -/
structure RI6 where
  x : BitVec 5
  y : BitVec 5
  i : BitVec 6
deriving DecidableEq, Repr

/-- Format RI5: X, Y, an unsigned 5-bit immediate and B. -/
structure RI5 where
  x : BitVec 5
  y : BitVec 5
  u : BitVec 5
  b : BitVec 2
deriving DecidableEq, Repr

/-- Format AM with the slot: X, An, AM and Mm. -/
structure AMF where
  slot : ASlot
  x    : BitVec 5
  an   : BitVec 4
  am   : BitVec 3
  mm   : BitVec 3
deriving DecidableEq, Repr

/-- Format AX with the slot: X, An and Vt. -/
structure AXF where
  slot : ASlot
  x    : BitVec 5
  an   : BitVec 4
  vt   : BitVec 4
deriving DecidableEq, Repr

/-- Operands of ADD and SUB: format R3, or format RI8 with its signed immediate. -/
inductive AluF where
  | reg (f : R3)
  | imm (x y : BitVec 5) (i : BitVec 8)
deriving DecidableEq, Repr

/-- Operands of CMP: format R3 (Y and Z), or format CI8. -/
inductive CmpF where
  | reg (f : R3)
  | imm (x : BitVec 5) (i : BitVec 8)
deriving DecidableEq, Repr

/-- Count and end of LOOP: format LI (COUNT − 1, unsigned DISP), or format LR (Ds, unsigned DISP). -/
inductive LoopF where
  | imm (count1 : BitVec 10) (disp : BitVec 9)
  | reg (ds : BitVec 5) (disp : BitVec 12)
deriving DecidableEq, Repr

/-- Count and I of REP: format RP (COUNT − 1) or RR (Ds). -/
inductive RepF where
  | imm (count1 : BitVec 10) (i : Bool)
  | reg (ds : BitVec 5) (i : Bool)
deriving DecidableEq, Repr

/-! ### Engines, packets and ports -/

/-- A DMA engine (R279): a geode's, 16 channels, or the host engine on the hub, 32 channels. -/
inductive Eng where
  | geode (g : Fin 8)
  | host
deriving DecidableEq, Repr

/-- The header fields of a fetched command that its execution uses (R431): function, TAG, JOB and FLAGS.NR. -/
structure CmdHdr where
  fn  : Fin 8
  tag : U16
  job : U16
  nr  : Bool
deriving DecidableEq, Repr

/-- What a host read of a command ring returned (R433): the packet's bytes, or a failure with its R306 cause. -/
inductive FetchResult where
  | ok (bytes : List Byte)
  | failed (cause : BitVec 4)
deriving DecidableEq, Repr

/-- What a host read completion brings (R306): the bytes, or cause 0x2, 0x3 or 0x4. -/
inductive HostRead where
  | data (bytes : List Byte)
  | failed (cause : BitVec 4)
deriving DecidableEq, Repr

/-- A completion of a channel's host read (R295): which of the reads outstanding it answers, 0 for the oldest, and what it
brings. -/
structure Completion where
  read : Nat
  got  : HostRead
deriving DecidableEq, Repr

/-- Flow-control credits that the host grants (R54, R296): posted ones in bytes, and read requests. -/
structure CreditGrant where
  posted   : Nat
  requests : Nat
deriving DecidableEq, Repr

/-- What the Reed–Solomon decoder of a lane gives for one codeword (R351, R353): the payload of 514 data symbols with the
number of symbols corrected, or nothing. -/
inductive Codeword where
  | uncorrectable
  | decoded (payload : BitVec 5140) (corrected : Nat)
deriving DecidableEq, Repr

/-- Why a lane is eclipsed: A of LANE_ECLIPSE (R379, R472). -/
inductive EclipseCause where
  | fec
  | signal
  | cdr
  | skew
  | removal
deriving DecidableEq, Repr

/-- What an identity-memory read gave (R374, R376): 384 bytes, or a bus that failed after its retries. -/
inductive RecordRead where
  | bytes (b : List Byte)
  | busFailed
deriving DecidableEq, Repr

/-- One stream binding of JOB_START (R357). -/
structure Binding where
  rate   : U64
  geode  : Byte
  source : Byte
  width  : Byte
  flags  : Byte
  level  : Byte
  rsv13  : Byte
  rpage  : U16
  rcount : U16
  cpage  : U16
  ccount : Byte
  rsvEnd : BitVec 24
deriving DecidableEq, Repr

/-- PCI Express errors that R430 names. -/
inductive PcieErr where
  | correctable (status : U32)
  | deviceRead (ch : Option (Fin 32)) (fn : Fin 8) (cause : BitVec 4)
  | unexpectedCompletion
  | fatal (status : U32)
  | refusedRequest
deriving DecidableEq, Repr

/-- Configuration requests that act on the device's configuration space (R419, R420, R423, R449, R454). -/
inductive CfgReq where
  | read (fn : Fin 8) (off : BitVec 12)
  | deviceControl (mps : BitVec 3) (mrrs : BitVec 3) (relaxed : Bool)
  | deviceControl2 (timeoutValue : BitVec 4)
  | vfEnable (n : Fin 8)
  | other (fn : Fin 8) (off : BitVec 12) (v : U32)
deriving DecidableEq, Repr

/-- A message of the hub to a supervisor (R40, R45, R403): a lode slot's variant that applies from a beacon on, the beacon
of a release, and the beacon of a swap. -/
inductive MailMsg where
  | lode (slot : Fin 16) (variant : Byte) (beacon : U32)
  | release (slot : Fin 16) (beacon : U32)
  | swap (slot : Fin 16) (beacon : U32)
deriving DecidableEq, Repr

/-- What a supervisor reports to the hub (R41, R142, R143). -/
inductive GeodeReport where
  | eclipse (c : Fin 9) (why : BitVec 2)
  | takeover (c : Fin 9)
  | hold (pos : Fin 32) (cause : BitVec 3)
  | halt (ctx : Fin 8) (code : BitVec 6)
deriving DecidableEq, Repr

/-- A register by its mnemonic (R103, R108, R120–R122, R235, R483). -/
inductive RegName where
  | a (n : Fin 16)
  | m (n : Fin 8)
  | b (n : Fin 8)
  | l (n : Fin 8)
  | d (n : Fin 32)
  | ac (n : Fin 8)
  | v (n : Fin 16)
  | va (n : Fin 4)
  | f (n : Fin 16)
  | sys (n : BitVec 8)
deriving DecidableEq, Repr

/-- What the supervisor does to a core: writes through its control port (R109, R122, R243, R249, R263), and the supervisor
mailbox of R123, which the opcode table gives no row of its own (log entry 141). -/
inductive PortWrite where
  | data (addr : BitVec 17) (v : Word)
  | syllable (addr : IAddr) (v : DWord)
  | table (tid : Fin 3) (vpage : BitVec 10) (v : Word)
  | udtWord (off : BitVec 9) (v : Word)
  | sysReg (sys : BitVec 8) (v : DWord)
  | bankReg (lvl : Fin 4) (r : RegName) (v : BitVec 1792)
  | mailbox
  | service (svc : Bool)
  | start (lvl1 : Bool) (entry : IAddr)
deriving DecidableEq, Repr

/-- The place of a register write that has no row of its own (R16, R261, R378, R426). -/
inductive RegPlace where
  | bar0 (fn : Fin 8) (off : U16) (bytes : Nat) (poisoned : Bool) (v : U64)
  | fabric (g : Fin 8) (off : BitVec 12) (v : Word)
deriving DecidableEq, Repr

/-- A memory that background scrubbing walks (R272). -/
inductive ScrubPlace where
  | x (c : CoreRef)
  | y (c : CoreRef)
  | imem (g : Fin 8) (c : Fin 9)
  | shared (g : Fin 8)
  | hubmem
deriving DecidableEq, Repr

/-- Who is served a bank, or the device-global path (R255, R256, R260). -/
inductive Serve where
  | bank (bank : BitVec 4) (column : BitVec 4)
  | global
deriving DecidableEq, Repr

/-- How an epoch's estimate compares (R392, R394, R407): left-out share above 1 %, PNR in dB, and whether it lies
within the limits of the average, and of the epoch before it. -/
structure EpochResult where
  discarded    : Bool
  pnr          : Nat
  inLimits     : Bool
  nearPrevious : Bool
deriving DecidableEq, Repr

/-! ### The bench monitor -/

/-- Which port gave a monitor command (R483, R489). -/
inductive Port where
  | uart
  | jtag
deriving DecidableEq, Repr

/-- A monitor target (R482): a core, and a context of a Lorner-S core. -/
structure Target where
  core : CoreRef
  ctx  : Option (Fin 64)
deriving DecidableEq, Repr

/-- A monitor memory space with an address (R482). -/
inductive Space where
  | hub (addr : BitVec 19)
  | shared (g : Fin 8) (addr : BitVec 21)
  | core (t : CoreRef) (addr : BitVec 17)
  | instr (t : CoreRef) (addr : IAddr)
  | fabric (g : Fin 8) (off : BitVec 12)
  | bar0 (fn : Fin 8) (off : U16)
deriving DecidableEq, Repr

/-! ### The commands -/

/-- One constructor per row of spec/opcode_table.json, in its order. -/
inductive Instr where
  -- address class (R226)
  | ld (i : Site) (f : AMF)
  | ldD (i : Site) (f : AMF)
  | st (i : Site) (f : AMF)
  | stD (i : Site) (f : AMF)
  | vld (i : Site) (f : AMF)
  | vst (i : Site) (f : AMF)
  | vlds (i : Site) (f : AMF)
  | vsts (i : Site) (f : AMF)
  | vldx (i : Site) (f : AXF)
  | vstx (i : Site) (f : AXF)
  | aadd (i : Site) (f : AMF)
  | aaddi (i : Site) (slot : ASlot) (an : BitVec 4) (imm : BitVec 12)
  | amv (i : Site) (slot : ASlot) (rd rs : BitVec 6)
  | amovl (i : Site) (slot : ASlot) (r : BitVec 6) (imm : BitVec 12)
  | amovh (i : Site) (slot : ASlot) (r : BitVec 6) (imm : BitVec 12)
  | palloc (i : Site) (f : AMF)
  | pfree (i : Site) (f : AMF)
  -- D family (R227)
  | add (i : Site) (f : AluF)
  | adc (i : Site) (f : R3)
  | sub (i : Site) (f : AluF)
  | sbc (i : Site) (f : R3)
  | cmp (i : Site) (f : CmpF)
  | neg (i : Site) (f : R3)
  | abs (i : Site) (f : R3)
  | min (i : Site) (f : R3)
  | max (i : Site) (f : R3)
  | minu (i : Site) (f : R3)
  | maxu (i : Site) (f : R3)
  | and (i : Site) (f : R3)
  | or (i : Site) (f : R3)
  | xor (i : Site) (f : R3)
  | andn (i : Site) (f : R3)
  | not (i : Site) (f : R3)
  | mov (i : Site) (f : R3)
  | movi (i : Site) (x : BitVec 5) (imm : Word)
  | addD (i : Site) (f : R3)
  | adcD (i : Site) (f : R3)
  | subD (i : Site) (f : R3)
  | sbcD (i : Site) (f : R3)
  | cmpD (i : Site) (f : R3)
  | negD (i : Site) (f : R3)
  | movD (i : Site) (f : R3)
  | mvad (i : Site) (f : R3)
  | lsh (i : Site) (f : R3)
  | ash (i : Site) (f : R3)
  | lsl (i : Site) (f : RI6)
  | lsr (i : Site) (f : RI6)
  | asl (i : Site) (f : RI6)
  | asr (i : Site) (f : RI6)
  | lshD (i : Site) (f : R3)
  | ashD (i : Site) (f : R3)
  | mpy (i : Site) (f : R3)
  | mac (i : Site) (f : R3)
  | msu (i : Site) (f : R3)
  | cmpy (i : Site) (f : R3)
  | cmac (i : Site) (f : R3)
  | cmacj (i : Site) (f : R3)
  | adda (i : Site) (f : R3)
  | suba (i : Site) (f : R3)
  | nega (i : Site) (f : R3)
  | asha (i : Site) (f : RI6)
  | clra (i : Site) (f : R3)
  | mvp (i : Site) (f : R3)
  | mulf (i : Site) (f : R3)
  | mulD (i : Site) (f : R3)
  | mvr (i : Site) (f : R3)
  | mvi (i : Site) (f : R3)
  | expd (i : Site) (f : R3)
  | expdS (i : Site) (f : R3)
  | div (i : Site) (f : R3)
  | divu (i : Site) (f : R3)
  | dadd (i : Site) (f : R3)
  | dsub (i : Site) (f : R3)
  | daj (i : Site) (f : R3)
  | mvs (i : Site) (x : BitVec 5) (sys : BitVec 8) (dir : Bool)
  | tget (i : Site) (f : R3)
  -- V family (R228)
  | vadd (i : Site) (f : R3)
  | vsub (i : Site) (f : R3)
  | vadds (i : Site) (f : R3)
  | vsubs (i : Site) (f : R3)
  | vaddh (i : Site) (f : R3)
  | vsubh (i : Site) (f : R3)
  | vneg (i : Site) (f : R3)
  | vabs (i : Site) (f : R3)
  | vmin (i : Site) (f : R3)
  | vmax (i : Site) (f : R3)
  | vand (i : Site) (f : R3)
  | vor (i : Site) (f : R3)
  | vxor (i : Site) (f : R3)
  | vandn (i : Site) (f : R3)
  | vlsh (i : Site) (f : R3)
  | vash (i : Site) (f : R3)
  | vlsl (i : Site) (f : RI6)
  | vlsr (i : Site) (f : RI6)
  | vasl (i : Site) (f : RI6)
  | vasr (i : Site) (f : RI6)
  | vmulf (i : Site) (f : R3)
  | vcmulf (i : Site) (f : R3)
  | vcmuljf (i : Site) (f : R3)
  | vconj (i : Site) (f : R3)
  | vmulj (i : Site) (f : R3)
  | vswri (i : Site) (f : R3)
  | vmov (i : Site) (f : R3)
  | vbcast (i : Site) (f : R3)
  | vbcastc (i : Site) (f : R3)
  | vperm (i : Site) (f : R3)
  | vslide (i : Site) (vd vs vt : BitVec 4) (u : BitVec 5)
  | vzip (i : Site) (f : R3)
  | vunz (i : Site) (f : R3)
  | vext (i : Site) (f : RI5)
  | vins (i : Site) (f : RI5)
  | vmpy (i : Site) (f : R3)
  | vmac (i : Site) (f : R3)
  | vmsu (i : Site) (f : R3)
  | vmacs (i : Site) (f : R3)
  | vmpyp (i : Site) (f : R3)
  | vmacp (i : Site) (f : R3)
  | vcmpy (i : Site) (f : R3)
  | vcmac (i : Site) (f : R3)
  | vcmacj (i : Site) (f : R3)
  | vcmacs (i : Site) (f : R3)
  | vclra (i : Site) (f : R3)
  | vmvr (i : Site) (f : R3)
  | vmvi (i : Site) (f : R3)
  | vexpd (i : Site) (f : R3)
  | vexpdS (i : Site) (f : R3)
  | vmaxi (i : Site) (f : R3)
  | vmini (i : Site) (f : R3)
  | vmaxir (i : Site) (f : R3)
  | vminir (i : Site) (f : R3)
  | vmaxirS (i : Site) (f : R3)
  | vminirS (i : Site) (f : R3)
  | vmaxia (i : Site) (f : R3)
  | vminia (i : Site) (f : R3)
  | vmaxiaS (i : Site) (f : R3)
  | vminiaS (i : Site) (f : R3)
  | setvl (i : Site) (f : R3)
  | setvlImmediate (i : Site) (f : RI6)
  -- floating point (R229)
  | fadd (i : Site) (f : R3)
  | fsub (i : Site) (f : R3)
  | fmul (i : Site) (f : R3)
  | fma (i : Site) (f : R3)
  | fdiv (i : Site) (f : R3)
  | fsqrt (i : Site) (f : R3)
  | fmin (i : Site) (f : R3)
  | fmax (i : Site) (f : R3)
  | fcmp (i : Site) (f : R3)
  | fcmpe (i : Site) (f : R3)
  | fcvtFD (i : Site) (f : RI5)
  | fcvtFDD (i : Site) (f : RI5)
  | fcvtDF (i : Site) (f : RI5)
  | fcvtDDF (i : Site) (f : RI5)
  | fmov (i : Site) (f : R3)
  | fneg (i : Site) (f : R3)
  | fabs (i : Site) (f : R3)
  | fmvf (i : Site) (f : R3)
  | fmvd (i : Site) (f : R3)
  | fkind (i : Site) (f : R3)
  | fbar (i : Site)
  -- control (R230)
  | nop (i : Site)
  | bCc (i : Site) (cc : BitVec 4) (a : Bool) (disp : BitVec 12)
  | bra (i : Site) (a : Bool) (disp : IAddr)
  | call (i : Site) (a : Bool) (disp : IAddr)
  | callo (i : Site) (a : Bool) (disp : IAddr)
  | jmp (i : Site) (a : Bool) (an : BitVec 4)
  | callAn (i : Site) (a : Bool) (an : BitVec 4)
  | calloAn (i : Site) (a : Bool) (an : BitVec 4)
  | ret (i : Site) (a : Bool)
  | reto (i : Site) (a : Bool)
  | rte (i : Site)
  | loop (i : Site) (f : LoopF)
  | rep (i : Site) (f : RepF)
  | barp (i : Site) (b : Bool)
  | flushp (i : Site)
  | signal (i : Site) (c : BitVec 6)
  | waite (i : Site)
  | tstart (i : Site) (ds : BitVec 5) (c : BitVec 6)
  | tresume (i : Site) (c : BitVec 6)
  | tstop (i : Site) (c : BitVec 6)
  | tset (i : Site) (f : R3)
  | userDecodeOperation (i : Site) (uidx : BitVec 4) (p0 p1 p2 : BitVec 5) (p3 : BitVec 4)
  -- events of the cores (R68, R127, R141, ...)
  | divideResultLands (c : CoreRef)
  | divideSquareRootLands (c : CoreRef)
  | sharedLoadDataArrival (c : CoreRef)
  | eventDispatch (g : Fin 8) (c : Fin 9)
  | contextDispatch (c : CoreRef)
  | coreTimerExpiry (c : CoreRef)
  | l0WindowOpen (g : Fin 8) (c : Fin 9)
  | l0WindowClose (g : Fin 8) (c : Fin 9)
  | vectorUnitPowerDown (c : CoreRef)
  | vectorUnitWake (c : CoreRef)
  | lazyFSequence (g : Fin 8) (c : Fin 9)
  | f28TrapTaken (c : CoreRef)
  -- events of memory and fabric
  | bankRequestServed (g : Fin 8) (w : Serve)
  | storeBufferDrain (c : CoreRef)
  | pageRequestDecided (g : Fin 8)
  | drainMarkerArrival (g : Fin 8)
  | pageZeroingComplete (g : Fin 8)
  | scrubStep (p : ScrubPlace)
  | coreControlPortWrite (g : Fin 8) (c : Fin 9) (w : PortWrite)
  | udtHeaderWrite (g : Fin 8) (c : Fin 9) (idx : BitVec 4) (header : Word)
  | registerWrite (p : RegPlace)
  -- time and beacons
  | timerefTick
  | beaconEmit
  | beaconArrivalGeode (g : Fin 8)
  | beaconEventCoreArrival (g : Fin 8) (c : Fin 9)
  | beaconArrivalHub
  | hubMailboxMessage (g : Fin 8) (m : MailMsg)
  | watchdogMiss (g : Fin 8) (c : Fin 9)
  | coreAttention (g : Fin 8) (c : Fin 9)
  | spareImageCopyComplete (g : Fin 8)
  | coreSelfTestComplete (g : Fin 8) (c : Fin 9) (pass : Bool)
  | supvHalt (g : Fin 8)
  | hubHalt
  -- DMA (R283, R285, ...)
  | start (e : Eng) (n : Fin 32)
  | disable (e : Eng) (n : Fin 32)
  | dmaCommandReserved (e : Eng) (n : Fin 32) (cmd : BitVec 3)
  | cqheadWrite (e : Eng) (n : Fin 32) (v : Word)
  | dmaInstructionFetch (e : Eng) (n : Fin 32)
  | move (e : Eng) (n : Fin 32)
  | drainBeat (e : Eng) (n : Fin 32)
  | dmaLoop (e : Eng) (n : Fin 32)
  | endl (e : Eng) (n : Fin 32)
  | dmaWait (e : Eng) (n : Fin 32)
  | dmaSignal (e : Eng) (n : Fin 32)
  | dmaRec (e : Eng) (n : Fin 32)
  | dmaHalt (e : Eng) (n : Fin 32)
  | recordBeat (e : Eng) (n : Fin 32)
  | hostReadCompletion (n : Fin 32) (r : Completion)
  | completionTimeout (n : Fin 32)
  -- host commands (R442, R444, R446)
  | commandFetch (fn : Fin 8) (r : FetchResult)
  | hostNop (h : CmdHdr)
  | identify (h : CmdHdr)
  | status (h : CmdHdr)
  | lodeChunk (h : CmdHdr) (slot : Fin 16) (first last : Bool) (mask : Byte) (off len : U32) (bytes : List Byte)
  | lodeVerification (slot : Fin 16)
  | lodeUnload (h : CmdHdr) (slot : Fin 16)
  | lodeQuery (h : CmdHdr) (slot : Fin 16)
  | signPolicy (h : CmdHdr) (op : Byte) (arg : Byte) (key : List Byte)
  | jobStart (h : CmdHdr) (slot : Fin 16) (vec : Byte) (openEnded : Bool) (s e : U32) (bindings : List Binding)
  | jobStop (h : CmdHdr)
  | jobQuery (h : CmdHdr)
  | shareSet (h : CmdHdr) (fn : Fin 8) (geodes : Byte) (posting staging : U32)
  | shareGet (h : CmdHdr) (fn : Fin 8)
  | positionQuery (h : CmdHdr) (pos : Fin 32)
  | laneConfig (h : CmdHdr) (quad : Fin 8) (qctl : Word) (lcfg : List Word)
  | moduleReset (h : CmdHdr) (pos : Fin 32)
  | calRecordRead (h : CmdHdr) (pos : Fin 32)
  | calStatus (h : CmdHdr)
  | calSolve (h : CmdHdr) (pos : Fin 32)
  | timeGet (h : CmdHdr)
  | timeSet (h : CmdHdr) (atOnce : Bool) (source : BitVec 2) (n : U32) (sec frac : U64)
  | timeSetApply
  | memRead (h : CmdHdr) (space : Byte) (geode core : Byte) (packing : Byte) (addr units : U32)
  | memWrite (h : CmdHdr) (space : Byte) (geode core : Byte) (packing : Byte) (addr units : U32) (bytes : List Byte)
  | duskEnter (h : CmdHdr)
  | duskQuiesce
  | powerStatus (h : CmdHdr)
  | logRead (h : CmdHdr) (first : U32) (max : U16)
  | counterRead (h : CmdHdr) (block : Fin 10) (live : Bool)
  | fwInfo (h : CmdHdr)
  | fwChunk (h : CmdHdr) (first last : Bool) (off len : U32) (bytes : List Byte)
  | fwActivate (h : CmdHdr)
  | resultPosting (job : U16)
  | irqModerationTimeout (fn : Fin 8) (vec : Fin 64)
  -- the host-link domain (R426, R448, ...)
  | crtailDoorbell (fn : Fin 8) (v : U32)
  | rrheadDoorbell (fn : Fin 8) (v : U32)
  | cren (fn : Fin 8) (on : Bool)
  | rren (fn : Fin 8) (on : Bool)
  | wake
  | wakeComplete
  | functionLevelReset (fn : Fin 8)
  | vfDisable
  | d3hotEntry (fn : Fin 8)
  | d3hotToD0 (fn : Fin 8)
  | linkDown
  | linkRetrain (gen width : Nat)
  | pcieError (e : PcieErr)
  -- lanes and modules
  | mpresNChange (pos : Fin 32) (present : Bool)
  | assayRecordRead (pos : Fin 32) (r : RecordRead)
  | malertNAsserted (g : Fin 8) (bytes : List (Option Byte))
  | trainingWindowOpen (q : Fin 8)
  | laneFramed (pos : Fin 32) (rate : BitVec 2)
  | trainingWindowClose (q : Fin 8)
  | retryWindowTimer (q : Fin 8)
  | earlySignalDetected (pos : Fin 32)
  | dataCodewordReceived (pos : Fin 32) (cw : Codeword)
  | fillCodewordReceived (pos : Fin 32) (tsel : BitVec 4) (tval : BitVec 12)
  | lateBlockDeadline (pos : Fin 32)
  | timeMarkSend (q : Fin 8)
  | stimulusCodewordSend (pos : Fin 32)
  | controlResendTimeout (pos : Fin 32)
  | laneEclipse (pos : Fin 32) (cause : EclipseCause)
  | dlCodewordReceived (q : Fin 8) (cw : Codeword)
  -- calibration
  | epochEnd (pos : Fin 32) (r : EpochResult)
  | shadowBuildComplete (pos : Fin 32) (outOfRange : Bool)
  | injectResendTimeout (pos : Fin 32)
  | positionSolveStart (pos : Fin 32)
  | solveComplete (pos : Fin 32) (estimates : Nat)
  -- resets, start-up and faults
  | powerUpReset
  | perstAsserted
  | vinBrownOut
  | resetRelease
  | geodeSelfTestComplete (g : Fin 8) (pass : Bool)
  | ready
  | hubReset
  | hubResetComplete
  | geodeReset (g : Fin 8)
  | tempRefresh (tj : BitVec 16)
  | thermalTrip
  | timerefLoss
  | refclkFault
  -- time inputs
  | ppsEdge (err : Int)
  | ppsLockTimeout
  | irigBFrame (valid : Bool) (sec : BitVec 42)
  | ppsOutPulse
  -- bench monitor and JTAG (R480–R489)
  | uartByteReceived (b : Byte) (framingError : Bool)
  | ver (p : Port)
  | state (p : Port)
  | mr (p : Port) (a : Space) (n : Nat)
  | mw (p : Port) (a : Space) (vs : List Nat)
  | reg (p : Port) (t : Target) (lvl : Option (Fin 4)) (r : RegName) (v : Option (BitVec 1792))
  | halt (p : Port) (t : Target)
  | monitorRun (p : Port) (t : Target)
  | step (p : Port) (t : Target) (n : Nat)
  | brk (p : Port) (t : Target) (i : Fin 2) (addr : Option IAddr)
  | attn (p : Port) (t : Target)
  | lode (p : Port) (slot : Fin 16) (mask : Byte) (bytes : List Byte)
  | log (p : Port) (seq : Option U32) (n : Option Nat)
  | ctr (p : Port) (block : Fin 10) (live : Bool)
  | fuse (p : Port) (idx : Byte) (v : Option Word)
  | faultrec (p : Port) (clr : Bool)
  | resetDev (p : Port)
  | resetHub (p : Port)
  | resetG (p : Port) (g : Fin 8)
  | resetC (p : Port) (g : Fin 8) (c : Fin 9)
  | bypass (bits : List Bool)
  | idcode
  | samplePreload (bits : List Bool)
  | extest (bits : List Bool)
  | debug
  -- the rest of the table
  | flowControlCreditUpdate (credits : CreditGrant)
  | configurationRequest (r : CfgReq)
  | malertNDeasserted (g : Fin 8)
  | laneReferenceRestored
  | geodeResetComplete (g : Fin 8)
  | geodeMailboxMessage (g : Fin 8) (m : GeodeReport)
deriving DecidableEq, Repr

end Sys2Proof
end

