-- ==== Sys2Proof/Decode.lean ====
section
/-! DEFINITION. Reading commands from bits. The opcode table gives no row any bits, so `decodeTableWord` reads
none. What the spec does encode are the operations of a Lorner core (R58, R222–R232, R240): `decodeLong` and
`decodeShort` read one operation, none where the cell is undefined, and `encodeLong` writes one. A reserved bit
that no operand field holds sets the site's `rsv` (R233). -/

namespace Sys2Proof

/-- No row of spec/opcode_table.json gives bits: no word spells a command. -/
def decodeTableWord (_nbits _w : Nat) : Option Instr := none

/-- `n` bits of `w` from bit `lo` up. -/
def fieldAt (n w lo : Nat) : BitVec n := BitVec.ofNat n (w / 2 ^ lo)

/-- The bits of `w` from `lo` to `hi` are not all 0. -/
def anyBits (w lo hi : Nat) : Bool := decide (w / 2 ^ lo % 2 ^ (hi + 1 - lo) ≠ 0)

/-- Formats of R223, read from bits 16:0 and the low bits of OPC. -/
def readR3 (w : Nat) : R3 := ⟨fieldAt 5 w 12, fieldAt 5 w 7, fieldAt 5 w 2, fieldAt 2 w 0⟩
def readRI6 (w : Nat) : RI6 := ⟨fieldAt 5 w 12, fieldAt 5 w 7, fieldAt 6 w 1⟩
def readRI5 (w : Nat) : RI5 := ⟨fieldAt 5 w 12, fieldAt 5 w 7, fieldAt 5 w 2, fieldAt 2 w 0⟩
def readAM (sl : ASlot) (w : Nat) : AMF := ⟨sl, fieldAt 5 w 12, fieldAt 4 w 8, fieldAt 3 w 5, fieldAt 3 w 2⟩
def readAX (sl : ASlot) (w : Nat) : AXF := ⟨sl, fieldAt 5 w 12, fieldAt 4 w 8, fieldAt 4 w 4⟩
/-- RI8: I[7] is OPC[0], bit 17. -/
def readI8 (w : Nat) : BitVec 8 := BitVec.ofNat 8 (w / 2 ^ 17 % 2 * 128 + w % 128)
/-- WI: I[13:12] is OPC[1:0], bits 18:17. -/
def readI14 (w : Nat) : Word := BitVec.ofNat 14 (w / 2 ^ 17 % 4 * 4096 + w % 4096)
/-- AK: I[11] is OPC[0]. -/
def readU12 (w : Nat) : BitVec 12 := BitVec.ofNat 12 (w / 2 ^ 17 % 2 * 2048 + w % 2048)

/-- The site with its reserved-bit mark. -/
def Site.mark (i : Site) (r : Bool) : Site := { i with rsv := r }

/-- The address class (R226). -/
def decodeA (i : Site) (sl : ASlot) (opc w : Nat) : Option Instr :=
  let am := i.mark (anyBits w 0 1)
  let ax := i.mark (anyBits w 0 3)
  match opc with
  | 0x01 => some (.ld am (readAM sl w))
  | 0x02 => some (.ldD am (readAM sl w))
  | 0x03 => some (.st am (readAM sl w))
  | 0x04 => some (.stD am (readAM sl w))
  | 0x05 => some (.vld am (readAM sl w))
  | 0x06 => some (.vst am (readAM sl w))
  | 0x07 => some (.vlds am (readAM sl w))
  | 0x08 => some (.vsts am (readAM sl w))
  | 0x09 => some (.vldx ax (readAX sl w))
  | 0x0A => some (.vstx ax (readAX sl w))
  | 0x0B => some (.aadd am (readAM sl w))
  | 0x0C => some (.aaddi (i.mark (anyBits w 0 0)) sl (fieldAt 4 w 13) (fieldAt 12 w 1))
  | 0x0D => some (.amv (i.mark (anyBits w 0 4)) sl (fieldAt 6 w 11) (fieldAt 6 w 5))
  | 0x0E => some (.amovl (i.mark false) sl (fieldAt 6 w 11) (readU12 w))
  | 0x0F => some (.amovl (i.mark false) sl (fieldAt 6 w 11) (readU12 w))
  | 0x10 => some (.amovh (i.mark false) sl (fieldAt 6 w 11) (readU12 w))
  | 0x11 => some (.amovh (i.mark false) sl (fieldAt 6 w 11) (readU12 w))
  | 0x12 => some (.palloc am (readAM sl w))
  | 0x13 => some (.pfree am (readAM sl w))
  | _ => none

/-- The D family (R227). -/
def decodeD (i : Site) (opc w : Nat) : Option Instr :=
  let p := i.mark false
  let f := readR3 w
  let g := readRI6 w
  let gi := i.mark (anyBits w 0 0)
  match opc with
  | 0x00 => some (.add p (.reg f))
  | 0x01 => some (.adc p f)
  | 0x02 => some (.sub p (.reg f))
  | 0x03 => some (.sbc p f)
  | 0x04 => some (.cmp p (.reg f))
  | 0x05 => some (.neg p f)
  | 0x06 => some (.abs p f)
  | 0x07 => some (.mov p f)
  | 0x08 => some (.min p f)
  | 0x09 => some (.max p f)
  | 0x0A => some (.minu p f)
  | 0x0B => some (.maxu p f)
  | 0x0C => some (.and p f)
  | 0x0D => some (.or p f)
  | 0x0E => some (.xor p f)
  | 0x0F => some (.andn p f)
  | 0x10 => some (.not p f)
  | 0x11 => some (.cmp (i.mark (anyBits w 8 11)) (.imm (fieldAt 5 w 12) (fieldAt 8 w 0)))
  | 0x12 => some (.add p (.imm (fieldAt 5 w 12) (fieldAt 5 w 7) (readI8 w)))
  | 0x13 => some (.add p (.imm (fieldAt 5 w 12) (fieldAt 5 w 7) (readI8 w)))
  | 0x14 => some (.sub p (.imm (fieldAt 5 w 12) (fieldAt 5 w 7) (readI8 w)))
  | 0x15 => some (.sub p (.imm (fieldAt 5 w 12) (fieldAt 5 w 7) (readI8 w)))
  | 0x16 => some (.lsh p f)
  | 0x17 => some (.ash p f)
  | 0x18 => some (if 32 ≤ g.i.toNat then .lsr gi g else .lsl gi g)
  | 0x19 => some (if 32 ≤ g.i.toNat then .asr gi g else .asl gi g)
  | 0x1A => some (.lshD p f)
  | 0x1B => some (.ashD p f)
  | 0x1C => some (.addD p f)
  | 0x1D => some (.adcD p f)
  | 0x1E => some (.subD p f)
  | 0x1F => some (.sbcD p f)
  | 0x20 => some (.cmpD p f)
  | 0x21 => some (.negD p f)
  | 0x22 => some (.movD p f)
  | 0x23 => some (.mvad p f)
  | 0x24 => some (.mpy p f)
  | 0x25 => some (.mac p f)
  | 0x26 => some (.msu p f)
  | 0x27 => some (.cmpy p f)
  | 0x28 => some (.cmac p f)
  | 0x29 => some (.cmacj p f)
  | 0x2A => some (.adda p f)
  | 0x2B => some (.suba p f)
  | 0x2C => some (.nega p f)
  | 0x2D => some (.asha gi g)
  | 0x2E => some (.clra p f)
  | 0x2F => some (.mvp p f)
  | 0x30 => some (.mulf p f)
  | 0x31 => some (.mulD p f)
  | 0x32 => some (.mvr p f)
  | 0x33 => some (.mvi p f)
  | 0x34 => some (if f.b = 1 then .expdS p f else .expd p f)
  | 0x35 => some (.div p f)
  | 0x36 => some (.divu p f)
  | 0x37 => some (.dadd p f)
  | 0x38 => some (.dsub p f)
  | 0x39 => some (.daj p f)
  | 0x3A => some (.mvs (i.mark (anyBits w 0 2)) (fieldAt 5 w 12) (fieldAt 8 w 4) (decide (w / 8 % 2 = 1)))
  | 0x3B => some (.tget p f)
  | 0x3C => some (.movi p (fieldAt 5 w 12) (readI14 w))
  | 0x3D => some (.movi p (fieldAt 5 w 12) (readI14 w))
  | 0x3E => some (.movi p (fieldAt 5 w 12) (readI14 w))
  | 0x3F => some (.movi p (fieldAt 5 w 12) (readI14 w))
  | _ => none

/-- The V family (R228). -/
def decodeV (i : Site) (opc w : Nat) : Option Instr :=
  let p := i.mark false
  let f := readR3 w
  let g := readRI6 w
  let gi := i.mark (anyBits w 0 0)
  match opc with
  | 0x00 => some (.vadd p f)
  | 0x01 => some (.vsub p f)
  | 0x02 => some (.vadds p f)
  | 0x03 => some (.vsubs p f)
  | 0x04 => some (.vaddh p f)
  | 0x05 => some (.vsubh p f)
  | 0x06 => some (.vneg p f)
  | 0x07 => some (.vabs p f)
  | 0x08 => some (.vmin p f)
  | 0x09 => some (.vmax p f)
  | 0x0A => some (.vand p f)
  | 0x0B => some (.vor p f)
  | 0x0C => some (.vxor p f)
  | 0x0D => some (.vandn p f)
  | 0x0E => some (.vlsh p f)
  | 0x0F => some (.vash p f)
  | 0x10 => some (if 32 ≤ g.i.toNat then .vlsr gi g else .vlsl gi g)
  | 0x11 => some (if 32 ≤ g.i.toNat then .vasr gi g else .vasl gi g)
  | 0x12 => some (.vmulf p f)
  | 0x13 => some (.vcmulf p f)
  | 0x14 => some (.vcmuljf p f)
  | 0x15 => some (.vconj p f)
  | 0x16 => some (.vmulj p f)
  | 0x17 => some (.vswri p f)
  | 0x18 => some (.vmov p f)
  | 0x19 => some (.vbcast p f)
  | 0x1A => some (.vbcastc p f)
  | 0x1B => some (.vperm p f)
  | 0x1C => some (.vslide p (fieldAt 4 w 13) (fieldAt 4 w 9) (fieldAt 4 w 5) (fieldAt 5 w 0))
  | 0x1D => some (.vzip p f)
  | 0x1E => some (.vunz p f)
  | 0x1F => some (.vext p (readRI5 w))
  | 0x20 => some (.vins p (readRI5 w))
  | 0x21 => some (.vmpy p f)
  | 0x22 => some (.vmac p f)
  | 0x23 => some (.vmsu p f)
  | 0x24 => some (.vmacs p f)
  | 0x25 => some (.vmpyp p f)
  | 0x26 => some (.vmacp p f)
  | 0x27 => some (.vcmpy p f)
  | 0x28 => some (.vcmac p f)
  | 0x29 => some (.vcmacj p f)
  | 0x2A => some (.vcmacs p f)
  | 0x2B => some (.vclra p f)
  | 0x2C => some (.vmvr p f)
  | 0x2D => some (.vmvi p f)
  | 0x2E => some (if f.b = 1 then .vexpdS p f else .vexpd p f)
  | 0x2F => some (.vmaxi p f)
  | 0x30 => some (.vmini p f)
  | 0x31 => some (if f.b = 1 then .vmaxirS p f else .vmaxir p f)
  | 0x32 => some (if f.b = 1 then .vminirS p f else .vminir p f)
  | 0x33 => some (if f.b = 1 then .vmaxiaS p f else .vmaxia p f)
  | 0x34 => some (if f.b = 1 then .vminiaS p f else .vminia p f)
  | 0x35 => some (.setvl p f)
  | 0x36 => some (.setvlImmediate gi g)
  | _ => none

/-- The floating-point class (R229). -/
def decodeF (i : Site) (opc w : Nat) : Option Instr :=
  let p := i.mark false
  let f := readR3 w
  match opc with
  | 0x00 => some (.fadd p f)
  | 0x01 => some (.fsub p f)
  | 0x02 => some (.fmul p f)
  | 0x03 => some (.fma p f)
  | 0x04 => some (.fdiv p f)
  | 0x05 => some (.fsqrt p f)
  | 0x06 => some (.fmin p f)
  | 0x07 => some (.fmax p f)
  | 0x08 => some (.fcmp p f)
  | 0x09 => some (.fcmpe p f)
  | 0x0A => some (.fcvtFD p (readRI5 w))
  | 0x0B => some (.fcvtFDD p (readRI5 w))
  | 0x0C => some (.fcvtDF p (readRI5 w))
  | 0x0D => some (.fcvtDDF p (readRI5 w))
  | 0x0E => some (.fmov p f)
  | 0x0F => some (.fneg p f)
  | 0x10 => some (.fabs p f)
  | 0x11 => some (.fmvf p f)
  | 0x12 => some (.fmvd p f)
  | 0x13 => some (.fkind p f)
  | 0x14 => some (.fbar (i.mark (anyBits w 0 16)))
  | _ => none

/-- The control class (R230). -/
def decodeC (i : Site) (opc w : Nat) : Option Instr :=
  let n := i.mark (anyBits w 0 16)
  let cj := i.mark (anyBits w 14 15)
  let cr := i.mark (anyBits w 4 15)
  let ca := i.mark (anyBits w 0 15)
  let ct := i.mark (anyBits w 6 16)
  let a := decide (w / 2 ^ 16 % 2 = 1)
  match opc with
  | 0x00 => some (.nop n)
  | 0x01 => some (.bCc (i.mark false) (fieldAt 4 w 13) (decide (w / 2 ^ 12 % 2 = 1)) (fieldAt 12 w 0))
  | 0x02 => some (.bra cj a (fieldAt 14 w 0))
  | 0x03 => some (.call cj a (fieldAt 14 w 0))
  | 0x04 => some (.callo cj a (fieldAt 14 w 0))
  | 0x05 => some (.jmp cr a (fieldAt 4 w 0))
  | 0x06 => some (.callAn cr a (fieldAt 4 w 0))
  | 0x07 => some (.calloAn cr a (fieldAt 4 w 0))
  | 0x08 => some (.ret ca a)
  | 0x09 => some (.reto ca a)
  | 0x0A => some (.rte n)
  | 0x0B => some (.loop (i.mark false) (.reg (fieldAt 5 w 12) (fieldAt 12 w 0)))
  | 0x0C => some (.loop (i.mark false) (.imm (fieldAt 10 w 9) (fieldAt 9 w 0)))
  | 0x0D => some (.loop (i.mark false) (.imm (fieldAt 10 w 9) (fieldAt 9 w 0)))
  | 0x0E => some (.loop (i.mark false) (.imm (fieldAt 10 w 9) (fieldAt 9 w 0)))
  | 0x0F => some (.loop (i.mark false) (.imm (fieldAt 10 w 9) (fieldAt 9 w 0)))
  | 0x10 => some (.rep (i.mark (anyBits w 0 5)) (.imm (fieldAt 10 w 7) (decide (w / 64 % 2 = 1))))
  | 0x11 =>
    some (.rep (i.mark (anyBits w 7 11 || anyBits w 0 5)) (.reg (fieldAt 5 w 12) (decide (w / 64 % 2 = 1))))
  | 0x12 => some (.barp (i.mark (anyBits w 1 16)) (decide (w % 2 = 1)))
  | 0x13 => some (.flushp n)
  | 0x14 => some (.signal ct (fieldAt 6 w 0))
  | 0x15 => some (.waite n)
  | 0x16 => some (.tstart (i.mark (anyBits w 6 11)) (fieldAt 5 w 12) (fieldAt 6 w 0))
  | 0x17 => some (.tresume ct (fieldAt 6 w 0))
  | 0x18 => some (.tstop ct (fieldAt 6 w 0))
  | 0x19 => some (.tset (i.mark false) (readR3 w))
  | _ => none

/-- A long operation, bits 25:0 of a syllable (R222). -/
def decodeLong (i : Site) (w : Nat) : Option Instr :=
  let opc := w / 2 ^ 17 % 64
  match w / 2 ^ 23 % 8 with
  | 0 => decodeA i .a0 opc w
  | 1 => decodeA i .a1 opc w
  | 2 => decodeD i opc w
  | 3 => decodeV i opc w
  | 4 => decodeF i opc w
  | 5 => decodeC i opc w
  | 6 =>
    some (.userDecodeOperation (i.mark false) (fieldAt 4 w 19) (fieldAt 5 w 14) (fieldAt 5 w 9) (fieldAt 5 w 4)
      (fieldAt 4 w 0))
  | _ => none

/-- A short register-to-register operation: d := d op s (R232). -/
def shortR3 (d s : Nat) : R3 := ⟨BitVec.ofNat 5 d, BitVec.ofNat 5 d, BitVec.ofNat 5 s, 0⟩
/-- A short operation that reads s alone. -/
def shortR2 (d s : Nat) : R3 := ⟨BitVec.ofNat 5 d, BitVec.ofNat 5 s, 0, 0⟩
/-- A short CMP d, s. -/
def shortCmp (d s : Nat) : R3 := ⟨0, BitVec.ofNat 5 d, BitVec.ofNat 5 s, 0⟩

/-- A short operation, 13 bits (R232). -/
def decodeShort (i0 : Site) (w : Nat) : Option Instr :=
  let i : Site := { i0 with short := true }
  let p := i.mark false
  let sop := w / 64 % 16
  let d := w / 8 % 8
  let s := w % 8
  let mem := fun (sl : ASlot) =>
    let f := fun (am : BitVec 3) =>
      (⟨sl, BitVec.ofNat 5 (w / 2 % 8), BitVec.ofNat 4 (w / 16 % 4), am, 0⟩ : AMF)
    let m := i.mark (anyBits w 0 0)
    match sop with
    | 0 => some (Instr.ld m (f 1))
    | 1 => some (.st m (f 1))
    | 2 => some (.ld m (f 0))
    | 3 => some (.st m (f 0))
    | _ => none
  match w / 1024 % 8 with
  | 0 => some (.nop (i.mark (anyBits w 0 9)))
  | 1 => mem .a0
  | 2 => mem .a1
  | 3 =>
    match sop with
    | 0 => some (.add p (.reg (shortR3 d s)))
    | 1 => some (.sub p (.reg (shortR3 d s)))
    | 2 => some (.cmp p (.reg (shortCmp d s)))
    | 3 => some (.and p (shortR3 d s))
    | 4 => some (.or p (shortR3 d s))
    | 5 => some (.xor p (shortR3 d s))
    | 6 => some (.mov p (shortR2 d s))
    | 7 => some (.neg p (shortR2 d s))
    | 8 => some (.min p (shortR3 d s))
    | 9 => some (.max p (shortR3 d s))
    | _ => none
  | 4 =>
    match sop with
    | 0 => some (.vadd p (shortR3 d s))
    | 1 => some (.vsub p (shortR3 d s))
    | 2 => some (.vaddh p (shortR3 d s))
    | 3 => some (.vsubh p (shortR3 d s))
    | 4 => some (.vmov p (shortR2 d s))
    | 5 => some (.vmulj p (shortR2 d s))
    | 6 => some (.vconj p (shortR2 d s))
    | _ => none
  | 5 =>
    match sop with
    | 0 => some (.fadd p (shortR3 d s))
    | 1 => some (.fsub p (shortR3 d s))
    | 2 => some (.fmul p (shortR3 d s))
    | 3 => some (.fmov p (shortR2 d s))
    | 4 => some (.fneg p (shortR2 d s))
    | 5 => some (.fabs p (shortR2 d s))
    | 6 => some (.fbar (i.mark (anyBits w 0 5)))
    | _ => none
  | 6 =>
    let z := i.mark (anyBits w 0 5)
    match sop with
    | 0 => some (.waite z)
    | 1 => some (.signal (i.mark (anyBits w 3 5)) (BitVec.ofNat 6 (w % 8)))
    | 2 => some (.barp (i.mark (anyBits w 1 5)) (decide (w % 2 = 1)))
    | 3 => some (.flushp z)
    | 4 => some (.rte z)
    | 5 => some (.ret z false)
    | 6 => some (.reto z false)
    | _ => none
  | _ => none

/-- The operations of one syllable (R58), in the order of R61: a paired syllable holds two. An undefined cell reads
as a no-operation with a reserved bit set, which raises what an undefined cell raises (R233). -/
def decodeSyllable (core : CoreRef) (k : Nat) (w : DWord) : List Instr :=
  let site : Site := ⟨core, BitVec.ofNat 3 k, false, .more, false⟩
  let bad : Instr := .nop { site with rsv := true }
  let v := w.toNat
  if v / 2 ^ 26 % 2 = 0 then [(decodeLong site v).getD bad]
  else [(decodeShort site (v / 2 ^ 13 % 2 ^ 13)).getD bad, (decodeShort site (v % 2 ^ 13)).getD bad]

/-! ### Writing a long operation -/

/-- A long operation of class `cls` and opcode `opc` with operand field `f`. -/
def packLong (cls opc f : Nat) : Nat := cls * 2 ^ 23 + opc * 2 ^ 17 + f

/-- Formats of R223, written to bits 16:0. -/
def writeR3 (f : R3) : Nat := f.x.toNat * 2 ^ 12 + f.y.toNat * 2 ^ 7 + f.z.toNat * 4 + f.b.toNat
def writeRI6 (f : RI6) : Nat := f.x.toNat * 2 ^ 12 + f.y.toNat * 2 ^ 7 + f.i.toNat * 2
def writeRI5 (f : RI5) : Nat := f.x.toNat * 2 ^ 12 + f.y.toNat * 2 ^ 7 + f.u.toNat * 4 + f.b.toNat
def writeAM (f : AMF) : Nat :=
  f.x.toNat * 2 ^ 12 + f.an.toNat * 2 ^ 8 + f.am.toNat * 32 + f.mm.toNat * 4
def writeAX (f : AXF) : Nat := f.x.toNat * 2 ^ 12 + f.an.toNat * 2 ^ 8 + f.vt.toNat * 16

/-- The class of an address slot (R222). -/
def slotClass : ASlot → Nat
  | .a0 => 0
  | .a1 => 1

/-- One bit as a number. -/
def bitNat (b : Bool) : Nat := if b then 1 else 0

/-- The long encoding of an operation (R222–R230, R240); none for a command that no core issues. -/
def encodeLong : Instr → Option Nat
  | .ld _ f => some (packLong (slotClass f.slot) 0x01 (writeAM f))
  | .ldD _ f => some (packLong (slotClass f.slot) 0x02 (writeAM f))
  | .st _ f => some (packLong (slotClass f.slot) 0x03 (writeAM f))
  | .stD _ f => some (packLong (slotClass f.slot) 0x04 (writeAM f))
  | .vld _ f => some (packLong (slotClass f.slot) 0x05 (writeAM f))
  | .vst _ f => some (packLong (slotClass f.slot) 0x06 (writeAM f))
  | .vlds _ f => some (packLong (slotClass f.slot) 0x07 (writeAM f))
  | .vsts _ f => some (packLong (slotClass f.slot) 0x08 (writeAM f))
  | .vldx _ f => some (packLong (slotClass f.slot) 0x09 (writeAX f))
  | .vstx _ f => some (packLong (slotClass f.slot) 0x0A (writeAX f))
  | .aadd _ f => some (packLong (slotClass f.slot) 0x0B (writeAM f))
  | .aaddi _ sl an i => some (packLong (slotClass sl) 0x0C (an.toNat * 2 ^ 13 + i.toNat * 2))
  | .amv _ sl rd rs => some (packLong (slotClass sl) 0x0D (rd.toNat * 2 ^ 11 + rs.toNat * 32))
  | .amovl _ sl r i => some (packLong (slotClass sl) (0x0E + i.toNat / 2048) (r.toNat * 2 ^ 11 + i.toNat % 2048))
  | .amovh _ sl r i => some (packLong (slotClass sl) (0x10 + i.toNat / 2048) (r.toNat * 2 ^ 11 + i.toNat % 2048))
  | .palloc _ f => some (packLong (slotClass f.slot) 0x12 (writeAM f))
  | .pfree _ f => some (packLong (slotClass f.slot) 0x13 (writeAM f))
  | .add _ (.reg f) => some (packLong 2 0x00 (writeR3 f))
  | .add _ (.imm x y i) =>
    some (packLong 2 (0x12 + i.toNat / 128) (x.toNat * 2 ^ 12 + y.toNat * 2 ^ 7 + i.toNat % 128))
  | .adc _ f => some (packLong 2 0x01 (writeR3 f))
  | .sub _ (.reg f) => some (packLong 2 0x02 (writeR3 f))
  | .sub _ (.imm x y i) =>
    some (packLong 2 (0x14 + i.toNat / 128) (x.toNat * 2 ^ 12 + y.toNat * 2 ^ 7 + i.toNat % 128))
  | .sbc _ f => some (packLong 2 0x03 (writeR3 f))
  | .cmp _ (.reg f) => some (packLong 2 0x04 (writeR3 f))
  | .cmp _ (.imm x i) => some (packLong 2 0x11 (x.toNat * 2 ^ 12 + i.toNat))
  | .neg _ f => some (packLong 2 0x05 (writeR3 f))
  | .abs _ f => some (packLong 2 0x06 (writeR3 f))
  | .mov _ f => some (packLong 2 0x07 (writeR3 f))
  | .min _ f => some (packLong 2 0x08 (writeR3 f))
  | .max _ f => some (packLong 2 0x09 (writeR3 f))
  | .minu _ f => some (packLong 2 0x0A (writeR3 f))
  | .maxu _ f => some (packLong 2 0x0B (writeR3 f))
  | .and _ f => some (packLong 2 0x0C (writeR3 f))
  | .or _ f => some (packLong 2 0x0D (writeR3 f))
  | .xor _ f => some (packLong 2 0x0E (writeR3 f))
  | .andn _ f => some (packLong 2 0x0F (writeR3 f))
  | .not _ f => some (packLong 2 0x10 (writeR3 f))
  | .lsh _ f => some (packLong 2 0x16 (writeR3 f))
  | .ash _ f => some (packLong 2 0x17 (writeR3 f))
  | .lsl _ f => some (packLong 2 0x18 (writeRI6 f))
  | .lsr _ f => some (packLong 2 0x18 (writeRI6 f))
  | .asl _ f => some (packLong 2 0x19 (writeRI6 f))
  | .asr _ f => some (packLong 2 0x19 (writeRI6 f))
  | .lshD _ f => some (packLong 2 0x1A (writeR3 f))
  | .ashD _ f => some (packLong 2 0x1B (writeR3 f))
  | .addD _ f => some (packLong 2 0x1C (writeR3 f))
  | .adcD _ f => some (packLong 2 0x1D (writeR3 f))
  | .subD _ f => some (packLong 2 0x1E (writeR3 f))
  | .sbcD _ f => some (packLong 2 0x1F (writeR3 f))
  | .cmpD _ f => some (packLong 2 0x20 (writeR3 f))
  | .negD _ f => some (packLong 2 0x21 (writeR3 f))
  | .movD _ f => some (packLong 2 0x22 (writeR3 f))
  | .mvad _ f => some (packLong 2 0x23 (writeR3 f))
  | .mpy _ f => some (packLong 2 0x24 (writeR3 f))
  | .mac _ f => some (packLong 2 0x25 (writeR3 f))
  | .msu _ f => some (packLong 2 0x26 (writeR3 f))
  | .cmpy _ f => some (packLong 2 0x27 (writeR3 f))
  | .cmac _ f => some (packLong 2 0x28 (writeR3 f))
  | .cmacj _ f => some (packLong 2 0x29 (writeR3 f))
  | .adda _ f => some (packLong 2 0x2A (writeR3 f))
  | .suba _ f => some (packLong 2 0x2B (writeR3 f))
  | .nega _ f => some (packLong 2 0x2C (writeR3 f))
  | .asha _ f => some (packLong 2 0x2D (writeRI6 f))
  | .clra _ f => some (packLong 2 0x2E (writeR3 f))
  | .mvp _ f => some (packLong 2 0x2F (writeR3 f))
  | .mulf _ f => some (packLong 2 0x30 (writeR3 f))
  | .mulD _ f => some (packLong 2 0x31 (writeR3 f))
  | .mvr _ f => some (packLong 2 0x32 (writeR3 f))
  | .mvi _ f => some (packLong 2 0x33 (writeR3 f))
  | .expd _ f => some (packLong 2 0x34 (writeR3 f))
  | .expdS _ f => some (packLong 2 0x34 (writeR3 f))
  | .div _ f => some (packLong 2 0x35 (writeR3 f))
  | .divu _ f => some (packLong 2 0x36 (writeR3 f))
  | .dadd _ f => some (packLong 2 0x37 (writeR3 f))
  | .dsub _ f => some (packLong 2 0x38 (writeR3 f))
  | .daj _ f => some (packLong 2 0x39 (writeR3 f))
  | .mvs _ x sys dir => some (packLong 2 0x3A (x.toNat * 2 ^ 12 + sys.toNat * 16 + bitNat dir * 8))
  | .tget _ f => some (packLong 2 0x3B (writeR3 f))
  | .movi _ x i => some (packLong 2 (0x3C + i.toNat / 4096) (x.toNat * 2 ^ 12 + i.toNat % 4096))
  | .vadd _ f => some (packLong 3 0x00 (writeR3 f))
  | .vsub _ f => some (packLong 3 0x01 (writeR3 f))
  | .vadds _ f => some (packLong 3 0x02 (writeR3 f))
  | .vsubs _ f => some (packLong 3 0x03 (writeR3 f))
  | .vaddh _ f => some (packLong 3 0x04 (writeR3 f))
  | .vsubh _ f => some (packLong 3 0x05 (writeR3 f))
  | .vneg _ f => some (packLong 3 0x06 (writeR3 f))
  | .vabs _ f => some (packLong 3 0x07 (writeR3 f))
  | .vmin _ f => some (packLong 3 0x08 (writeR3 f))
  | .vmax _ f => some (packLong 3 0x09 (writeR3 f))
  | .vand _ f => some (packLong 3 0x0A (writeR3 f))
  | .vor _ f => some (packLong 3 0x0B (writeR3 f))
  | .vxor _ f => some (packLong 3 0x0C (writeR3 f))
  | .vandn _ f => some (packLong 3 0x0D (writeR3 f))
  | .vlsh _ f => some (packLong 3 0x0E (writeR3 f))
  | .vash _ f => some (packLong 3 0x0F (writeR3 f))
  | .vlsl _ f => some (packLong 3 0x10 (writeRI6 f))
  | .vlsr _ f => some (packLong 3 0x10 (writeRI6 f))
  | .vasl _ f => some (packLong 3 0x11 (writeRI6 f))
  | .vasr _ f => some (packLong 3 0x11 (writeRI6 f))
  | .vmulf _ f => some (packLong 3 0x12 (writeR3 f))
  | .vcmulf _ f => some (packLong 3 0x13 (writeR3 f))
  | .vcmuljf _ f => some (packLong 3 0x14 (writeR3 f))
  | .vconj _ f => some (packLong 3 0x15 (writeR3 f))
  | .vmulj _ f => some (packLong 3 0x16 (writeR3 f))
  | .vswri _ f => some (packLong 3 0x17 (writeR3 f))
  | .vmov _ f => some (packLong 3 0x18 (writeR3 f))
  | .vbcast _ f => some (packLong 3 0x19 (writeR3 f))
  | .vbcastc _ f => some (packLong 3 0x1A (writeR3 f))
  | .vperm _ f => some (packLong 3 0x1B (writeR3 f))
  | .vslide _ d s t u =>
    some (packLong 3 0x1C (d.toNat * 2 ^ 13 + s.toNat * 2 ^ 9 + t.toNat * 32 + u.toNat))
  | .vzip _ f => some (packLong 3 0x1D (writeR3 f))
  | .vunz _ f => some (packLong 3 0x1E (writeR3 f))
  | .vext _ f => some (packLong 3 0x1F (writeRI5 f))
  | .vins _ f => some (packLong 3 0x20 (writeRI5 f))
  | .vmpy _ f => some (packLong 3 0x21 (writeR3 f))
  | .vmac _ f => some (packLong 3 0x22 (writeR3 f))
  | .vmsu _ f => some (packLong 3 0x23 (writeR3 f))
  | .vmacs _ f => some (packLong 3 0x24 (writeR3 f))
  | .vmpyp _ f => some (packLong 3 0x25 (writeR3 f))
  | .vmacp _ f => some (packLong 3 0x26 (writeR3 f))
  | .vcmpy _ f => some (packLong 3 0x27 (writeR3 f))
  | .vcmac _ f => some (packLong 3 0x28 (writeR3 f))
  | .vcmacj _ f => some (packLong 3 0x29 (writeR3 f))
  | .vcmacs _ f => some (packLong 3 0x2A (writeR3 f))
  | .vclra _ f => some (packLong 3 0x2B (writeR3 f))
  | .vmvr _ f => some (packLong 3 0x2C (writeR3 f))
  | .vmvi _ f => some (packLong 3 0x2D (writeR3 f))
  | .vexpd _ f => some (packLong 3 0x2E (writeR3 f))
  | .vexpdS _ f => some (packLong 3 0x2E (writeR3 f))
  | .vmaxi _ f => some (packLong 3 0x2F (writeR3 f))
  | .vmini _ f => some (packLong 3 0x30 (writeR3 f))
  | .vmaxir _ f => some (packLong 3 0x31 (writeR3 f))
  | .vmaxirS _ f => some (packLong 3 0x31 (writeR3 f))
  | .vminir _ f => some (packLong 3 0x32 (writeR3 f))
  | .vminirS _ f => some (packLong 3 0x32 (writeR3 f))
  | .vmaxia _ f => some (packLong 3 0x33 (writeR3 f))
  | .vmaxiaS _ f => some (packLong 3 0x33 (writeR3 f))
  | .vminia _ f => some (packLong 3 0x34 (writeR3 f))
  | .vminiaS _ f => some (packLong 3 0x34 (writeR3 f))
  | .setvl _ f => some (packLong 3 0x35 (writeR3 f))
  | .setvlImmediate _ f => some (packLong 3 0x36 (writeRI6 f))
  | .fadd _ f => some (packLong 4 0x00 (writeR3 f))
  | .fsub _ f => some (packLong 4 0x01 (writeR3 f))
  | .fmul _ f => some (packLong 4 0x02 (writeR3 f))
  | .fma _ f => some (packLong 4 0x03 (writeR3 f))
  | .fdiv _ f => some (packLong 4 0x04 (writeR3 f))
  | .fsqrt _ f => some (packLong 4 0x05 (writeR3 f))
  | .fmin _ f => some (packLong 4 0x06 (writeR3 f))
  | .fmax _ f => some (packLong 4 0x07 (writeR3 f))
  | .fcmp _ f => some (packLong 4 0x08 (writeR3 f))
  | .fcmpe _ f => some (packLong 4 0x09 (writeR3 f))
  | .fcvtFD _ f => some (packLong 4 0x0A (writeRI5 f))
  | .fcvtFDD _ f => some (packLong 4 0x0B (writeRI5 f))
  | .fcvtDF _ f => some (packLong 4 0x0C (writeRI5 f))
  | .fcvtDDF _ f => some (packLong 4 0x0D (writeRI5 f))
  | .fmov _ f => some (packLong 4 0x0E (writeR3 f))
  | .fneg _ f => some (packLong 4 0x0F (writeR3 f))
  | .fabs _ f => some (packLong 4 0x10 (writeR3 f))
  | .fmvf _ f => some (packLong 4 0x11 (writeR3 f))
  | .fmvd _ f => some (packLong 4 0x12 (writeR3 f))
  | .fkind _ f => some (packLong 4 0x13 (writeR3 f))
  | .fbar _ => some (packLong 4 0x14 0)
  | .nop _ => some (packLong 5 0x00 0)
  | .bCc _ cc a d => some (packLong 5 0x01 (cc.toNat * 2 ^ 13 + bitNat a * 2 ^ 12 + d.toNat))
  | .bra _ a d => some (packLong 5 0x02 (bitNat a * 2 ^ 16 + d.toNat))
  | .call _ a d => some (packLong 5 0x03 (bitNat a * 2 ^ 16 + d.toNat))
  | .callo _ a d => some (packLong 5 0x04 (bitNat a * 2 ^ 16 + d.toNat))
  | .jmp _ a n => some (packLong 5 0x05 (bitNat a * 2 ^ 16 + n.toNat))
  | .callAn _ a n => some (packLong 5 0x06 (bitNat a * 2 ^ 16 + n.toNat))
  | .calloAn _ a n => some (packLong 5 0x07 (bitNat a * 2 ^ 16 + n.toNat))
  | .ret _ a => some (packLong 5 0x08 (bitNat a * 2 ^ 16))
  | .reto _ a => some (packLong 5 0x09 (bitNat a * 2 ^ 16))
  | .rte _ => some (packLong 5 0x0A 0)
  | .loop _ (.reg ds d) => some (packLong 5 0x0B (ds.toNat * 2 ^ 12 + d.toNat))
  | .loop _ (.imm c d) => some (packLong 5 (0x0C + c.toNat / 256) (c.toNat % 256 * 2 ^ 9 + d.toNat))
  | .rep _ (.imm c i) => some (packLong 5 0x10 (c.toNat * 2 ^ 7 + bitNat i * 64))
  | .rep _ (.reg ds i) => some (packLong 5 0x11 (ds.toNat * 2 ^ 12 + bitNat i * 64))
  | .barp _ b => some (packLong 5 0x12 (bitNat b))
  | .flushp _ => some (packLong 5 0x13 0)
  | .signal _ c => some (packLong 5 0x14 c.toNat)
  | .waite _ => some (packLong 5 0x15 0)
  | .tstart _ ds c => some (packLong 5 0x16 (ds.toNat * 2 ^ 12 + c.toNat))
  | .tresume _ c => some (packLong 5 0x17 c.toNat)
  | .tstop _ c => some (packLong 5 0x18 c.toNat)
  | .tset _ f => some (packLong 5 0x19 (writeR3 f))
  | .userDecodeOperation _ u p0 p1 p2 p3 =>
    some (packLong 6 0 (u.toNat * 2 ^ 19 + p0.toNat * 2 ^ 14 + p1.toNat * 2 ^ 9 + p2.toNat * 16 + p3.toNat))
  | _ => none

end Sys2Proof
end

