-- ==== Sys2Proof/Machine/SMap.lean ====
section
/-! DEFINITION. The operations of the sparse arrays in which registers and memories are held, and plain list
helpers. A write keeps the canonical form: indices strictly rising, no entry equal to 0. -/

namespace Sys2Proof.Machine
open Sys2Proof

/-- What index `i` reads as: its entry, or 0. -/
def smGet {w : Nat} : SMap w → Nat → BitVec w
  | [], _ => 0#w
  | (k, v) :: m, i => if i = k then v else smGet m i

/-- Write `x` at index `i`: an entry holding 0 is removed, since an unlisted index reads as 0. -/
def smPut {w : Nat} : SMap w → Nat → BitVec w → SMap w
  | [], i, x => if x = 0#w then [] else [(i, x)]
  | (k, v) :: m, i, x =>
    if i < k then (if x = 0#w then (k, v) :: m else (i, x) :: (k, v) :: m)
    else if i = k then (if x = 0#w then m else (i, x) :: m)
    else (k, v) :: smPut m i x

/-- Every index in `l` is above `i`. -/
def smAbove {w : Nat} (i : Nat) (m : SMap w) : Bool := m.all (fun e => i < e.1)

/-- The canonical form: strictly rising, no entry 0. -/
def smWf {w : Nat} : SMap w → Bool
  | [] => true
  | (k, v) :: m => v != 0#w && smAbove k m && smWf m

/-- Write the words `xs` from index `i` upwards. -/
def smPutList {w : Nat} : SMap w → Nat → List (BitVec w) → SMap w
  | m, _, [] => m
  | m, i, x :: xs => smPutList (smPut m i x) (i + 1) xs

/-- Write every (index, value) pair, first to last. -/
def smPutAll {w : Nat} (m : SMap w) (ps : List (Nat × BitVec w)) : SMap w :=
  ps.foldl (fun m p => smPut m p.1 p.2) m

/-- The `n` words from index `i` upwards. -/
def smGetList {w : Nat} (m : SMap w) (i n : Nat) : List (BitVec w) :=
  (List.range n).map (fun k => smGet m (i + k))

/-- Make every index from `i` to `i + n − 1` read as 0. -/
def smClear {w : Nat} (m : SMap w) (i n : Nat) : SMap w :=
  m.filter (fun e => e.1 < i || i + n ≤ e.1)

/-- Apply `f` to element `i` of a list. -/
def modAt {α : Type} : List α → Nat → (α → α) → List α
  | [], _, _ => []
  | x :: xs, 0, f => f x :: xs
  | x :: xs, i + 1, f => x :: modAt xs i f

/-- Insert into an ascending list without repeats. -/
def insAsc : List Nat → Nat → List Nat
  | [], n => [n]
  | x :: xs, n => if n < x then n :: x :: xs else if n = x then x :: xs else x :: insAsc xs n

/-- The first element that satisfies `p`, with the list without it. -/
def takeFirst {α : Type} (p : α → Bool) : List α → Option (α × List α)
  | [] => none
  | x :: xs =>
    if p x then some (x, xs)
    else match takeFirst p xs with
      | some (y, ys) => some (y, x :: ys)
      | none => none

end Sys2Proof.Machine
end

