-- ==== Sys2Proof/Machine/Flags.lean ====
section
/-! DEFINITION. Arithmetic that operations share: rnd and fit (R146), the flag rules of R148, shifts (R152),
complex products (R155), block exponents (R164), division (R168–R170) and packed BCD (R174). Every true result
is computed exactly, as an integer, and then reduced. -/

namespace Sys2Proof.Machine
open Sys2Proof

/-- The bit of value `n`, of any width, as a Bool. -/
def bitOf {w : Nat} (x : BitVec w) (i : Nat) : Bool := x.getLsbD i

/-- One bit as a number. -/
def b2n (b : Bool) : Nat := if b then 1 else 0

/-- rnd of R146: round half up by `s` places, for s ≥ 1. -/
def rnd (x : Int) (s : Nat) : Int := (x + (2 : Int) ^ (s - 1)).fdiv ((2 : Int) ^ s)

/-- The least and the greatest signed value of `w` bits. -/
def sMin (w : Nat) : Int := -((2 : Int) ^ (w - 1))
def sMax (w : Nat) : Int := (2 : Int) ^ (w - 1) - 1

/-- `x` fits in `w` signed bits. -/
def fits (x : Int) (w : Nat) : Bool := decide (sMin w ≤ x) && decide (x ≤ sMax w)

/-- The wrapped result of R146: `x` mod 2^w, read as signed. -/
def wrapped (x : Int) (w : Nat) : Int := (BitVec.ofInt w x).toInt

/-- fit of R146: the value, and V. -/
def fit (sat : Bool) (x : Int) (w : Nat) : Int × Bool :=
  if fits x w then (x, false)
  else if sat then (if x < 0 then sMin w else sMax w, true)
  else (wrapped x w, true)

/-- N and Z of a value: its sign bit at width `w`, and whether it is 0, both of the wrapped result (R148). -/
def flagN (x : Int) (w : Nat) : Bool := decide (wrapped x w < 0)
def flagZ (x : Int) (w : Nat) : Bool := decide (wrapped x w = 0)

/-- Result and flags of an arithmetic operation of R148's first rows. -/
structure ArithOut where
  val : Int
  n : Bool
  z : Bool
  c : Bool
  v : Bool
deriving DecidableEq, Repr

/-- ADD and ADC (R150): s + t + cin at width `w`. -/
def addW (sat : Bool) (w : Nat) (s t : BitVec w) (cin : Bool) : ArithOut :=
  let x := s.toInt + t.toInt + b2n cin
  let r := fit sat x w
  { val := r.1, n := flagN x w, z := flagZ x w,
    c := decide (2 ^ w ≤ s.toNat + t.toNat + b2n cin), v := r.2 }

/-- SUB, SBC and CMP (R150): s − t − bin at width `w`; C is 1 when no borrow occurs. -/
def subW (sat : Bool) (w : Nat) (s t : BitVec w) (bin : Bool) : ArithOut :=
  let x := s.toInt - t.toInt - b2n bin
  let r := fit sat x w
  { val := r.1, n := flagN x w, z := flagZ x w,
    c := decide (t.toNat + b2n bin ≤ s.toNat), v := r.2 }

/-- NEG (R148, R150): C is 1 if the operand is 0. -/
def negW (sat : Bool) (w : Nat) (s : BitVec w) : ArithOut :=
  let x := - s.toInt
  let r := fit sat x w
  { val := r.1, n := flagN x w, z := flagZ x w, c := decide (s = 0#w), v := r.2 }

/-- Result of a shift (R152); `c` none leaves C unchanged. -/
structure ShiftOut (w : Nat) where
  r : BitVec w
  c : Option Bool
  v : Bool
deriving DecidableEq, Repr

/-- The shifts of R152, logical or arithmetic, by a signed count. -/
def shiftW (arith : Bool) {w : Nat} (s : BitVec w) (n : Int) : ShiftOut w :=
  let m := n.natAbs
  if n = 0 then { r := s, c := none, v := false }
  else if 0 < n then
    { r := BitVec.ofNat w (s.toNat * 2 ^ m)
      c := some (decide (m ≤ w) && bitOf s (w - m))
      v := if arith then !fits (s.toInt * 2 ^ m) w
           else if w ≤ m then s != 0#w
           else decide (s.toNat / 2 ^ (w - m) ≠ 0) }
  else if arith then
    { r := BitVec.ofInt w (s.toInt.fdiv ((2 : Int) ^ m))
      c := some (if m ≤ w then bitOf s (m - 1) else bitOf s (w - 1))
      v := false }
  else
    { r := BitVec.ofNat w (s.toNat / 2 ^ m)
      c := some (decide (m ≤ w) && bitOf s (m - 1))
      v := false }

/-- Real and imaginary part of a complex product (R155), the second operand conjugated or not. -/
def cmulRe (conj : Bool) (a b c d : Int) : Int := if conj then a * c + b * d else a * c - b * d
def cmulIm (conj : Bool) (a b c d : Int) : Int := if conj then b * c - a * d else a * d + b * c

/-- The width of an accumulator in the mode (R158). -/
def accW (wide : Bool) : Nat := if wide then 56 else 40

/-- The accumulator as an operation reads it: bits 39:0 signed in normal mode, all 56 in wide mode (R159). -/
def accRead (wide : Bool) (a : Acc) : Int := if wide then a.toInt else (a.truncate 40).toInt

/-- The accumulator that a write of `x` leaves: bits 55:40 copy bit 39 in normal mode (R105). -/
def accWrite (wide : Bool) (x : Int) : Acc :=
  if wide then BitVec.ofInt 56 x else (BitVec.ofInt 40 x).signExtend 56

/-- Result and flags of an accumulator operation (R148, R158). -/
structure AccOut where
  acc : Acc
  n : Bool
  z : Bool
  v : Bool
deriving DecidableEq, Repr

/-- Write the exact value `x` to an accumulator (R158). -/
def accOp (sat wide : Bool) (x : Int) : AccOut :=
  let r := fit sat x (accW wide)
  { acc := accWrite wide r.1, n := flagN x (accW wide), z := flagZ x (accW wide), v := r.2 }

/-- A wide datum of a D pair: bits 23:0, signed (R145). -/
def wideRead (d : DWord) : Int := (d.truncate 24).toInt

/-- The D pair that a wide datum writes: bits 27:24 equal bit 23 (R145). -/
def wideWrite (x : Int) : DWord := (BitVec.ofInt 24 x).signExtend 28

/-- k of R163 from MODE.SCL: none for the reserved codes. -/
def sclK (scl : BitVec 3) (d7 : Word) : Int :=
  match scl.toNat with
  | 1 => 1
  | 2 => 2
  | 3 => -1
  | 4 => ((d7.truncate 4).toNat : Int)
  | _ => 0

/-- The scaled value of R163, before it is fitted: base `b`, shift `k`. -/
def scaleMove (x : Int) (b : Nat) (k : Int) : Int :=
  let s := (b : Int) + k
  if 1 ≤ s then rnd x s.toNat
  else if s = -1 then x * 2
  else x

/-- Bits below the top bit of a `w`-bit value that equal the top bit (R164). -/
def signRun (w : Nat) (x : Int) : Nat :=
  ((List.range (w - 1)).filter (fun k => fits x (k + 1))).length

/-- e of R164: the block exponent of an accumulator value. -/
def blockExp (wide : Bool) (x : Int) : Nat := (if wide then 9 else 13) - signRun (accW wide) x

/-- Index of the highest 1 bit plus 1; 0 for 0. -/
def bitLen (x : Nat) : Nat := if x = 0 then 0 else Nat.log2 x + 1

/-- Latency of a divide in core cycles (R169). -/
def divLatency (ct : Bool) (s t : Nat) : Nat :=
  if ct then 9
  else if t = 0 then 2
  else 2 + ((bitLen s + 1 - bitLen t) + 1) / 2

/-- Quotient, remainder, V and DZ of DIV (R168, R170). -/
def divSigned (sat : Bool) (s t : Int) : Int × Int × Bool × Bool :=
  if t = 0 then (if s < 0 then sMin 14 else sMax 14, s, true, true)
  else
    let q := fit sat (s.tdiv t) 14
    (q.1, s.tmod t, q.2, false)

/-- Quotient, remainder, V and DZ of DIVU (R168, R170). -/
def divUnsigned (s t : Nat) : Nat × Nat × Bool × Bool :=
  if t = 0 then (16383, s, true, true) else (s / t, s % t, false, false)

/-- Digit i of a packed BCD value (R173). -/
def digit (x : DWord) (i : Nat) : Nat := x.toNat / 16 ^ i % 16

/-- Some digit of the value is invalid (R173). -/
def badDigit (x : DWord) : Bool := (List.range 7).any (fun i => decide (9 < digit x i))

/-- One digit of dadd (R174): result digit and carry. -/
def daddDigit (v : Nat) : Nat × Bool := if 10 ≤ v then ((v - 10) % 16, true) else (v, false)

/-- One digit of dsub (R174): result digit and borrow. -/
def dsubDigit (v : Int) : Nat × Bool := if v < 0 then (((v + 10) % 16).toNat, true) else (v.toNat, false)

/-- dadd of R174. -/
def dadd (a b : DWord) (cin : Bool) : DWord × Bool :=
  let r := (List.range 7).foldl (fun (p : Nat × Bool) i =>
    let q := daddDigit (digit a i + digit b i + b2n p.2)
    (p.1 + q.1 * 16 ^ i, q.2)) (0, cin)
  (BitVec.ofNat 28 r.1, r.2)

/-- dsub of R174. -/
def dsub (a b : DWord) (bin : Bool) : DWord × Bool :=
  let r := (List.range 7).foldl (fun (p : Nat × Bool) i =>
    let q := dsubDigit ((digit a i : Int) - digit b i - b2n p.2)
    (p.1 + q.1 * 16 ^ i, q.2)) (0, bin)
  (BitVec.ofNat 28 r.1, r.2)

/-- daj of R174. -/
def daj (a : DWord) : DWord × Bool := dadd a 0 false

end Sys2Proof.Machine
end

