-- ==== Sys2Proof/Machine/F28.lean ====
section
/-! DEFINITION. F28 arithmetic (R201–R215): values exactly as integers times a power of two, one rounding (R205),
flushing (R206), NaNs and invalid operations (R207), zeros (R208), the conversions of R212 and the compare of
R211. -/

namespace Sys2Proof.Machine
open Sys2Proof

/-- Fields of an F28 value (R201). -/
def fSign (v : DWord) : Bool := bitOf v 27
def fExp (v : DWord) : Nat := v.toNat / 2 ^ 19 % 256
def fFrac (v : DWord) : Nat := v.toNat % 2 ^ 19

/-- An F28 value from sign, exponent field and fraction field. -/
def fPack (s : Bool) (e t : Nat) : DWord := BitVec.ofNat 28 (b2n s * 2 ^ 27 + e * 2 ^ 19 + t)

def fIsNaN (v : DWord) : Bool := decide (fExp v = 255) && decide (fFrac v ≠ 0)
def fIsSNaN (v : DWord) : Bool := fIsNaN v && !bitOf v 18
def fIsInf (v : DWord) : Bool := decide (fExp v = 255) && decide (fFrac v = 0)
def fIsZero (v : DWord) : Bool := decide (fExp v = 0) && decide (fFrac v = 0)
def fIsSub (v : DWord) : Bool := decide (fExp v = 0) && decide (fFrac v ≠ 0)

/-- The default NaN (R202). -/
def fDefaultNaN : DWord := 0x7FC0000

/-- A NaN with T[18] set (R207). -/
def fQuiet (v : DWord) : DWord := v ||| 0x0040000

/-- A subnormal operand reads as a zero of its sign (R206). -/
def fFlush (v : DWord) : DWord := if fIsSub v then fPack (fSign v) 0 0 else v

/-- Magnitude of a flushed finite value: m × 2^e, m = 0 for a zero. -/
def fMag (v : DWord) : Nat × Int :=
  if fExp v = 0 then (0, 0) else (2 ^ 19 + fFrac v, (fExp v : Int) - 127 - 19)

/-- A result with the FSTAT flags that it sets and whether a subnormal trap falls due (R215, R206). -/
structure FOut where
  val : DWord
  nv  : Bool := false
  dz  : Bool := false
  ov  : Bool := false
  uf  : Bool := false
  nx  : Bool := false
  sub : Bool := false
deriving DecidableEq, Repr

/-- The flags as FSTAT[4:0]: NV, DZ, OF, UF, NX. -/
def FOut.bits (r : FOut) : BitVec 5 :=
  BitVec.ofNat 5 (16 * b2n r.nv + 8 * b2n r.dz + 4 * b2n r.ov + 2 * b2n r.uf + b2n r.nx)

/-- frm_round of R205: `q` the truncated magnitude, `r` the remainder out of `d`, `st` a further non-zero rest. -/
def frmRound (frm : Nat) (s : Bool) (q r d : Nat) (st : Bool) : Nat :=
  let up := match frm with
    | 0 => decide (d < 2 * r) || (decide (2 * r = d) && (st || decide (q % 2 = 1)))
    | 1 => false
    | 2 => !s && (decide (r ≠ 0) || st)
    | _ => s && (decide (r ≠ 0) || st)
  if up then q + 1 else q

/-- The overflow results of R205. -/
def fOverflow (frm : Nat) (s : Bool) : DWord :=
  let inf := match frm with
    | 0 => true
    | 1 => false
    | 2 => !s
    | _ => s
  if inf then fPack s 255 0 else fPack s 254 (2 ^ 19 - 1)

/-- round of R205, with the flush of R206, of the non-zero magnitude (m + st·ε) × 2^e, 0 ≤ ε < 1, of sign s. -/
def fRound (frm : Nat) (s : Bool) (m : Nat) (e : Int) (st : Bool) : FOut :=
  let top : Int := Nat.log2 m + e
  let ex := max top (-126)
  let sh := ex - 19 - e
  let q := if 0 ≤ sh then m / 2 ^ sh.toNat else m * 2 ^ sh.natAbs
  let r := if 0 ≤ sh then m % 2 ^ sh.toNat else 0
  let d := if 0 ≤ sh then 2 ^ sh.toNat else 1
  let inexact := decide (r ≠ 0) || st
  let k := frmRound frm s q r d st
  let k2 := if k = 2 ^ 20 then 2 ^ 19 else k
  let ex2 := if k = 2 ^ 20 then ex + 1 else ex
  if k2 < 2 ^ 19 then { val := fPack s 0 0, uf := true, nx := true, sub := decide (k2 ≠ 0) }
  else if 127 < ex2 then { val := fOverflow frm s, ov := true, nx := true }
  else { val := fPack s (ex2 + 127).toNat (k2 - 2 ^ 19), nx := inexact }

/-- The first NaN operand, quieted, with NV if any is signalling or the operation is invalid; none if no operand is
a NaN (R207, R215). -/
def fNaN (vs : List DWord) (invalid : Bool) : Option FOut :=
  match vs.find? fIsNaN with
  | some v => some { val := fQuiet v, nv := vs.any fIsSNaN || invalid }
  | none => if invalid then some { val := fDefaultNaN, nv := true } else none

/-- Mark a subnormal operand (R206). -/
def fSubOps (vs : List DWord) (r : FOut) : FOut := { r with sub := r.sub || vs.any fIsSub }

/-- Exact sum of two signed magnitudes m × 2^e, rounded; an exact zero follows R208. -/
def fSum (frm : Nat) (sa : Bool) (a : Nat × Int) (sb : Bool) (b : Nat × Int) : FOut :=
  if a.1 = 0 ∧ b.1 = 0 then
    { val := fPack (if sa = sb then sa else decide (frm = 3)) 0 0 }
  else
    let e := if a.1 = 0 then b.2 else if b.1 = 0 then a.2 else min a.2 b.2
    let x : Int := (if sa then -1 else 1) * (a.1 * 2 ^ (a.2 - e).toNat : Nat)
    let y : Int := (if sb then -1 else 1) * (b.1 * 2 ^ (b.2 - e).toNat : Nat)
    let z := (if a.1 = 0 then 0 else x) + (if b.1 = 0 then 0 else y)
    if z = 0 then { val := fPack (decide (frm = 3)) 0 0 }
    else fRound frm (decide (z < 0)) z.natAbs e false

/-- Flip the sign of a value that is no NaN (FSUB). -/
def fNegate (v : DWord) : DWord := if fIsNaN v then v else v ^^^ 0x8000000

/-- FADD of R209 (FSUB: t negated). -/
def fAdd (frm : Nat) (s0 t0 : DWord) : FOut :=
  let s := fFlush s0
  let t := fFlush t0
  fSubOps [s0, t0] <|
    match fNaN [s, t] (fIsInf s && fIsInf t && (fSign s != fSign t)) with
    | some r => r
    | none =>
      if fIsInf s then { val := s } else if fIsInf t then { val := t }
      else fSum frm (fSign s) (fMag s) (fSign t) (fMag t)

/-- FMUL. -/
def fMul (frm : Nat) (s0 t0 : DWord) : FOut :=
  let s := fFlush s0
  let t := fFlush t0
  let sg := fSign s != fSign t
  fSubOps [s0, t0] <|
    match fNaN [s, t] ((fIsInf s && fIsZero t) || (fIsZero s && fIsInf t)) with
    | some r => r
    | none =>
      if fIsInf s || fIsInf t then { val := fPack sg 255 0 }
      else if fIsZero s || fIsZero t then { val := fPack sg 0 0 }
      else
        let a := fMag s
        let b := fMag t
        fRound frm sg (a.1 * b.1) (a.2 + b.2) false

/-- FMA: d + s × t with one rounding; NaN order Fs, Ft, Fd. -/
def fMa (frm : Nat) (s0 t0 d0 : DWord) : FOut :=
  let s := fFlush s0
  let t := fFlush t0
  let d := fFlush d0
  let sg := fSign s != fSign t
  let inf := fIsInf s || fIsInf t
  let inv := (fIsInf s && fIsZero t) || (fIsZero s && fIsInf t)
  fSubOps [s0, t0, d0] <|
    match fNaN [s, t, d] (inv || (!fIsNaN s && !fIsNaN t && inf && fIsInf d && (sg != fSign d))) with
    | some r => r
    | none =>
      if inf then { val := fPack sg 255 0 }
      else if fIsInf d then { val := d }
      else
        let a := fMag s
        let b := fMag t
        fSum frm (fSign d) (fMag d) sg (a.1 * b.1, a.2 + b.2)

/-- FDIV. -/
def fDiv (frm : Nat) (s0 t0 : DWord) : FOut :=
  let s := fFlush s0
  let t := fFlush t0
  let sg := fSign s != fSign t
  fSubOps [s0, t0] <|
    match fNaN [s, t] ((fIsZero s && fIsZero t) || (fIsInf s && fIsInf t)) with
    | some r => r
    | none =>
      if fIsInf s then { val := fPack sg 255 0 }
      else if fIsInf t || fIsZero s then { val := fPack sg 0 0 }
      else if fIsZero t then { val := fPack sg 255 0, dz := true }
      else
        let a := fMag s
        let b := fMag t
        let n := a.1 * 2 ^ 40
        fRound frm sg (n / b.1) (a.2 - b.2 - 40) (decide (n % b.1 ≠ 0))

/-- Integer square root by bits, from bit `k` down. -/
def isqrt (n : Nat) : Nat → Nat
  | 0 => 0
  | k + 1 =>
    let r := isqrt (n / 4) k
    if (2 * r + 1) * (2 * r + 1) ≤ n then 2 * r + 1 else 2 * r

/-- FSQRT. -/
def fSqrt (frm : Nat) (s0 : DWord) : FOut :=
  let s := fFlush s0
  fSubOps [s0] <|
    match fNaN [s] (fSign s && !fIsZero s && !fIsNaN s) with
    | some r => r
    | none =>
      if fIsInf s || fIsZero s then { val := s }
      else
        let a := fMag s
        let odd := a.2.emod 2 = 1
        let m := (if odd then a.1 * 2 else a.1) * 2 ^ 40
        let e := (if odd then a.2 - 1 else a.2) - 40
        let r := isqrt m 48
        fRound frm false r (e / 2) (decide (r * r ≠ m))

/-- Order of two flushed values that are no NaN: −1, 0 or 1 by their real values, infinities included. -/
def fKey (v : DWord) : Int := if fSign v then -((v.toNat % 2 ^ 27 : Nat) : Int) else ((v.toNat % 2 ^ 27 : Nat) : Int)

/-- FMIN and FMAX: −0 < +0 (R209). -/
def fMinMax (isMax : Bool) (s0 t0 : DWord) : FOut :=
  let s := fFlush s0
  let t := fFlush t0
  fSubOps [s0, t0] <|
    match fNaN [s, t] false with
    | some r => r
    | none =>
      let less := decide (fKey s < fKey t) || (decide (fKey s = fKey t) && fSign s && !fSign t)
      { val := if isMax then (if less then t else s) else (if less then s else t) }

/-- FCMP and FCMPE: N, Z, C, V of R211 with the FSTAT effect in the second part. -/
def fCompare (quietInvalid : Bool) (s0 t0 : DWord) : (Bool × Bool × Bool × Bool) × FOut :=
  let s := fFlush s0
  let t := fFlush t0
  if fIsNaN s || fIsNaN t then
    ((false, false, false, true),
     fSubOps [s0, t0] { val := 0, nv := quietInvalid || fIsSNaN s || fIsSNaN t })
  else
    (if fKey s < fKey t then (true, false, false, false)
     else if fKey s = fKey t then (false, true, true, false)
     else (false, false, true, false),
     fSubOps [s0, t0] { val := 0 })

/-- FCVT.F.D and FCVT.F.DD: round(k × 2^−u). -/
def fFromInt (frm : Nat) (k : Int) (u : Nat) : FOut :=
  if k = 0 then { val := 0 } else fRound frm (decide (k < 0)) k.natAbs (-(u : Int)) false

/-- FCVT.D.F and FCVT.DD.F of R212: the integer, with its flags in `FOut`. -/
def fToInt (frm : Nat) (w u : Nat) (s0 : DWord) : Int × FOut :=
  let s := fFlush s0
  let clamp := if fSign s then sMin w else sMax w
  if fIsNaN s then (0, fSubOps [s0] { val := 0, nv := true })
  else if fIsInf s then (clamp, fSubOps [s0] { val := 0, nv := true })
  else
    let a := fMag s
    let e := a.2 + u
    let q := if 0 ≤ e then a.1 * 2 ^ e.toNat else a.1 / 2 ^ e.natAbs
    let r := if 0 ≤ e then 0 else a.1 % 2 ^ e.natAbs
    let d := if 0 ≤ e then 1 else 2 ^ e.natAbs
    let k := frmRound frm (fSign s) q r d false
    let v : Int := if fSign s then -(k : Int) else k
    if fits v w then (v, fSubOps [s0] { val := 0, nx := decide (r ≠ 0) })
    else (clamp, fSubOps [s0] { val := 0, nv := true })

/-- The kind word of R209. -/
def fKind (v : DWord) : Word :=
  let kind :=
    if fIsZero v then 0 else if fIsSub v then 1 else if fIsInf v then 3
    else if fIsSNaN v then 5 else if fIsNaN v then 4 else 2
  BitVec.ofNat 14 (fExp v * 16 + b2n (fSign v) * 8 + kind)

/-- FDIV and FSQRT are special after flushing (R213). -/
def fDivSpecial (s t : DWord) : Bool :=
  [s, t].any (fun v => fIsZero (fFlush v) || fIsInf v || fIsNaN v)
def fSqrtSpecial (s : DWord) : Bool :=
  fIsZero (fFlush s) || fIsInf s || fIsNaN s || fSign s

/-- Latency of FDIV and FSQRT in core cycles (R213). -/
def fLatency (ct special : Bool) : Nat := if special && !ct then 3 else 10

end Sys2Proof.Machine
end

