-- ==== Sys2Proof/Config.lean ====
section
/-! DEFINITION. What the spec leaves open or an implementation fixes: opaque constants, so that no proof
can rest on a value of them. Each one's assumption-log entry is named beside it. -/

namespace Sys2Proof.Config

/-- The source of free values: value number `n` of this machine's run (log entry 3). -/
opaque freeValue : Nat → Nat

/-- The Ed25519 check of R350 over key, message and signature: the spec names the scheme and does not
define it (log entry 40). -/
opaque ed25519 : List Byte → List Byte → List Byte → Bool

/-- The check of a firmware patch image (R446): its CRC-32C trailer and Glevon's signature, whose layout and scheme
are not given (log entry 40). -/
opaque patchCheck : List Byte → Bool

/-- The version that a firmware patch image carries (R446): its place in the image is not given (log entry 40). -/
opaque patchVersion : List Byte → U32

/-- The fuses of R488, word by word: their contents are the part's own (log entry 41). -/
opaque fuse : Nat → Word

/-- The ROM version that IDENTIFY, FW_INFO and the banner report (log entry 41). -/
opaque romVersion : U32

/-- Glevon's JEDEC identity code in IDCODE (R489), 11 bits (log entry 41). -/
opaque jedec : BitVec 11

/-- Fabric cycles from the frame's end to the last result beat into hub memory, by container, geode, slot and variant
(R323, STAGE): the spec does not say how they are found (log entry 42). -/
opaque stageTime : List Byte → Nat → Nat → Nat → Nat

end Sys2Proof.Config
end

