-- ==== Sys2Proof/Machine/State.lean ====
section
/-! DEFINITION. The state of the FJ3214 as plain data, its reset, and the reasons a step can stop. Every field's
docstring names the rule that gives it, its width and its reset value; a default written here is that reset
value. Where the spec states none, the value is zero or empty by log entry 1. -/

namespace Sys2Proof.Machine
open Sys2Proof

/-- Why a step stops with a fault. Nothing in this device stops the model: a fault of the device is a state of it
(R450, R468). The one constructor stands for an internal contradiction that no well-formed state reaches. -/
inductive Fault where
  /-- Raised by no meaning today; safe. -/
  | inconsistent
deriving DecidableEq, Repr

/-- Why a step is refused. -/
inductive Refusal where
  /-- A command that has no meaning yet, by its mnemonic; raised by a refused arm of exec alone; safe. -/
  | notModelled (mnemonic : String)
deriving DecidableEq, Repr

/-! ### Landings: what an issued operation has still to write (R65) -/

/-- The non-sticky flags of STAT (R111). -/
inductive FlagId where
  | z | n | c | v | dc
deriving DecidableEq, Repr

/-- The sticky bits of STAT that operations set (R111); `cfg` is CFGERR, set by an MVS write (R517). -/
inductive StickyId where
  | dz | cb | av | cfg
deriving DecidableEq, Repr

/-- Where a window load's words go (R258): a word register, a pair, or words of a vector register. Registers of
class D are named by their physical index (R130). -/
inductive LoadDst where
  | d (p : Nat)
  | dd (lo hi : Nat)
  | v (n : Nat)
  /-- A vector access of several rows, which is counted as off-plan at its issue (R195). -/
  | rows (n : Nat)
  /-- Elements of a gather that page-faulted behind them: each is written as it arrives (R197). -/
  | kept (n : Nat)
deriving DecidableEq, Repr

/-- The record an F28 trap may write into FXPC, FXOP, FXA, FXB and FXC (R217). -/
structure FRec where
  fxpc : IAddr := 0
  fxop : Word := 0
  fxa  : DWord := 0
  fxb  : DWord := 0
  fxc  : DWord := 0
deriving DecidableEq, Repr

/-- One register write on its way. D registers are physical: 0–7 for D0–D7, 8 + i for register i of the window
file (R103, R130). Vector and accumulator writes list the processed elements alone (R180). -/
inductive RegW where
  | d (p : Nat) (v : Word)
  | a (n : Nat) (v : AWord)
  | m (n : Nat) (v : AWord)
  | b (n : Nat) (v : AWord)
  | l (n : Nat) (v : AWord)
  | ac (n : Nat) (v : Acc)
  | acPart (n part : Nat) (v : Word) (wide : Bool)
  | v (n : Nat) (els : List (Nat × Word))
  | va (n : Nat) (els : List (Nat × Acc))
  | vmac (n : Nat) (adds : List (Nat × Int)) (wide sat : Bool)
  | ext (ac : Nat) (cand : Option (Int × Nat)) (isMax wide : Bool)
  | f (n : Nat) (v : DWord)
  | fflags (set : BitVec 5) (subnormal : Bool) (record : FRec)
  | flag (k : FlagId) (v : Bool)
  | sticky (k : StickyId)
  | sys (n : Nat) (v : DWord)
  | vl (v : BitVec 6)
  | vstart (v : BitVec 5)
  | load (rid : Nat) (count : Nat) (dst : LoadDst)
  | page (id : Nat) (tid vpage : Nat)
  | nothing
deriving DecidableEq, Repr

/-- A landing: the advancing cycle at which it lands, and the bundle that issued it (R65). -/
structure Pend where
  due : Nat
  seq : Nat
  w   : RegW
deriving DecidableEq, Repr

/-! ### One level of a signal core, or one context of a Lorner-S core -/

/-- A hardware loop level (R87, R116): LRUN, LHEAD, LTAIL and its LSTAT bit, all 0 at reset. -/
structure LoopLvl where
  run  : Word := 0
  head : IAddr := 0
  tail : IAddr := 0
  act  : Bool := false
  /-- Bubbles that R90 still inserts at the first loop-back decision. -/
  bub  : Nat := 0
deriving DecidableEq, Repr

/-- A delay slot to come (R75): where control continues (none: behind the slot), whether it is annulled, the
window move that CALLO or RETO makes behind it (R130), the bubbles that follow it (R102), and the return stack as the
fetched bundles' DC actions leave it in the branch's issue cycle and in the slot's (R81), and the bundles that a redirect from E1
discards when the slot issues (R101; none: no such redirect). -/
structure DSlot where
  cont    : Option IAddr
  annul   : Bool
  window  : BitVec 2
  bubbles : Nat
  fronts  : List (SMap 14 × BitVec 3)
  flush   : Option Nat
deriving DecidableEq, Repr

/-- A REP under way (R95): the repetitions still to issue, and I. -/
structure RepSt where
  left  : Nat
  intr  : Bool
  first : Bool
deriving DecidableEq, Repr

/-- The state of a Lorner-S context (R140). -/
inductive CtxState where
  | stopped | waiting | ready | running | faulted
deriving DecidableEq, Repr

/-- A user decode operation whose micro-operations are still to issue (R242): the operations left, the address
of the bundle, and the address registers and translation table as they stood when it issued. -/
structure MicroSt where
  ops : List Instr
  pc  : IAddr
  a   : SMap 24
  m   : SMap 24
  b   : SMap 24
  l   : SMap 24
  tbl : SMap 14
deriving DecidableEq, Repr

/-- The bank of a level or the registers of a context (R108, R139), and its pipeline state (R69). -/
structure Thread where
  /-- A0–A15, 24 bits (R103); no reset given: 0. -/
  a : SMap 24 := []
  /-- M0–M7, 24 bits (R103); no reset given: 0. -/
  m : SMap 24 := []
  /-- B0–B7, 24 bits (R103); no reset given: 0. -/
  b : SMap 24 := []
  /-- L0–L7, 24 bits (R103); no reset given: 0. -/
  l : SMap 24 := []
  /-- D0–D7 at 0–7 and the 64 physical windowed registers at 8–71, 14 bits (R103, R108); no reset given: 0. -/
  d : SMap 14 := []
  /-- AC0–AC7, 56 bits (R105); no reset given: 0. -/
  ac : SMap 56 := []
  /-- V0–V15, word k of Vn at 32n + k (R177); levels L0 and L1 and every context; no reset given: 0. -/
  v : SMap 14 := []
  /-- VA0–VA3, element k of VAn at 32n + k, 56 bits (R178); no reset given: 0. -/
  va : SMap 56 := []
  /-- F0–F15 of a context, 28 bits (R139); a signal core's file is in Core; no reset given: 0. -/
  f : SMap 28 := []
  /-- FSTAT of a context (R114, R139), reset 0. -/
  fstat : Word := 0
  /-- FXPC, FXOP, FXA, FXB, FXC of a context (R217, R221), reset 0. -/
  frec : FRec := {}
  /-- STAT, 14 bits (R111), reset PB = 1 alone. -/
  stat : Word := 0x0800
  /-- MODE, 14 bits (R112), reset SAT = 1 alone. -/
  mode : Word := 0x0020
  /-- VL, 6 bits (R115), reset 32. -/
  vl : BitVec 6 := 32
  /-- VSTART, 5 bits (R115), reset 0. -/
  vstart : BitVec 5 := 0
  /-- Hardware loop level 0 (R116), reset 0. -/
  loop0 : LoopLvl := {}
  /-- Hardware loop level 1 (R116), reset 0. -/
  loop1 : LoopLvl := {}
  /-- REPC, 14 bits (R116), reset 0. -/
  repc : Word := 0
  /-- WSTAT.RES, 2 bits (R116), reset 0. -/
  res : BitVec 2 := 0
  /-- WSTAT.WPOS, 2 bits (R116), reset 0. -/
  wpos : BitVec 2 := 0
  /-- The return stack's eight 14-bit entries (R81), reset 0x0000 (R85). -/
  rstk : SMap 14 := []
  /-- The return stack's pointer, 3 bits (R81), reset 0 (R85). -/
  rsp : BitVec 3 := 0
  /-- XPC, 14 bits (R117), reset 0; level L3 and contexts. -/
  xpc : IAddr := 0
  /-- XCONT, 14 bits (R117), reset 0. -/
  xcont : IAddr := 0
  /-- XREPC, 14 bits (R117), reset 0. -/
  xrepc : Word := 0
  /-- XCAUSE, 14 bits (R117), reset 0. -/
  xcause : Word := 0
  /-- XADDR, 28 bits (R117), reset 0. -/
  xaddr : DWord := 0
  /-- SPBASE of the level or context, 17 bits (R122, R139), reset 0. -/
  spbase : BitVec 17 := 0
  /-- SPP, 17 bits (R122), reset 0. -/
  spp : BitVec 17 := 0
  /-- SPLIM, 17 bits (R122), reset 0. -/
  splim : BitVec 17 := 0
  /-- FSAVE of the level, 16 bits (R122), reset 0. -/
  fsave : BitVec 16 := 0
  /-- TCTL.STATE of a context (R140), reset stopped. -/
  tstate : CtxState := .stopped
  /-- Where TSTART last started the context (R236, R467), reset 0. -/
  entry : IAddr := 0
  /-- TCTL.PRI of a context, 2 bits (R140), reset 0. -/
  pri : BitVec 2 := 0
  /-- TSTOP has named this context while it runs; it stops at its next dispatch point (R236). -/
  stopReq : Bool := false
  /-- The bench monitor holds this context (R483, R485), reset no. -/
  held : Bool := false
  /-- Address of the level's next bundle (R69); start address at reset 0. -/
  pc : IAddr := 0
  /-- The delay slot to come (R75). -/
  dslot : Option DSlot := none
  /-- The REP under way (R95). -/
  rep : Option RepSt := none
  /-- The advancing cycle at which the level's next bundle issues (R64). -/
  adv : Nat := 0
  /-- Bundles issued, which orders landings (R65). -/
  seq : Nat := 0
  /-- Results on their way (R65, R69). -/
  flight : List Pend := []
  /-- The return buffer: request, element and word of window-load data that has arrived (R69, R258). -/
  retbuf : List (Nat × Nat × Word) := []
  /-- An F28 trap that has fallen due, by its code (R216). -/
  trapDue : Option (BitVec 6) := none
  /-- Sequential flow has left instruction memory behind address 0x3FFF (R59). -/
  past : Bool := false
  /-- A user decode operation under way (R242). -/
  micro : Option MicroSt := none
deriving DecidableEq, Repr

/-! ### A Lorner core -/

/-- What a core is (R3, R139). -/
inductive CoreKind where
  | signal | supervisor | hub
deriving DecidableEq, Repr

/-- The levels a signal core can run (R107), or no level at all (R124). -/
inductive Running where
  | idle
  | lvl (n : Nat)
deriving DecidableEq, Repr

/-- A result the integer divider or the F28 divide and square-root unit owes (R57, R68): the thread and bundle it
belongs to, its latency in core cycles, and its writes. -/
structure UnitPend where
  tid : Nat
  seq : Nat
  lat : Nat
  ws  : List RegW
deriving DecidableEq, Repr

/-- What a store-buffer entry holds (R273): the words of one row of shared memory, words for a device-global
target, a SIGNAL marker, or (on the hub) words for hub memory. -/
inductive SbKind where
  | shm (ws : List (Nat × Word))
  | glb (ws : List (Nat × Word))
  | signal (u : BitVec 3)
deriving DecidableEq, Repr

/-- A store-buffer entry with its place in the core's issue order (R273). -/
structure SbEntry where
  id   : Nat
  kind : SbKind
deriving DecidableEq, Repr

/-- Why a bundle stalls in RD (R67). -/
inductive Stall where
  | divider
  | fdivider
  | vectorWake
  | lazyF
  | loadData
  | requests
  | storeBuffer
deriving DecidableEq, Repr

/-- Why a core has stopped for good (R135, R271). -/
inductive StopCause where
  | doubleFault
  | ecc
  | halted
deriving DecidableEq, Repr

/-- A memory with ECC (R269): its words, and the addresses whose word holds one wrong bit or an uncorrectable
error. The words are those a corrected read delivers, or, where the error is uncorrectable, those stored. -/
structure EMem (w : Nat) where
  cells : SMap w := []
  corr  : List Nat := []
  unc   : List Nat := []
deriving DecidableEq, Repr

/-- Who asks for a bank (R255): a signal core, the supervisor, the DMA engine or the lane quad. -/
inductive Requester where
  | core (c : Nat)
  | sup
  | dma
  | quad
deriving DecidableEq, Repr

/-- A load request that waits in the fabric (R256): its number in the core's issue order, requester, thread, load,
and (element, offset) pairs in one row. -/
structure MemReq where
  id   : Nat
  by_  : Requester
  tid  : Nat
  rid  : Nat
  offs : List (Nat × Nat)
deriving DecidableEq, Repr

/-- The errors of a table with ECC (R269): the addresses whose word holds one wrong bit or an uncorrectable error. -/
structure EccMarks where
  corr : List Nat := []
  unc  : List Nat := []
deriving DecidableEq, Repr

/-- A Lorner core: a signal core with four levels, a supervisor with 8 contexts or the hub with 64 (R22, R139). -/
structure Core where
  kind : CoreKind
  /-- Levels L0–L3, or the contexts (R108, R139). -/
  threads : List Thread
  /-- X memory, 64 KiW (R245), 0 after the power-up reset (R269). -/
  x : EMem 14 := {}
  /-- Y memory, 64 KiW (R245), 0 after the power-up reset. -/
  y : EMem 14 := {}
  /-- Instruction memory, 16 Ki syllables (R60), 0 after the power-up reset. -/
  imem : EMem 28 := {}
  /-- The shared F file F0–F15, 28 bits (R103); no reset given: 0. -/
  f : SMap 28 := []
  /-- FSTAT of a signal core (R114), reset 0. -/
  fstat : Word := 0
  /-- FXPC, FXOP, FXA, FXB, FXC (R217), reset 0. -/
  frec : FRec := {}
  /-- CORECTL.SVC (R120), reset 0. -/
  svc : Bool := false
  /-- A frame's first beacon has reached the core, and the frame-end checkpoint of R322, the WAITE at level L1, has not been
  reached since (R41, R325): the supervisor's record, at reset none. -/
  checkpointDue : Bool := false
  /-- CORECTL.DF (R120), reset 0. -/
  df : Bool := false
  /-- CORECTL.VPIN (R120), reset 0. -/
  vpin : Bool := false
  /-- CORECTL.FOWN, 2 bits (R120), reset 0. -/
  fown : Nat := 0
  /-- CORECTL.FOWNV (R120), reset 0. -/
  fownv : Bool := false
  /-- The level or context that runs (CORECTL.RUN, R120; R141); at reset none. -/
  run : Running := .idle
  /-- What CORECTL.RUN shows, 2 bits (R120), reset 0: the level last run. -/
  runShown : Nat := 0
  /-- CORECTL.L3ACT (R120), reset 0. -/
  l3act : Bool := false
  /-- CORECTL.L2ACT (R120), reset 0. -/
  l2act : Bool := false
  /-- CORECTL.L1ST (R120), reset 0. -/
  l1st : Bool := false
  /-- CORECTL.L0ST (R120), reset 0. -/
  l0st : Bool := false
  /-- CORECTL.L1W (R120), reset 0. -/
  l1w : Bool := false
  /-- CORECTL.L0W (R120), reset 0. -/
  l0w : Bool := false
  /-- EVCFG words (R121, R142), 14 bits; reset LVL = 10 on a signal core, 0 on a Lorner-S core: held as the
  exclusive OR with that value. -/
  evcfg : SMap 14 := []
  /-- EVPEND, one bit per line (R121, R235), reset 0. -/
  evpend : BitVec 128 := 0
  /-- L2VEC, 14 bits (R121), reset 0. -/
  l2vec : IAddr := 0
  /-- EXVEC, 14 bits (R121), reset 0. -/
  exvec : IAddr := 0
  /-- TMR, 14 bits (R121), reset 0. -/
  tmr : Word := 0
  /-- L0WIN, 28 bits (R122), reset 0. -/
  l0win : DWord := 0
  /-- The L0 window is open (R125); at reset closed. -/
  l0open : Bool := false
  /-- XCTX, 6 bits (R143), reset 0. -/
  xctx : Nat := 0
  /-- The user decode table, 416 words (R241); after a core reset every V is 0 (R243). -/
  udt : SMap 14 := []
  /-- Errors in its words (R269), at reset none. -/
  udtE : EccMarks := {}
  /-- UDTSTAT, 14 bits (R244), reset 0. -/
  udtstat : Word := 0
  /-- The 1,024 direction counters (R79), reset 1 (R85): held as the exclusive OR with 1. -/
  dirctr : SMap 2 := []
  /-- The translation tables (R262): entry v of thread t at 1024t + v, reset 0 (R263). -/
  tbl : SMap 14 := []
  /-- Errors in their words (R269), at reset none. -/
  tblE : EccMarks := {}
  /-- The vector unit is powered (R182), reset down. -/
  vpow : Bool := false
  /-- A vector unit wake is under way (R183), reset no. -/
  vwaking : Bool := false
  /-- The integer divider's owed result (R57), at reset none. -/
  divu : Option UnitPend := none
  /-- The F28 divide and square-root unit's owed result (R57), at reset none. -/
  fdivu : Option UnitPend := none
  /-- The store buffer, oldest entry first, 4 entries (R273), at reset empty. -/
  sb : List SbEntry := []
  /-- The thread whose entries the buffer holds beyond the fourth, while it does (R273). -/
  sbTid : Nat := 0
  /-- Requests beyond the eighth of a bundle, which leave the core as earlier ones are served, oldest first; with each,
  whether it goes to the device-global window (R256); at reset none. -/
  lateReqs : List (Bool × MemReq) := []
  /-- Next number for requests, store-buffer entries and page requests of the core. -/
  nextId : Nat := 0
  /-- Window-load data on its way back: thread, request, element, word (R258). -/
  inbox : List (Nat × Nat × Nat × Word) := []
  /-- Pages whose PFREE has landed and whose drain marker is to be sent (R267). -/
  markOut : List Nat := []
  /-- Page-request decisions on their way back: number, entry, Z, V (R265). -/
  pageRes : List (Nat × Word × Bool × Bool) := []
  /-- The operations of the bundle being put together, in the order of R61. -/
  asm : List Instr := []
  /-- Operations of a bundle at whose beginning an event dispatch is due: it issues only to raise a precise exception
  (R72); at reset none. -/
  ghost : List Instr := []
  /-- The stall a waiting bundle is in (R67). -/
  stall : Option Stall := none
  /-- A selection has been made whose first bundle has not issued (R127). -/
  fresh : Bool := false
  /-- A reset holds the core until it is loaded or released (R452, R456); a core is halted at reset. -/
  halted : Bool := true
  /-- The bench monitor holds the core (R485), at reset no; bundles that STEP has still to issue (R483), none outside
  STEP. -/
  held : Bool := false
  stepLeft : Option Nat := none
  /-- The core has stopped on a double fault or an uncorrectable error (R135, R271), or a Lorner-S core has
  halted (R143). -/
  stop : Option StopCause := none
  /-- The attention line to the supervisor is raised (R135, R271). -/
  attn : Bool := false
  /-- Breakpoints 0 and 1 (R483). -/
  brk0 : Option IAddr := none
  brk1 : Option IAddr := none
  /-- The breakpoint that halted the core has been passed by RUN or STEP (R485). -/
  brkPass : Bool := false
  /-- Beacons sent to this core and not yet arrived (R31, R46). -/
  beacons : List U32 := []
  /-- Core cycles that this core has counted for its bundles, bubbles, level switches and stalls (R6). -/
  cycles : Nat := 0
  /-- The core's performance counters BUNDLES_ISSUED, BUNDLES_FLUSHED, VWAKE, OFFPLAN_ACC, OFFPLAN_STALL, 48 bits,
  and error counters ECC_CORR, ECC_UNCORR, 16 bits (R473, R475), reset 0. -/
  issued   : Nat := 0
  flushed  : Nat := 0
  vwakes   : Nat := 0
  offAcc   : Nat := 0
  offStall : Nat := 0
  eccCorr  : Nat := 0
  eccUnc   : Nat := 0
  /-- Their capture at the last beacon event (R46). -/
  snap : List Nat := []
  /-- Where background scrubbing of X, Y and instruction memory stands (R272). -/
  scrubX : Nat := 0
  scrubY : Nat := 0
  scrubI : Nat := 0
deriving DecidableEq, Repr

/-! ### DMA (chapter 9) -/

/-- STATE of a channel (R282). -/
inductive ChState where
  | idle | running | waiting | halted | stopped | blocked
deriving DecidableEq, Repr

/-- The space a pointer of a channel points into (R288): CORE with its slot. -/
inductive DmaSpace where
  | shm
  | core (slot : Nat)
  | glb
  | dl
  | hub
  | host
deriving DecidableEq, Repr

/-- A record that a channel owes (R300–R302): KIND, TAG or CAUSE, A and B, and whether it fell inside a MOVE. -/
structure ChRec where
  kind : BitVec 4
  tag  : Word
  a    : Nat
  b    : Nat
  mv   : Bool
  fl   : Bool := false
  ds   : Bool := false
deriving DecidableEq, Repr

/-- A MOVE under way (R287): the source units consumed and the data beats done. -/
structure MoveSt where
  done : Nat := 0
  beat : Nat := 0
deriving DecidableEq, Repr

/-- A read of host memory that a channel has sent and whose data has not gone through its holding register (R295): the
source units it fetches, its beat's index, and its completion once that has come. -/
structure HostRd where
  take : Nat
  beat : Nat
  got  : Option HostRead := none
deriving DecidableEq, Repr

/-- A DMA channel (R279, R282, R289, R291, R298). Words of the CCB that the engine reads only at START are kept
here from that START on; the CCB itself is memory. Every field is 0, none or empty after a reset. -/
structure Chan where
  state  : ChState := .idle
  pri    : BitVec 2 := 0
  cqloc  : Bool := false
  fn     : BitVec 3 := 0
  pbase  : DWord := 0
  plen   : Word := 0
  budget : DWord := 0
  cqbase : DWord := 0
  cqlen  : Word := 0
  cqhead : Word := 0
  cqtail : Word := 0
  hbase  : BitVec 37 := 0
  hqoff  : DWord := 0
  phase  : Bool := false
  pc     : Nat := 0
  bused  : Nat := 0
  hold   : BitVec 64 := 0
  nbits  : Nat := 0
  done   : Nat := 0
  err    : BitVec 4 := 0
  latch  : BitVec 9 := 0
  loops  : List (Nat × Nat) := []
  instr  : Option (List DWord) := none
  move   : Option MoveSt := none
  sptr   : BitVec 64 := 0
  dptr   : BitVec 64 := 0
  sspace : DmaSpace := .shm
  dspace : DmaSpace := .shm
  owes   : Option ChRec := none
  thenSt : ChState := .stopped
  ecc    : Bool := false
  reads  : List HostRd := []
  /-- A DISABLE stops the channel once its reads are back (R308). -/
  stopDue : Bool := false
deriving DecidableEq, Repr

/-! ### A geode's fabric (chapters 1, 8, 10) -/

/-- A page request that waits at the allocator (R265, R266). -/
structure PageReq where
  id    : Nat
  core  : Nat
  tid   : Nat
  a1    : Bool
  alloc : Bool
  vpage : Nat
deriving DecidableEq, Repr

/-- A drain marker (R267): its core, the page that waits for it, and the store-buffer entry and request numbers
that it stands behind. -/
structure Marker where
  core : Nat
  page : Nat
  upTo : Nat
deriving DecidableEq, Repr

/-- An eclipse that the supervisor handles (R44, R464): role slot, physical core, the beacon period of
detection, whether the image copy is complete, the takeover beacon, and the variant it asks for. -/
structure Eclipse where
  slot     : Nat
  core     : Nat
  period   : U32
  copied   : Bool
  takeover : Option U32
  varFrom  : U32
deriving DecidableEq, Repr

/-- A geode (R22): shared memory, fabric, allocator, DMA engine and what its supervisor keeps. -/
structure Geode where
  /-- Shared memory, 2 MiW (R254), 0 after reset. -/
  mem : EMem 14 := {}
  /-- Column counter, 4 bits (R255), reset 0. -/
  column : BitVec 4 := 0
  /-- BST and BSTN, 256 owner codes each (R261), reset 0xF: held as the exclusive OR with 0xF. -/
  bst : SMap 4 := []
  bstn : SMap 4 := []
  /-- Errors in their words (R269): BST at 0–255, BSTN at 256–511; at reset none. -/
  bstE : EccMarks := {}
  /-- Writes that the core control ports of the geode have refused, each answered so to the supervisor (R249). -/
  portRefusals : Nat := 0
  /-- SHMSTAT.CFGERR, UNC, OFFP (R261), reset 0; ZBUSY and FREE follow from the allocator's state. -/
  cfgerr : Bool := false
  unc : Bool := false
  offp : Bool := false
  /-- The role map: physical core of role slots 0–7 (R255); at reset slot i is core i (log entry 12). -/
  role : List Nat := [0, 1, 2, 3, 4, 5, 6, 7]
  /-- The physical core that is the spare (R42, R464), none: no spare is available. -/
  spare : Option Nat := some 8
  /-- Load requests that wait for a bank, oldest first (R256). -/
  reqs : List MemReq := []
  /-- Device-global requests that pass through this fabric, oldest first (R260). -/
  greqs : List MemReq := []
  /-- Whose turn comes next in the round-robin of free slots (R256). -/
  rr : Nat := 0
  /-- The allocator's master copy (R266): entry v of table t of core c at ((8c + t) · 1024) + v, core 9 being the
  supervisor; reset: virtual page 0 of every supervisor context maps physical page 0 (R281). -/
  master : SMap 14 := []
  /-- The pool of zeroed pages, ascending (R261), reset empty: FREE is 0. -/
  pool : List Nat := []
  /-- Pages that no table maps any more, on their way to the pool (R267). -/
  zeroing : List Nat := []
  /-- Pages whose removal from a table has a drain marker still to arrive, once for each marker (R267). -/
  owed : List Nat := []
  /-- Page requests that wait at the allocator, oldest first (R266). -/
  pageReqs : List PageReq := []
  /-- Drain markers on their way (R267). -/
  markers : List Marker := []
  /-- The 16 channels (R279). -/
  chans : List Chan := List.replicate 16 {}
  /-- The channel served last, for each priority's round-robin (R296). -/
  lastCh : List Nat := [15, 15, 15, 15]
  /-- Beacons sent to this geode and not yet arrived (R31). -/
  beacons : List U32 := []
  /-- Number of the last beacon that arrived here; none before the first (R31). -/
  beacon : Option U32 := none
  /-- The slot of the lode whose role images the geode runs (R331), none outside service. -/
  lodeSlot : Option Nat := none
  /-- The current variant code (R333), reset 0. -/
  variant : Byte := 0
  /-- The variants that lane eclipses ask for, with their first beacons and (once known) their ends (R334). -/
  laneVar : List (Byte × U32 × Option U32) := []
  /-- The control page's physical page, while a job holds the geode (R331, R333). -/
  ctlPage : Option Nat := none
  /-- Physical pages of the lode page indices 1 to STATIC (R317, R331). -/
  statics : List Nat := []
  /-- The eclipse in hand (R464). -/
  eclipse : Option Eclipse := none
  /-- Role slots that run without a core until release, with the beacon from which the slot's variant runs (R334, R336). -/
  lost : List (Nat × U32) := []
  /-- Cores that are eclipsed and wait for self-test, and cores that are retired (R464, R465). -/
  eclipsed : List Nat := []
  retired : List Nat := []
  /-- Device times, in ticks of the log's clock, of each core's last eclipse (R465). -/
  lastEclipse : List (Nat × Nat) := []
  /-- The hub's mailbox messages that have reached the supervisor, oldest first (R40). -/
  mailbox : List MailMsg := []
  /-- The geode is faulted until the next device reset (R455, R466). -/
  faulted : Bool := false
  /-- A geode reset is under way (R456). -/
  inReset : Bool := false
  /-- Device time of the last reset that followed a supervisor halt (R466). -/
  lastHalt : Option Nat := none
  /-- The supervisor has halted and the hub has not yet reset the geode (R466). -/
  supHalted : Bool := false
  /-- Fabric counters ECC_CORR, ECC_UNCORR, SCRUB_PASSES, DMA_BEATS, WDOG_MISS, ECLIPSES (R475), reset 0. -/
  eccCorr : Nat := 0
  eccUnc : Nat := 0
  scrubPasses : Nat := 0
  dmaBeats : Nat := 0
  wdogMiss : Nat := 0
  eclipses : Nat := 0
  /-- Where shared-memory scrubbing stands (R272), and its row. -/
  scrub : Nat := 0
  /-- Snapshot of the geode's counters with its beacon (R46, R474). -/
  snap : Option (U32 × List Nat) := none
deriving DecidableEq, Repr

/-! ### Lanes, modules and calibration (chapters 11, 12) -/

/-- The state of a module (R373). -/
inductive ModState where
  | absent | reading | refused | waiting | training | live | eclipsed | retraining
deriving DecidableEq, Repr

/-- A control message that waits for its acknowledgment (R367, R368). -/
structure CtlMsg where
  cseq : BitVec 12
  cmd  : Byte
  arg  : U16
  sent : Nat
deriving DecidableEq, Repr

/-- The source of an estimate record (R396). -/
inductive EstSource where
  | seed | solved | tracked
deriving DecidableEq, Repr

/-- A position's estimate record (R396): source, d, SRESP, Hr as real and imaginary F28 values, device time and
module temperature. -/
structure EstRec where
  source : EstSource
  d      : BitVec 32
  sresp  : List Word
  hr     : List (DWord × DWord)
  time   : DTime
  temp   : U16
deriving DecidableEq, Repr

/-- The last block placed of a lane (R353, R354, R364): its number, SEQ, MARK, OFFS and the time of its sample 0. -/
structure LaneBlock where
  num  : Nat
  seq  : BitVec 14
  mark : Byte
  offs : Nat
  time : Int
deriving DecidableEq, Repr

/-- Samples of a missing block that lie in one frame: the frame, the first of them within the block, and how many. -/
structure MissRun where
  frame : U32
  first : Nat
  count : Nat
deriving DecidableEq, Repr

/-- A bound stream (R357, R360, R399–R411): its job and binding, its place in the ring, its gap run, its over-rate
credits, and its calibration. Every field is 0, none or empty when the stream is bound, unless its line says. -/
structure Stream where
  job      : U16
  bidx     : Nat
  bind     : Binding
  /-- The newest block that gives the stream its times, once block 0 is known: its number, TXT of its mark in 2⁻⁵⁶ s and
  its OFFS (R364), on a device link t(BCN) and 0; the samples of block 0 that lie before the job's first frame (R360); and
  the span lane of block 0 (R356). -/
  anchor   : Option (Nat × Int × Nat) := none
  off0     : Nat := 0
  lane0    : Nat := 0
  /-- The block expected next on each lane of the span (R356), or of the device link at 0; and the device link's
  blocks that have arrived ahead of it (R386). -/
  nextJ    : List Nat := [0, 0, 0, 0]
  early    : List Nat := []
  /-- The last block of each lane; none before its first, and after an eclipse or a wake. -/
  last     : List (Option LaneBlock) := List.replicate 4 none
  /-- Blocks below this one were missing or present at their deadline (R361). -/
  lateTo   : Nat := 0
  /-- The next block in sample order of which it is not yet known whether it is missing, and the blocks from it on of which
  it is: of those that are missing, the cause and the samples (R360, R362). -/
  base     : Nat := 0
  known    : List (Nat × Option (Byte × List MissRun)) := []
  /-- A run of missing samples: frame, cause, first sample, count (R362). -/
  gap      : Option (U32 × Byte × Nat × Nat) := none
  /-- Over-rate credit of each lane of the span (R359) in units of 1 ÷ (n × 3,600,000 × 2⁸⁰), and the device time it
  was brought up to; empty before the first frame. -/
  credits  : List (Nat × Nat) := []
  /-- CALHDR.LIT: set B is lit (R399). -/
  lit      : Bool := false
  /-- The shadow is VALID (R404). -/
  valid    : Bool := false
  /-- The geode's correction descriptor (R401): FORM, LOG2NFFT, B0, NB, TAPS. -/
  form     : Nat := 0
  log2n    : Nat := 0
  bin0     : Nat := 0
  nb       : Nat := 0
  taps     : Nat := 0
  /-- The beacon at which a set stopped being lit (R404). -/
  unlit    : Option U32 := none
  /-- CALHDR.HELD and CAUSE, a hold detected and not yet shown, and beacon h (R407, R408). -/
  held     : Bool := false
  cause    : BitVec 3 := 0
  holdDue  : Option (BitVec 3) := none
  heldAt   : U32 := 0
  /-- The exit count of R410 may run. -/
  cleared  : Bool := true
  /-- CALHDR.STALE (R411), and whether CAL_STALE is logged for this hold. -/
  stale    : Bool := false
  staleLog : Bool := false
  /-- Estimates in the average, and the fill run of R394. -/
  avg      : Nat := 0
  fill     : Nat := 0
  /-- Consecutive rejected epochs, epochs with PNR below 6 dB, and blocks with CALV = 0 (R407). -/
  rejects  : Nat := 0
  lowPnr   : Nat := 0
  noCalv   : Nat := 0
deriving DecidableEq, Repr

/-- One lane position with its module (R356, R373, R378). -/
structure Pos where
  mod      : ModState := .absent
  /-- MRST_N is asserted (R372), reset asserted (R511). -/
  mrst     : Bool := true
  /-- MPRES_N as accepted: present (R373). -/
  present  : Bool := false
  /-- The assay record as read, and the refusal reason (R376, R377). -/
  record   : List Byte := []
  reason   : Byte := 0
  /-- LCFG: RMAX, LR, EN (R378), reset 00, 0, 1. -/
  rmax     : BitVec 2 := 0
  lr       : Bool := false
  en       : Bool := true
  /-- LSTAT: RATE, STATE, BOND, EARLY, RXSIG (R378), reset 11, 000, 11, 0, 0. -/
  rate     : BitVec 2 := 3
  lstate   : BitVec 3 := 0
  bond     : BitVec 2 := 3
  early    : Bool := false
  rxsig    : Bool := false
  /-- The rate of the next attempt, framing in the open window, and failed attempts (R370, R380). -/
  trial    : BitVec 2 := 0
  framed   : Bool := false
  runAck   : Bool := false
  tries    : Nat := 0
  /-- Rate held before an eclipse (R380). -/
  oldRate  : BitVec 2 := 3
  /-- CRC and SERIAL of the record before an eclipse's re-read, and that the re-read is due (R380). -/
  reread   : Bool := false
  changed  : Bool := false
  /-- SEQ expected next (R353), consecutive uncorrectable codewords (R379). -/
  seqNext  : Option (BitVec 14) := none
  badRun   : Nat := 0
  /-- The last four time marks sent: identifier and TXT (R363). -/
  marks    : List (Byte × DTime) := []
  /-- The control message under way, messages behind it, and CSEQ (R367, R368). -/
  ctl      : Option CtlMsg := none
  ctlQ     : List CtlMsg := []
  cseq     : BitVec 12 := 0
  /-- The stimulus generator: state and phase (R388, R389); reset state of phase 0. -/
  lfsr     : BitVec 23 := 0x7FFFFF
  phase    : BitVec 23 := 0
  /-- Injection is enabled, and its level in dB (R390, R391). -/
  inject   : Bool := false
  level    : Byte := 60
  /-- The stream bound here (R357). -/
  stream   : Option Stream := none
  /-- The estimate record (R396). -/
  est      : Option EstRec := none
  /-- A start-up or position solve is requested or runs (R413, R414), with its estimates. -/
  solveReq : Bool := false
  solving  : Option Nat := none
  solvePages : List Nat := []
  solveNext : Nat := 0
  /-- Die temperatures of the last second (R403): device time in 2⁻⁵⁶ s, and TVAL. -/
  temps    : List (Nat × Int) := []
  /-- The module's last status item, TVAL of TSEL 0x1 (R354): bit 0 sample clock locked, bit 1 injection active. -/
  modStatus : BitVec 12 := 0
  /-- The span lane that the next stimulus codeword takes (R365, R389). -/
  outLane  : Nat := 0
  /-- The lane's counters in the order of R475, reset 0. -/
  ctrs     : List Nat := List.replicate 12 0
deriving DecidableEq, Repr

/-- A lane quad (R378, R383–R386). -/
structure Quad where
  /-- QCTL.DLINK (R378), reset 0, and the mode in effect. -/
  dlink    : Bool := false
  dlMode   : Bool := false
  /-- QSTAT: CFGERR, ALERT, I2CF, DLUP (R378), reset 0. -/
  cfgerr   : Bool := false
  alert    : Bool := false
  i2cf     : Bool := false
  dlup     : Bool := false
  /-- The sideband bus makes no further transfer (R374). -/
  busStopped : Bool := false
  /-- Passes of a stuck alert line, and that the line is ignored (R375). -/
  alertPasses : Nat := 0
  alertIgnored : Bool := false
  /-- Transmit buffers and SEQ of the logical channels (R385). -/
  tx       : List (List Word) := List.replicate 16 []
  txSeq    : List (BitVec 14) := List.replicate 16 0
  /-- Beacon number when the first word of each buffer was written (R384). -/
  txBcn    : List U32 := List.replicate 16 0
  /-- SEQ expected from the peer per logical channel (R386). -/
  rxSeq    : List (Option (BitVec 14)) := List.replicate 16 none
  /-- Bound device-link streams by logical channel (R357, R386). -/
  streams  : List (Option Stream) := List.replicate 16 none
  /-- DL_DISCARD, DL_BCN (R475), reset 0. -/
  dlDiscard : Nat := 0
  dlBcn    : Nat := 0
  /-- The lane's windows so far (R370). -/
  windows  : Nat := 0
deriving DecidableEq, Repr

/-! ### The hub (chapters 9, 10, 13, 14) -/

/-- An entry of the error log (R470). -/
structure LogEntry where
  seq    : U32
  kind   : U16
  fn     : Byte
  job    : U16
  geode  : Byte
  unit   : Byte
  count  : Nat
  beacon : U32
  a      : U32
  b      : U32
  time   : DTime
  readable : Bool
deriving DecidableEq, Repr

/-- The state of a lode slot (R320). -/
inductive SlotState where
  | empty | loading | verified | refused
deriving DecidableEq, Repr

/-- The refusal report of R326. -/
structure Refused where
  claim   : U32
  sect    : U16
  reason  : U16
  geode   : Byte
  slot    : Byte
  variant : Byte
  place   : U32
  claimed : U32
  found   : U32
deriving DecidableEq, Repr

/-- A lode slot (R318–R320). -/
structure LodeSlot where
  state   : SlotState := .empty
  owner   : Nat := 0xFF
  mask    : Byte := 0
  len     : Nat := 0
  bytes   : List Byte := []
  /-- Image pages taken on each geode of the mask (R318). -/
  pages   : List (Nat × List Nat) := []
  report  : Option Refused := none
  /-- The bench monitor loads the slot, by this port (R484). -/
  monitor : Option Port := none
  /-- The LAST chunk's header, whose reply waits for verification (R441). -/
  waiting : Option CmdHdr := none
deriving DecidableEq, Repr

/-- Where a job stands (R443). -/
inductive JobState where
  | admitted | running | draining
deriving DecidableEq, Repr

/-- A staged frame (R346): its number and the records still to post. -/
structure Frame where
  num    : U32
  left   : List (Nat × Nat)
  gen    : U16
deriving DecidableEq, Repr

/-- A mark of a frame (R50, R53): of all results of a geode, or of one binding's. -/
structure FrameMark where
  frame : U32
  geode : Nat
  bidx  : Option Nat
  bits  : Byte
deriving DecidableEq, Repr

/-- A run of missing samples that is to be posted as an input gap record (R362, R438). -/
structure InputGap where
  frame : U32
  cause : Byte
  bidx  : Nat
  geode : Nat
  first : Nat
  count : Nat
deriving DecidableEq, Repr

/-- What a job has to post next (R346, R438): a delivery-late record, an input gap record, a gap record for a range of
frames, a frame's results, or the job-ended record. -/
inductive PostItem where
  | late (frame : U32) (ns : Nat)
  | input (g : InputGap)
  | gap (first : U32) (n : Nat)
  | frame (f : Frame)
  | ended
deriving DecidableEq, Repr

/-- A record that is being posted (R345): what it is, the kind and the payload that its header and bytes hold, and the
bytes that have left in TLPs. -/
structure Posting where
  item    : PostItem
  kind    : Nat
  payload : List Byte
  sent    : Nat
deriving DecidableEq, Repr

/-- An admitted job (R330, R338, R406, R443, R458). -/
structure Job where
  id       : U16
  fn       : Nat
  slot     : Nat
  vec      : Byte
  /-- Physical geodes; the i-th is lode geode i (R318). -/
  geodes   : List Nat
  state    : JobState := .admitted
  openEnd  : Bool
  /-- S′, the first frame's beacon, and E (R330). -/
  start    : U32
  first    : U32
  last     : U32
  bindings : List Binding
  /-- K, YF, BP, staging in KiW and depth DS (R315, R338). -/
  k        : Nat
  yf       : Nat
  bp       : Nat
  kiw      : Nat
  ds       : Nat
  /-- The staging ring of each of the job's geodes in hub memory (R338, R346): its first word and the words of a slot. -/
  stage    : List (Nat × Nat) := []
  /-- The generation, that of the frame now open, the next swap and its spacing U (R403, R406), DREF in units of 50 fs
  (R402), and the decision of the swap at a beacon (R405). -/
  gen      : U16 := 0
  genOpen  : U16 := 0
  nextSwap : Option U32 := none
  swapU    : Nat := 64
  dref     : Option Int := none
  swapDec  : Option (U32 × Bool) := none
  /-- Staged frames, frames replaced by gap records as ranges, input gap records to post, and marks (R346, R362). -/
  frames   : List Frame := []
  gaps     : List (U32 × Nat) := []
  inputGaps : List InputGap := []
  marks    : List FrameMark := []
  /-- Allowance in bytes × 10⁶ × 2⁵⁶ and the time it was brought up to (R345). -/
  allow    : Nat := 0
  allowAt  : Nat := 0
  /-- Frames posted, replaced by gap records, late (R443), and the last frame fully posted (R458). -/
  posted   : Nat := 0
  gapped   : Nat := 0
  late     : Nat := 0
  lastPost : Option U32 := none
  /-- Delivery-late records that follow: frame and lateness (R347). -/
  lateDue  : List (U32 × Nat) := []
  /-- The record under way (R345). -/
  post     : Option Posting := none
  /-- Cause of the job-ended record, the release beacon, the geodes released so far, and that no record of the job is
  to be written any more (R332, R438, R448). -/
  cause    : Byte := 0
  releaseAt : Option U32 := none
  done     : List Nat := []
  discard  : Bool := false
  /-- The beacon from which frames are suspended, and that at which they resume (R459–R461). -/
  suspendAt : Option U32 := none
  resumeAt : Option U32 := none
deriving DecidableEq, Repr

/-- A function's share (R339); `whole`: the device capacity, whatever the link's capacity is. -/
structure Share where
  geodes  : Nat := 0
  posting : Nat := 0
  staging : Nat := 0
  whole   : Bool := false
deriving DecidableEq, Repr

/-- A command that the hub has fetched and not yet answered (R441, R458). -/
structure Fetched where
  opcode  : U16
  off     : Nat
  hdr     : CmdHdr
  payload : List Byte
deriving DecidableEq, Repr

/-- An entry that the hub writes into a reply ring (R434). -/
structure Entry where
  status  : U16
  tag     : U16
  job     : U16
  type    : Byte
  payload : List Byte
  vec     : Byte
deriving DecidableEq, Repr

/-- A PCI Express function (R424, R426). -/
structure Fn where
  /-- FNCTL.CREN, RREN (R426), reset 0. -/
  cren   : Bool := false
  rren   : Bool := false
  /-- FNSTAT.CFGERR, GAP, LATE, RRFULL, CRSTOP (R426), reset 0. -/
  cfgerr : Bool := false
  gap    : Bool := false
  late   : Bool := false
  rrfull : Bool := false
  crstop : Bool := false
  /-- IRQMOD.TIME, COUNT (R426), reset 0 and 1. -/
  irqTime  : U16 := 0
  irqCount : U16 := 1
  /-- CRBASE, CRSIZE.LOG2, CRTAIL, CRHEAD (R426), reset 0, 16, 0, 0. -/
  crbase : U64 := 0
  crlog2 : BitVec 5 := 16
  crtail : BitVec 24 := 0
  crhead : BitVec 24 := 0
  /-- RRBASE, RRSIZE.LOG2, RRHEAD, RRTAIL (R426), reset 0, 16, 0, 0. -/
  rrbase : U64 := 0
  rrlog2 : BitVec 5 := 16
  rrhead : BitVec 24 := 0
  rrtail : BitVec 24 := 0
  /-- The MSI-X table and PBA words (R419, R426), by word index from 0x1000; the vector control words reset to 1
  (log entry 46) and are held as the exclusive OR with 1, every other word resets to 0. -/
  msix   : SMap 32 := []
  /-- Records not yet signalled, by vector (R429). -/
  unsig  : List (Nat × Nat) := []
  /-- The function is in D3hot (R423). -/
  d3     : Bool := false
  /-- Fetched commands not yet answered (R441), and entries that wait for ring space (R436). -/
  fetched : List Fetched := []
  waitq  : List Entry := []
  /-- CMD_MALFORMED (R440, R475), reset 0. -/
  malformed : Nat := 0
  /-- An FLR's step 3 is due at the next beacon (R448). -/
  flr    : Bool := false
deriving DecidableEq, Repr

/-- The state of the firmware patch (R446). -/
structure Patch where
  state   : Nat := 0
  version : U32 := 0
  bytes   : List Byte := []
  len     : Nat := 0
  loading : Bool := false
deriving DecidableEq, Repr

/-- The hub's own state beside its core (R40). -/
structure Hub where
  /-- Hub memory, 512 KiW (R245), 0 after the power-up reset. -/
  mem : EMem 14 := {}
  /-- The 32 channels of the host engine (R279), and the one served last of each priority (R296). -/
  chans : List Chan := List.replicate 32 {}
  lastCh : List Nat := [31, 31, 31, 31]
  /-- The error log, oldest first, and its next sequence number (R470). -/
  log : List LogEntry := []
  logSeq : U32 := 0
  /-- Lode slots 0–15 (R320), reset EMPTY. -/
  slots : List LodeSlot := List.replicate 16 {}
  /-- Admitted jobs: the job table of R458. -/
  jobs : List Job := []
  /-- Shares of the PF and VF1–VF7 (R339): after a device reset the PF's is the capacity. -/
  shares : List Share := { whole := true } :: List.replicate 7 {}
  /-- The signature policy (R349): REQUIRE and four key slots, reset clear. -/
  require : Bool := false
  keys : List (Option (List Byte)) := List.replicate 4 none
  /-- The firmware patch (R446), reset none. -/
  patch : Patch := {}
  /-- A hub reset is under way, and whether for FW_ACTIVATE (R458). -/
  resetting : Bool := false
  fwActivate : Bool := false
  /-- The job that capacity beyond the allowances went to last (R345). -/
  postTurn : U16 := 0
  /-- Commands that the reset abandoned (R458). -/
  abandoned : List CmdHdr := []
  /-- The hub has halted (R468). -/
  halted : Bool := false
  /-- The function whose command is fetched next (R348). -/
  rrFn : Nat := 0
  /-- Beacons sent to the hub and not yet arrived, and the last that arrived (R31). -/
  beacons : List U32 := []
  beacon : Option U32 := none
  /-- Dusk entry under way: beacon D (R460). -/
  duskAt : Option U32 := none
  /-- Swap messages, mailbox messages on their way to the supervisors (R40, R403). -/
  mail : List (Nat × MailMsg) := []
  /-- The geode that the hub memory's round-robin served last (R260). -/
  rrG : Nat := 7
  /-- Counters PCIE_CORR, ECC_CORR, ECC_UNCORR, UART_EARLY, DMA_BEATS (R475), reset 0. -/
  pcieCorr : Nat := 0
  eccCorr : Nat := 0
  eccUnc : Nat := 0
  uartEarly : Nat := 0
  dmaBeats : Nat := 0
  /-- Their capture at the last beacon (R48, R474). -/
  snap : Option (U32 × List Nat) := none
  /-- Where hub-memory scrubbing stands (R272). -/
  scrub : Nat := 0
  /-- The training windows: quads that wait, and the quad whose window is open (R369). -/
  windowQ : List Nat := []
  window : Option Nat := none
deriving DecidableEq, Repr

/-! ### The always-on and host-link domains (chapters 1, 13–16) -/

/-- The device states of R450. -/
inductive DevState where
  | starting | ready | leaving | dusk | waking | fault
deriving DecidableEq, Repr

/-- A TIME_SET that waits for its tick (R444). -/
structure TimeSetReq where
  hdr    : CmdHdr
  atOnce : Bool
  armed  : Bool
  source : BitVec 2
  n      : U32
  t      : DTime
deriving DecidableEq, Repr

/-- The always-on domain (R22, R27, R463, R469, R504–R507). -/
structure Aon where
  /-- The device is held in reset (R451); in State.reset the power-up reset has not been released. -/
  inReset : Bool := true
  /-- The next start follows: 1 a power-up reset, 2 a device reset, 3 a brown-out (R469). -/
  startKind : Nat := 1
  /-- VIN below its threshold, TRIP hold until TJ falls below 140 °C (R463, R493). -/
  tripHold : Bool := false
  /-- DEVSTATE (R427), reset STARTING. -/
  devstate : DevState := .starting
  /-- Device time, 42 bits of seconds and 80 of fraction (R504), 0 under a power-up reset (R454). -/
  time : DTime := 0
  /-- The rate word in units of 2⁻⁸⁰ s: nominal at reset (R504). -/
  rate : Nat := 12089258196146292
  /-- The time source (R504), the lock (R505): free-running and unlocked at reset. -/
  source : BitVec 2 := 0
  locked : Bool := false
  /-- Consecutive good edges, consecutive edges outside the window and their offset, the last accepted edge's time
  (R505). -/
  goodEdges : Nat := 0
  outEdges : Nat := 0
  outErr : Int := 0
  lastEdge : Option DTime := none
  /-- The offset recorded for IRIG-B, and the last decoded second (R506). -/
  irigOff : BitVec 42 := 0
  irigSec : Option (BitVec 42) := none
  /-- Origin beacon N0, its time T0, the period F and fs, and the number of the beacon to emit next (R27, R28). -/
  n0 : U32 := 0
  t0 : DTime := 0
  f : Nat := 65536
  fs : Nat := 7200000000
  nextBeacon : U32 := 0
  /-- A new period that starts at a beacon: the beacon, F and fs (R28). -/
  newPeriod : Option (U32 × Nat × Nat) := none
  /-- Number of the beacon emitted last; none before the first (R31). -/
  lastBeacon : Option U32 := none
  /-- TIME_SET in hand (R444). -/
  timeSet : Option TimeSetReq := none
  /-- FAULTREC, 14 bits (R469), power-up reset 0. -/
  faultrec : Word := 0
  /-- Fuse shadow words that differ from what they were loaded with: (index, word) (R488); and whether the load of step
  3 of R452 has been made. -/
  fuseW : List (Nat × Word) := []
  fuseLoaded : Bool := false
  /-- TEMP.TJ, 16 bits (R426), reset 0; TALARM (R463), reset 0. -/
  tj : BitVec 16 := 0
  talarm : Bool := false
  /-- Junction readings of the last second (R403, R463): device time in 2⁻⁵⁶ s, and TJ. -/
  tjs : List (Nat × Int) := []
  /-- THERMTRIP_N is driven low (R511). -/
  thermtrip : Bool := false
  /-- The lane reference is absent (R468). -/
  noLaneRef : Bool := false
  /-- Islands are switched off (R460, R463). -/
  islandsOff : Bool := false
  /-- PPS_EDGES, IRIG_ERR (R475), reset 0, and their snapshot. -/
  ppsEdges : U32 := 0
  irigErr : Nat := 0
  snap : Option (U32 × List Nat) := none
  /-- PPS_OUT: the whole second of its last rise, and its level (R507). -/
  ppsOut : Option (BitVec 42) := none
  ppsHigh : Bool := false
  /-- T0 of the start under way, and the steps of R452 that have passed: 1 fuses loaded and hub running, 2 monitor input,
  3 banner, 4 configuration space, 5 lane windows. -/
  started : DTime := 0
  stage : Nat := 0
deriving DecidableEq, Repr

/-- The host-link domain (R22, R338, R419–R421). -/
structure Link where
  /-- Speed Gen 1–5 and width of the trained link, 0 while it is down (R421). -/
  gen : Nat := 0
  width : Nat := 0
  /-- VFs enabled (R419, R449), reset 0. -/
  vfs : Nat := 0
  /-- Max_Payload_Size code, Max_Read_Request_Size code, Relaxed Ordering, Completion Timeout Value (R419, R420):
  PCI Express resets 128 B, 512 B, enabled, 0. -/
  mps : BitVec 3 := 0
  mrrs : BitVec 3 := 2
  relaxed : Bool := true
  timeout : BitVec 4 := 0
  /-- Other configuration words as last written, by function × 1,024 + word (R419). -/
  cfg : List (Nat × U32) := []
  /-- Posted flow-control credits granted and not yet used, in bytes (R54, R296). -/
  credits : Nat := 0
  /-- Read requests that the link's non-posted credits still allow (R296). -/
  npCredits : Nat := 0
  /-- Configuration space is ready: CRS has ended (R452). -/
  cfgReady : Bool := false
deriving DecidableEq, Repr

/-- A character that the monitor has buffered, with its framing error, or characters lost behind it (R481). -/
inductive MonIn where
  | char (b : Byte) (framing : Bool)
  | lost
deriving DecidableEq, Repr

/-- A command of the monitor as a line spells it (R483). -/
inductive MonCmd where
  | ver
  | state
  | mr (a : Space) (n : Nat)
  | mw (a : Space) (vs : List Nat)
  | reg (t : Target) (lvl : Option (Fin 4)) (r : RegName) (v : Option (BitVec 1792))
  | halt (t : Target)
  | run (t : Target)
  | step (t : Target) (n : Nat)
  | brk (t : Target) (i : Fin 2) (addr : Option IAddr)
  | attn (t : Target)
  | lode (slot : Fin 16) (mask : Byte) (bytes : List Byte)
  | log (seq : Option U32) (n : Option Nat)
  | ctr (block : Fin 10) (live : Bool)
  | fuse (idx : Byte) (v : Option Word)
  | faultrec (clr : Bool)
  | resetDev
  | resetHub
  | resetG (g : Fin 8)
  | resetC (g : Fin 8) (c : Fin 9)
deriving DecidableEq, Repr

/-- A LODE command whose hexadecimal lines are being read (R484): slot, mask, length and the bytes so far. -/
structure MonLode where
  slot  : Fin 16
  mask  : Byte
  len   : Nat
  bytes : List Byte
deriving DecidableEq, Repr

/-- The bench monitor (R479–R485). -/
structure Mon where
  /-- Input is accepted (R452 step 6). -/
  open_ : Bool := false
  /-- The line so far, oldest byte first; that it is too long, framed wrongly or holds another byte; the last byte
  was CR (R480). -/
  line : List Byte := []
  tooLong : Bool := false
  badByte : Bool := false
  lastCr : Bool := false
  /-- The command of a complete line, which that command's row executes (R481). -/
  ready : Option MonCmd := none
  /-- Input that has come while a command runs, oldest first, and the last character received was CR (R480, R481). -/
  buf : List MonIn := []
  cr : Bool := false
  /-- A LODE whose lines are being read (R484). -/
  lode : Option MonLode := none
deriving DecidableEq, Repr

/-- Which JTAG instruction is in force (R489). -/
inductive JtagIr where
  | bypass | idcode | sample | extest | debug
deriving DecidableEq, Repr

/-- The JTAG port (R489): instruction, bypass bit and boundary register. -/
structure Jtag where
  ir : JtagIr := .idcode
  bypassBit : Bool := false
  boundary : List Bool := []
deriving DecidableEq, Repr

/-! ### What leaves the device -/

/-- Something the device sends at one of its ports. -/
inductive Out where
  | uart (b : List Byte)
  | jtag (b : List Byte)
  | tdo (bits : List Bool)
  | entry (fn : Nat) (off : Nat) (e : Entry) (crc : U32)
  | pad (fn : Nat) (off : Nat) (len : Nat)
  | terminator (fn : Nat) (off : Nat)
  | msix (fn : Nat) (vec : Nat)
  | hostWrite (addr : Nat) (bytes : List Byte) (relaxed : Bool)
  | hostRead (addr : Nat) (len : Nat)
  | cfgCompletion (fn : Nat) (off : Nat) (crs : Bool) (v : U32)
  | bar0Read (fn : Nat) (off : Nat) (v : U64)
  | unsupported (fn : Nat)
  | codeword (pos : Nat) (payload : BitVec 5140)
  | mrst (pos : Nat) (asserted : Bool)
  | alertRead (pos : Nat)
  | ppsOut (high : Bool)
  | thermtrip (low : Bool)
deriving DecidableEq, Repr

/-! ### The whole device -/

/-- The state of the FJ3214. -/
structure State where
  /-- Signal core c of geode g at 9g + c, the supervisor of geode g at 72 + g, the hub's core at 80 (R22). -/
  cores : List Core
  /-- The eight geodes (R22). -/
  geodes : List Geode
  /-- The eight lane quads, and the 32 positions (R356). -/
  quads : List Quad
  poss : List Pos
  hub : Hub
  /-- The PF and VF1–VF7 (R424). -/
  fns : List Fn
  aon : Aon
  link : Link
  mon : Mon
  jtag : Jtag
  /-- The model's own: what has left the device, newest first (log entry 5). -/
  out : List Out
  /-- The model's own: the number of the next free value (log entry 3). -/
  free : Nat
  /-- The commands that wait, first in, first out (the block's queue). -/
  pending : List Instr
deriving DecidableEq, Repr

/-- A signal core after a reset (R85, R111–R122, R182, R243). -/
def Core.signalReset : Core := { kind := .signal, threads := List.replicate 4 {} }

/-- A supervisor after a reset: 8 contexts, each mapping virtual page 0 to physical page 0 (R139, R281). -/
def Core.supReset : Core :=
  { kind := .supervisor, threads := List.replicate 8 {},
    tbl := (List.range 8).map (fun t => (1024 * t, 0x2000#14)) }

/-- The hub's core after a reset: 64 contexts (R139). -/
def Core.hubReset : Core := { kind := .hub, threads := List.replicate 64 {} }

/-- A geode after a reset: virtual page 0 of every supervisor context maps physical page 0 (R281). -/
def Geode.reset : Geode := { master := (List.range 8).map (fun t => (1024 * (72 + t), 0x2000#14)) }

/-- The machine right after a power-up reset (R452 step 1, R456): every field at the value its docstring names. -/
def State.reset : State :=
  { cores := List.replicate 72 Core.signalReset ++ List.replicate 8 Core.supReset ++ [Core.hubReset]
    geodes := List.replicate 8 Geode.reset
    quads := List.replicate 8 {}
    poss := List.replicate 32 {}
    hub := {}
    fns := List.replicate 8 {}
    aon := {}
    link := {}
    mon := {}
    jtag := {}
    out := []
    free := 0
    pending := [] }

end Sys2Proof.Machine
end

