-- ==== Sys2Proof/Machine/Operands.lean ====
section
/-! DEFINITION. What an operation of a bundle reads and what it answers: the register view at its issue cycle
(R65), the operand fields of R223–R225 with their reserved values (R233), effective addresses (R250–R252), the
data address map (R245–R247), and `OpOut`, which says what an operation needs, raises and does. -/

namespace Sys2Proof.Machine
open Sys2Proof

/-! ### What an operation answers -/

/-- Slots (R55). -/
inductive SlotK where
  | a0 | a1 | d | v | f | c
deriving DecidableEq, Repr

/-- A register that an operation reads or writes, for R68 and R234. D registers are physical. -/
inductive WName where
  | d (n : Nat)
  | a (n : Nat)
  | m (n : Nat)
  | b (n : Nat)
  | l (n : Nat)
  | ac (n : Nat)
  | v (n : Nat)
  | va (n : Nat)
  | f (n : Nat)
  | sys (n : Nat)
  | flags
deriving DecidableEq, Repr

/-- A precise exception (R118): its code and its XADDR. -/
structure Exc where
  code : BitVec 6
  addr : DWord := 0
deriving DecidableEq, Repr

/-- Control flow that an operation of the C slot makes when its bundle issues. -/
inductive Ctl where
  /-- B.cc (R75, R79): taken, A, target, and the index of its direction counter. -/
  | branch (taken annul : Bool) (target : IAddr) (ctr : Nat)
  /-- BRA (R77) and JMP An: the target, and whether it is resolved in E1. -/
  | goto (target : IAddr) (inE1 : Bool)
  /-- CALL and CALLO (R78, R130): the target, resolved in E1 or not, windowed or not. -/
  | call (target : IAddr) (inE1 window : Bool)
  /-- RET and RETO (R78, R82, R130): A15[13:0], windowed or not. -/
  | ret (target : IAddr) (window : Bool)
  | rte
  /-- LOOP (R87): count, from a D register or not, LTAIL. -/
  | loop (count : Nat) (reg : Bool) (tail : IAddr)
  /-- REP (R95): count and I. -/
  | rep (count : Nat) (intr : Bool)
  | barp (b : Bool)
  | flushp
  | waite
  | tstart (c : Nat) (entry : IAddr)
  | tresume (c : Nat)
  | tstop (c : Nat)
  | tset (c : Nat) (pri : BitVec 2)
deriving DecidableEq, Repr

/-- One thing an operation does when its bundle issues. -/
inductive Act where
  /-- A register write that lands `lat` advancing cycles later (R65). -/
  | wr (w : RegW) (lat : Nat)
  /-- A store to X or Y memory (R248). -/
  | store (y : Bool) (addr : Nat) (v : Word)
  /-- A window load (R256, R258, R274): element, device-global or not, and offset, in element order. -/
  | load (offs : List (Nat × Bool × Nat)) (dst : LoadDst)
  /-- A store to a window (R273): device-global or not, offset and word, in element order; from slot A1 or not. -/
  | put (a1 : Bool) (ws : List (Bool × Nat × Word))
  /-- SIGNAL (R275). -/
  | signal (u : BitVec 3)
  /-- PALLOC or PFREE (R265). -/
  | page (alloc a1 : Bool) (tid vpage : Nat)
  /-- An operation of the divider or of the F28 divide and square-root unit (R57). -/
  | unit (fdiv : Bool) (lat : Nat) (ws : List RegW)
  | ctl (c : Ctl)
  /-- Micro-operations 1 to N − 1 of a user decode operation (R242). -/
  | micros (is : List Instr)
deriving DecidableEq, Repr

/-- The memories of a core that its operations read, for R270 and R271: X, Y, the translation tables and the user
decode table. -/
inductive EccMem where
  | x | y | tbl | udt
deriving DecidableEq, Repr

/-- What an operation answers: its slots, the precise exceptions it raises, the registers it reads that a unit may
still owe (R68), its effects, and what it needs. `keep` holds even if the bundle faults (R197). -/
structure OpOut where
  slots  : List SlotK := []
  excs   : List Exc := []
  reads  : List WName := []
  acts   : List Act := []
  keep   : List Act := []
  /-- It needs the vector unit (R182), or uses the F state (R136). -/
  vec    : Bool := false
  fuse   : Bool := false
  /-- It counts as a flag writer beside an MVS write of STAT (R234). -/
  wflags : Bool := false
  /-- It is VLDX or VSTX (R199). -/
  vx     : Bool := false
  /-- It waits for the F28 divide and square-root unit as an operation issued to it (R219). -/
  fwait  : Bool := false
  /-- Words of X and Y memory that it reads where its bundle does not fault, and of the tables, which it reads in any case
  (R241, R262, R270, R271). -/
  touch  : List (EccMem × Nat) := []
  look   : List (EccMem × Nat) := []
  /-- R92 excludes it from delay slots, tails and repeated bundles; it is RTE; a user decode operation with N ≥ 2. -/
  excl   : Bool := false
  isRte  : Bool := false
  udo    : Bool := false
  isRep  : Bool := false
  /-- Registers that it writes and its effects do not name: the destination of a load that page-faults, PB of BARP, the
  flags of FSTAT, and what its later micro-operations write (R234, R242). -/
  later  : List WName := []
deriving DecidableEq, Repr

/-- The precise illegal-operation exception of R233. -/
def illegalOp (sl : List SlotK) : OpOut := { slots := sl, excs := [⟨1, 0⟩] }

/-- The answer `o` where the encoding is legal, else the illegal-operation exception. -/
def whenLegal (ok : Bool) (sl : List SlotK) (o : OpOut) : OpOut := if ok then o else illegalOp sl

/-- The register names that a write covers, for R234; D registers are physical. -/
def regNames : RegW → List WName
  | .d p _ => [.d p]
  | .a n _ => [.a n]
  | .m n _ => [.m n]
  | .b n _ => [.b n]
  | .l n _ => [.l n]
  | .ac n _ => [.ac n]
  | .acPart n _ _ _ => [.ac n]
  | .v n _ => [.v n]
  | .va n _ => [.va n]
  | .vmac n _ _ _ => [.va n]
  | .ext n _ _ _ => [.ac n, .ac (n + 1)]
  | .f n _ => [.f n]
  | .fflags _ _ _ => []
  | .flag _ _ => [.flags]
  | .sticky _ => [.flags]
  | .sys n _ => [.sys n]
  | .vl _ => [.sys 3]
  | .vstart _ => [.sys 4]
  | .load _ _ (.d p) => [.d p]
  | .load _ _ (.dd lo hi) => [.d lo, .d hi]
  | .load _ _ (.v n) => [.v n]
  | .load _ _ (.rows n) => [.v n]
  | .load _ _ (.kept n) => [.v n]
  | .page _ _ _ => [.flags]
  | .nothing => []

/-- The registers that an effect writes. -/
def actNames : Act → List WName
  | .wr w _ => regNames w
  | .load _ dst => regNames (.load 0 0 dst)
  | .page _ _ _ _ => [.flags]
  | .unit _ _ ws => ws.flatMap regNames
  | _ => []

/-! ### The view at issue -/

/-- What an operation of a bundle reads: its core with every due result landed (R65), the level or context, the
bundle's address and size in syllables. -/
structure IssueCtx where
  c    : Core
  tid  : Nat
  t    : Thread
  pc   : IAddr
  size : Nat
deriving DecidableEq, Repr

/-- STAT and MODE fields at issue (R111, R112, R147). -/
def Thread.wide (t : Thread) : Bool := bitOf t.mode 12
def Thread.ct (t : Thread) : Bool := bitOf t.mode 13
def Thread.sat (t : Thread) : Bool := bitOf t.mode 5
def Thread.fsub (t : Thread) : Bool := bitOf t.mode 4
def Thread.frm (t : Thread) : Nat := (t.mode.toNat / 4) % 4
def Thread.scl (t : Thread) : BitVec 3 := (t.mode >>> 6).truncate 3
def Thread.pb (t : Thread) : Bool := bitOf t.stat 11
def Thread.flagDC (t : Thread) : Bool := bitOf t.stat 4
def Thread.flagV (t : Thread) : Bool := bitOf t.stat 3
def Thread.flagC (t : Thread) : Bool := bitOf t.stat 2
def Thread.flagNeg (t : Thread) : Bool := bitOf t.stat 1
def Thread.flagZero (t : Thread) : Bool := bitOf t.stat 0

/-- The index of Dn in the bank: D0–D7 at 0–7, D8–D31 through WPOS at 8–71 (R104, R116, R130). -/
def dPhys (wpos : BitVec 2) (n : Nat) : Nat := if n < 8 then n else 8 + (16 * wpos.toNat + (n - 8)) % 64

/-- Dn, and the pair Dk+1:Dk (R104). -/
def Thread.rd (t : Thread) (n : Nat) : Word := smGet t.d (dPhys t.wpos n)
def Thread.rdd (t : Thread) (k : Nat) : DWord := t.rd (k + 1) ++ t.rd k

/-- Word k of Vn, and element k of VAn (R177, R178). -/
def Thread.rv (t : Thread) (n k : Nat) : Word := smGet t.v (32 * n + k)
def Thread.rva (t : Thread) (n k : Nat) : Acc := smGet t.va (32 * n + k)

/-- A double word of the wide view of Vn (R177). -/
def Thread.rvw (t : Thread) (n k : Nat) : DWord := t.rv n (2 * k + 1) ++ t.rv n (2 * k)

/-- Fn as the executing level reads it: the shared file of a signal core, the context's file elsewhere (R103,
R139). -/
def IssueCtx.rf (x : IssueCtx) (n : Nat) : DWord :=
  match x.c.kind with
  | .signal => smGet x.c.f n
  | _ => smGet x.t.f n

/-- The names under which a D register and a D pair are read (R68). -/
def dName (t : Thread) (n : Nat) : WName := .d (dPhys t.wpos n)
def ddName (t : Thread) (k : Nat) : List WName := [dName t k, dName t (k + 1)]

/-- Writes of Dd and of a D pair (R104), landing after `lat`. -/
def wrD (t : Thread) (n : Nat) (v : Word) (lat : Nat) : Act := .wr (.d (dPhys t.wpos n) v) lat
def wrDD (t : Thread) (k : Nat) (v : DWord) (lat : Nat) : List Act :=
  [wrD t k (v.truncate 14) lat, wrD t (k + 1) ((v >>> 14).truncate 14) lat]

/-- Flag writes (R148, R149). -/
def wrFlag (k : FlagId) (v : Bool) (lat : Nat) : Act := .wr (.flag k v) lat
def wrNZ (n z : Bool) (lat : Nat) : List Act := [wrFlag .n n lat, wrFlag .z z lat]
def wrNZV (n z v : Bool) (lat : Nat) : List Act := wrNZ n z lat ++ [wrFlag .v v lat]
def wrNZCV (n z c v : Bool) (lat : Nat) : List Act := wrNZ n z lat ++ [wrFlag .c c lat, wrFlag .v v lat]
def wrSticky (k : StickyId) (on : Bool) (lat : Nat) : List Act := if on then [.wr (.sticky k) lat] else []

/-! ### Operand fields (R224, R225) -/

/-- A field of an A, V or F register; of an M or AC register; of a VA register: the bits above must be 0. -/
def ok16 (x : BitVec 5) : Bool := decide (x.toNat < 16)
def ok8 (x : BitVec 5) : Bool := decide (x.toNat < 8)
def ok4 (x : BitVec 5) : Bool := decide (x.toNat < 4)
def okEven (x : BitVec 5) : Bool := decide (x.toNat % 2 = 0)
def okZero {w : Nat} (x : BitVec w) : Bool := x == 0#w

/-- A, M, B and L registers by a selector of R225. -/
def Thread.rsel (t : Thread) (r : BitVec 6) : AWord :=
  let n := r.toNat
  if n < 16 then smGet t.a n
  else if n < 24 then smGet t.m (n - 16)
  else if n < 32 then smGet t.b (n - 24)
  else smGet t.l (n - 32)

/-- The write of a register by its selector (R225). -/
def selW (r : BitVec 6) (v : AWord) : RegW :=
  let n := r.toNat
  if n < 16 then .a n v
  else if n < 24 then .m (n - 16) v
  else if n < 32 then .b (n - 24) v
  else .l (n - 32) v

/-- Selectors 40–63 are reserved (R225). -/
def okSel (r : BitVec 6) : Bool := decide (r.toNat < 40)

/-! ### Addressing (R250–R252) -/

/-- upd of R251 for pointer n: the updated address, and whether CB is to be set. -/
def upd (t : Thread) (n : Nat) (p : AWord) (m : Int) : AWord × Bool :=
  let x := (p.toNat : Int) + m
  let b : Int := (smGet t.b n).toNat
  let l : Int := (smGet t.l n).toNat
  if n < 8 ∧ l ≠ 0 then
    let y := if b + l ≤ x then x - l else if x < b then x + l else x
    (BitVec.ofInt 24 y, !(decide (b ≤ y) && decide (y < b + l)))
  else (BitVec.ofInt 24 x, false)

/-- The effective address, the post-updated An where the mode has one, and CB, of an AM mode with step u (R250);
none for the reserved modes and for a non-zero Mm where it is unused (R226). -/
def amode (t : Thread) (n : Nat) (am mm : BitVec 3) (u : Nat) : Option (AWord × Option AWord × Bool) :=
  let p := smGet t.a n
  let mv := (smGet t.m mm.toNat).toInt
  match am.toNat with
  | 0 => if mm = 0 then some (p, none, false) else none
  | 1 => if mm = 0 then (let r := upd t n p u; some (p, some r.1, r.2)) else none
  | 2 => if mm = 0 then (let r := upd t n p (-(u : Int)); some (p, some r.1, r.2)) else none
  | 3 => let r := upd t n p mv; some (p, some r.1, r.2)
  | 4 => let r := upd t n p mv; some (r.1, none, r.2)
  | _ => none

/-! ### The data address map (R245–R247) -/

/-- Where a data access goes. -/
inductive Target where
  | x (a : Nat)
  | y (a : Nat)
  /-- Physical offset in the geode shared memory (R262). -/
  | shm (off : Nat)
  /-- Device-global: a word address from 0x800000 (R246). -/
  | glb (a : Nat)
  | pageFault
deriving DecidableEq, Repr

/-- The translation table that an access of a thread uses: level L3 uses the table of XCAUSE.LVL (R262). -/
def tableOf (c : Core) (tid : Nat) (t : Thread) : Nat :=
  match c.kind with
  | .signal => if tid = 3 then (t.xcause.toNat / 1024) % 4 else tid
  | _ => tid

/-- The target of one word access at address a (R245, R247, R262, R264). -/
def target (x : IssueCtx) (slotA1 wrt : Bool) (adr : AWord) : Target :=
  let a := adr.toNat
  if a < 0x10000 then (if slotA1 then .pageFault else .x a)
  else if a < 0x20000 then (if slotA1 then .y (a - 0x10000) else .pageFault)
  else if a < 0x400000 then .pageFault
  else if a < 0x800000 then
    match x.c.kind with
    | .hub => .pageFault
    | _ =>
      let e := smGet x.c.tbl (1024 * tableOf x.c x.tid x.t + (a - 0x400000) / 4096)
      if !bitOf e 13 || (wrt && bitOf e 12) then .pageFault
      else .shm ((e.toNat % 512) * 4096 + a % 4096)
  else if a < 0x880000 then .glb a
  else match x.c.kind with
    | .signal => .pageFault
    | _ => if a < 0x888000 then .glb a else .pageFault

/-- A page fault at an address (R247, R264). -/
def pageFaultAt (a : AWord) : Exc := ⟨2, a.setWidth 28⟩

/-- An access of the words at `adrs`, with their element numbers: the first that faults, else what each one's
target is. -/
def targets (x : IssueCtx) (slotA1 wrt : Bool) (adrs : List (Nat × AWord)) : List (Nat × AWord × Target) :=
  adrs.map (fun p => (p.1, p.2, target x slotA1 wrt p.2))

/-- A word of X or Y memory as a load of this cycle reads it (R248). -/
def readXY (c : Core) : Target → Word
  | .x a => smGet c.x.cells a
  | .y a => smGet c.y.cells a
  | _ => 0

/-- The X or Y word that a target names, for ECC. -/
def touchOf : Target → List (EccMem × Nat)
  | .x a => [(.x, a)]
  | .y a => [(.y, a)]
  | _ => []

/-- The translation-table entry that an access of the word at `adr` reads (R262). -/
def lookOf (x : IssueCtx) (adr : AWord) : List (EccMem × Nat) :=
  if x.c.kind != .hub && decide (0x400000 ≤ adr.toNat) && decide (adr.toNat < 0x800000) then
    [(.tbl, 1024 * tableOf x.c x.tid x.t + (adr.toNat - 0x400000) / 4096)]
  else []

/-- The window offset of a target: device-global or not. -/
def offsetOf : Target → Option (Bool × Nat)
  | .shm o => some (false, o)
  | .glb a => some (true, a)
  | _ => none

/-- A level at which a V-family operation or a vector access may issue (R110). -/
def IssueCtx.vecLevel (x : IssueCtx) : Bool :=
  match x.c.kind with
  | .signal => decide (x.tid < 2)
  | _ => true

/-- The executing core is Lorner-S (R222, R233). -/
def IssueCtx.lornerS (x : IssueCtx) : Bool := x.c.kind != .signal

/-- Contexts of a Lorner-S core (R139). -/
def ctxCount : CoreKind → Nat
  | .signal => 0
  | .supervisor => 8
  | .hub => 64

end Sys2Proof.Machine
end

