-- ==== Sys2Proof/Machine/Fetch.lean ====
section
/-! DEFINITION. The front of the pipeline: bundle sizes from the S bits (R59), the fetch side of hardware loops
(R89), their pending copies and bubbles (R89, R90), the DC actions of bundles (R79, R81, R83, R84), and the bundles
that a redirect from E1 discards (R99, R101), taken with every fetch cycle filled (log entry 22). -/

namespace Sys2Proof.Machine
open Sys2Proof

/-- The first syllable index below `n` whose S bit is 1, counting from `k`. -/
def lastSyl (im : SMap 28) (a : Nat) : Nat → Nat → Option Nat
  | 0, _ => none
  | n + 1, k => if bitOf (smGet im (a + k)) 27 then some k else lastSyl im a n (k + 1)

/-- Syllables of the bundle at `a` (R59): 8 where none of the first eight ends it. -/
def bundleSize (im : SMap 28) (a : Nat) : Nat :=
  match lastSyl im a 8 0 with
  | some k => k + 1
  | none => 8

/-- What DC sees in a bundle: its C-slot operation's control flow, targets computed in DC. -/
inductive DcKind where
  | plain
  | branch (ctr target : Nat)
  | direct (target : Nat)
  | callDirect (target : Nat)
  | callIndirect
  | ret
  /-- LOOP: its displacement, and its count, immediate or in a D register. -/
  | loop (disp : Nat) (imm : Option Nat) (ds : Nat)
  | barrier
deriving DecidableEq, Repr

/-- The DC view of one long operation at syllable `k` of the bundle at `a`. -/
def dcLong (a k : Nat) (w : DWord) : Option DcKind :=
  let v := w.toNat
  if v / 2 ^ 23 % 8 ≠ 5 then none
  else
    let disp12 := ((BitVec.ofNat 12 v).toInt + a).emod 16384 |>.toNat
    let disp14 := (v + a) % 16384
    match v / 2 ^ 17 % 64 with
    | 0x01 => some (.branch ((a + k) % 1024) disp12)
    | 0x02 => some (.direct disp14)
    | 0x03 => some (.callDirect disp14)
    | 0x04 => some (.callDirect disp14)
    | 0x06 => some .callIndirect
    | 0x07 => some .callIndirect
    | 0x08 => some .ret
    | 0x09 => some .ret
    | 0x0B => some (.loop (v % 4096) none (v / 4096 % 32))
    | 0x0C => some (.loop (v % 512) (some (v / 512 % 1024 + 1)) 0)
    | 0x0D => some (.loop (v % 512) (some (v / 512 % 1024 + 1)) 0)
    | 0x0E => some (.loop (v % 512) (some (v / 512 % 1024 + 1)) 0)
    | 0x0F => some (.loop (v % 512) (some (v / 512 % 1024 + 1)) 0)
    | 0x12 => some .barrier
    | 0x13 => some .barrier
    | _ => some .plain

/-- The DC view of one short operation. -/
def dcShort (s : BitVec 13) : Option DcKind :=
  let v := s.toNat
  if v / 2 ^ 10 ≠ 6 then none
  else match v / 64 % 16 with
    | 2 => some .barrier
    | 3 => some .barrier
    | 5 => some .ret
    | 6 => some .ret
    | _ => some .plain

/-- The DC view of a bundle: its first C-slot operation. -/
def dcKind (im : SMap 28) (a : Nat) : DcKind :=
  let ks := (List.range (bundleSize im a)).flatMap (fun k =>
    let w := smGet im (a + k)
    if bitOf w 26 then [dcShort ((w >>> 13).truncate 13), dcShort (w.truncate 13)] else [dcLong a k w])
  match ks.filterMap (fun o => o) with
  | [] => .plain
  | d :: _ => d

/-! ### Hardware loops (R87–R90) -/

/-- The bundle at `a` is the tail of the active loop level. -/
def LoopLvl.hit (l : LoopLvl) (a : Nat) : Bool := l.act && l.tail.toNat == a

/-- The loop level goes back to its head behind this pass of its tail. -/
def LoopLvl.again (l : LoopLvl) : Bool := decide (1 < l.run.toNat)

/-- The loop level behind one pass of its tail: the run that is counted down to 0 deactivates it. -/
def LoopLvl.pass (l : LoopLvl) : LoopLvl := { l with run := l.run - 1, act := l.act && l.again, bub := 0 }

/-- Both loop levels behind a pass of the bundle at `a` (R89), of the committed registers at its issue or of the fetch
copies at its fetch: the head where control goes back, and the bubbles that R90 puts behind the bundle. -/
def loopsPass (l0 l1 : LoopLvl) (a : Nat) : LoopLvl × LoopLvl × Option IAddr × Nat :=
  if l1.hit a then
    if l1.again then (l0, l1.pass, some l1.head, l1.bub)
    else if l0.hit a then (l0.pass, l1.pass, if l0.again then some l0.head else none, l1.bub + l0.bub)
    else (l0, l1.pass, none, l1.bub)
  else if l0.hit a then (l0.pass, l1, if l0.again then some l0.head else none, l0.bub)
  else (l0, l1, none, 0)

/-- Bubbles at the first loop-back decision of a body from `h` to `tl`, whatever the count (R90). -/
def loopBubbles (im : SMap 28) (reg : Bool) (h tl : Nat) : Nat :=
  if tl = h then (if reg then 2 else 1)
  else if reg && decide (tl = h + bundleSize im h) then 1
  else 0

/-- The loop level that LOOP at `a` starts or, in DC, will start (R87, R89). -/
def loopOf (im : SMap 28) (reg : Bool) (count head tl : Nat) : LoopLvl :=
  { run := BitVec.ofNat 14 count, head := BitVec.ofNat 14 head, tail := BitVec.ofNat 14 tl, act := true
    bub := loopBubbles im reg head tl }

/-- The fetch side of R89: the loops' fetch copies behind the fetch of the bundle at `a`, the next address, and the
bubbles before it. -/
def fetchNext (im : SMap 28) (l0 l1 : LoopLvl) (a : Nat) : LoopLvl × LoopLvl × Nat × Nat :=
  let r := loopsPass l0 l1 a
  (r.1, r.2.1, (match r.2.2.1 with | some h => h.toNat | none => a + bundleSize im a), r.2.2.2)

/-- What the DC actions read: instruction memory, the direction counters, PB, and the D registers as the redirecting
bundle reads them, from which the pending copy of a LOOP takes a register count (R89, log entry 127). -/
structure DcEnv where
  im  : SMap 28
  ctr : SMap 2
  pb  : Bool
  rd  : Nat → Nat

/-- That view of a core and its thread. -/
def dcEnv (c : Core) (t : Thread) : DcEnv := ⟨c.imem.cells, c.dirctr, t.pb, fun n => (t.rd n).toNat⟩

/-- The front of a level's pipeline. -/
structure Front where
  if1 : Option Nat
  if2 : Option Nat
  dc  : Option Nat
  rd  : Option Nat
  nxt : Option Nat
  /-- Bubbles before the next fetch (R90). -/
  wait : Nat
  /-- The fetch copies; from the cycle in which a LOOP is in DC, its loop level's copy is the pending one (R89). -/
  l0  : LoopLvl
  l1  : LoopLvl
  /-- The fetch copies before the fetch of the bundle in IF1, which a redirect from DC restores (R89). -/
  b0  : LoopLvl
  b1  : LoopLvl
  rstk : SMap 14
  rsp  : BitVec 3
deriving DecidableEq, Repr

/-- Push a return address, and pop a prediction (R81). -/
def Front.push (p : Front) (a : Nat) : Front :=
  let n := p.rsp + 1
  { p with rsp := n, rstk := smPut p.rstk n.toNat (BitVec.ofNat 14 a) }
def Front.pop (p : Front) : Nat × Front := ((smGet p.rstk p.rsp.toNat).toNat, { p with rsp := p.rsp - 1 })

/-- A redirect made in DC: the bundle in IF1 is discarded, its decrement undone (R89). -/
def Front.redirect (p : Front) (a : Nat) : Front := 
  { p with if1 := none, nxt := some a, wait := 0, l0 := p.b0, l1 := p.b1 }

/-- The pending copy of the LOOP in DC at `a` (R89): it takes the first inactive loop level (R88). A tail that has been
fetched already goes by the copy: with a body of one bundle it stands in IF2 and the bundle in IF1 is discarded, with two
it stands in IF1 (R90). -/
def Front.capture (e : DcEnv) (p : Front) (a disp : Nat) (imm : Option Nat) (ds : Nat) : Front :=
  let head := a + bundleSize e.im a
  let tl := a + disp
  let l := loopOf e.im imm.isNone (imm.getD (e.rd ds)) head tl
  let put := fun (k0 k1 : LoopLvl) => if k0.act then (k0, l) else (l, k1)
  let q := put p.b0 p.b1
  let r := fetchNext e.im q.1 q.2 tl
  if p.if2 = some tl then
    { p with if1 := none, nxt := some r.2.2.1, wait := r.2.2.2 - 1, l0 := r.1, l1 := r.2.1 }
  else if p.if1 = some tl then { p with nxt := some r.2.2.1, wait := r.2.2.2, l0 := r.1, l1 := r.2.1 }
  else { p with l0 := (put p.l0 p.l1).1, l1 := (put p.l0 p.l1).2 }

/-- The address behind the delay slot of the bundle at `a` (R78). -/
def returnAddr (im : SMap 28) (a : Nat) : Nat :=
  let d := a + bundleSize im a
  (d + bundleSize im d) % 16384

/-- The DC actions of the bundle in DC (R63, R79, R81, R83, R84, R89). -/
def Front.decode (e : DcEnv) (p : Front) : Front :=
  match p.dc with
  | none => p
  | some a =>
    match dcKind e.im a with
    | .plain => p
    | .branch i tgt => if !e.pb && decide (2 ≤ (smGet e.ctr i ^^^ 1#2).toNat) then p.redirect tgt else p
    | .direct tgt => p.redirect tgt
    | .callDirect tgt => (if e.pb then p else p.push (returnAddr e.im a)).redirect tgt
    | .callIndirect => if e.pb then p else p.push (returnAddr e.im a)
    | .ret => if e.pb then p else (let r := p.pop; r.2.redirect r.1)
    | .loop disp imm ds => p.capture e a disp imm ds
    | .barrier => { p with if1 := none, if2 := none, nxt := none }

/-- One cycle of the front, with the DC actions of the bundle that enters DC. -/
def Front.tick (e : DcEnv) (p : Front) : Front :=
  let moved := { p with rd := p.dc, dc := p.if2, if2 := p.if1, b0 := p.l0, b1 := p.l1 }
  let fed := match p.wait, p.nxt with
    | w + 1, _ => { moved with if1 := none, wait := w }
    | 0, none => { moved with if1 := none }
    | 0, some a =>
      let r := fetchNext e.im p.l0 p.l1 a
      { moved with if1 := some a, l0 := r.1, l1 := r.2.1, nxt := some r.2.2.1, wait := r.2.2.2 }
  fed.decode e

/-- `n` cycles of the front. -/
def frontRun (e : DcEnv) : Nat → Front → Front
  | 0, p => p
  | n + 1, p => frontRun e n (p.tick e)

/-- The front with the bundle at `a` in DC and what has been fetched behind it, after that bundle's DC actions. -/
def frontAt (e : DcEnv) (t : Thread) (a : Nat) : Front :=
  frontRun e 3 { if1 := none, if2 := none, dc := none, rd := none, nxt := some a, wait := 0
                 l0 := t.loop0, l1 := t.loop1, b0 := t.loop0, b1 := t.loop1, rstk := t.rstk, rsp := t.rsp }

/-- Bundles in IF1 to RD. -/
def Front.held (p : Front) : Nat := b2n p.if1.isSome + b2n p.if2.isSome + b2n p.dc.isSome + b2n p.rd.isSome

/-- The front in the issue cycle of the bundle at `a`, two cycles behind its DC. DC in that cycle reads what the issue
leaves in the direction counters, `f` (R79, log entry 128). -/
def frontAtIssue (e f : DcEnv) (t : Thread) (a : Nat) : Front := ((frontAt e t a).tick e).tick f

/-- The front when the redirect of the bundle at `a` from E1 takes effect: in its issue cycle, or in its delay slot's
(R101). -/
def frontAtRedirect (e f : DcEnv) (t : Thread) (a : Nat) (slot : Bool) : Front :=
  if slot then (frontAtIssue e f t a).tick f else frontAtIssue e f t a

/-- The return stack two and three cycles behind the DC of the bundle at `a`, which its delay slot follows (R81). -/
def slotFronts (e f : DcEnv) (t : Thread) (a : Nat) : List (SMap 14 × BitVec 3) :=
  let p := frontAtIssue e f t a
  let q := frontAtRedirect e f t a true
  [(p.rstk, p.rsp), (q.rstk, q.rsp)]

/-- A thread with the return stack of a front. -/
def Thread.withStack (t : Thread) (p : Front) : Thread := { t with rstk := p.rstk, rsp := p.rsp }

/-- The DC actions that bundles take which are fetched again later (R81, R127): the bundle at `a` in DC, and `n`
cycles more. Their loop copies are dropped (R89). -/
def refetched (c : Core) (t : Thread) (a n : Nat) : Thread :=
  t.withStack (frontRun (dcEnv c t) n (frontAt (dcEnv c t) t a))

/-- The DC actions of a bundle on the correct path. -/
def decoded (c : Core) (t : Thread) (a : Nat) : Thread := t.withStack (frontAt (dcEnv c t) t a)

end Sys2Proof.Machine
end

