-- ==== Sys2Proof/Machine/OpsD.lean ====
section
/-! DEFINITION. The D family (R227): ALU operations (R150), shifts (R152), MAC operations (R157–R160), scaled moves
and block exponents (R163, R164), division (R168–R170) and decimal arithmetic (R174), in normal and wide mode
(R166). MVS and TGET stand in OpsSys.lean. Each definition is the operation's answer at its issue. -/

namespace Sys2Proof.Machine
open Sys2Proof

/-- The answer of a D-family operation that is legal when `ok` holds. -/
def dOut (ok : Bool) (reads : List WName) (acts : List Act) (wflags : Bool) : OpOut :=
  whenLegal ok [.d] { slots := [.d], reads := reads, acts := acts, wflags := wflags }

/-- A word result with the flags of R148's first rows. -/
def arithD (t : Thread) (d : Nat) (r : ArithOut) : List Act :=
  wrD t d (BitVec.ofInt 14 r.val) 1 :: wrNZCV r.n r.z r.c r.v 1

/-- A double-word result with the flags of R148's first rows. -/
def arithDD (t : Thread) (k : Nat) (r : ArithOut) : List Act :=
  wrDD t k (BitVec.ofInt 28 r.val) 1 ++ wrNZCV r.n r.z r.c r.v 1

/-- Dd := s op t with format R3 (R150). -/
def alu3 (f : R3) (x : IssueCtx) (op : Word → Word → ArithOut) : OpOut :=
  dOut (okZero f.b) [dName x.t f.y.toNat, dName x.t f.z.toNat]
    (arithD x.t f.x.toNat (op (x.t.rd f.y.toNat) (x.t.rd f.z.toNat))) true

/-- Dd := s op #i8 with format RI8 (R150). -/
def aluImm (d s : BitVec 5) (i : BitVec 8) (x : IssueCtx) (op : Word → Word → ArithOut) : OpOut :=
  dOut true [dName x.t s.toNat] (arithD x.t d.toNat (op (x.t.rd s.toNat) (i.signExtend 14))) true

/-- ADD and SUB take format R3 or RI8. -/
def aluF (f : AluF) (x : IssueCtx) (op : Word → Word → ArithOut) : OpOut :=
  match f with
  | .reg g => alu3 g x op
  | .imm d s i => aluImm d s i x op

/-- ADD Dd, Ds, Dt and ADD Dd, Ds, #i8 (R150). -/
def opAdd (_ : Site) (f : AluF) (x : IssueCtx) : OpOut := aluF f x (fun s t => addW x.t.sat 14 s t false)
/-- ADC (R150). -/
def opAdc (_ : Site) (f : R3) (x : IssueCtx) : OpOut := alu3 f x (fun s t => addW x.t.sat 14 s t x.t.flagC)
/-- SUB Dd, Ds, Dt and SUB Dd, Ds, #i8 (R150). -/
def opSub (_ : Site) (f : AluF) (x : IssueCtx) : OpOut := aluF f x (fun s t => subW x.t.sat 14 s t false)
/-- SBC: the borrow in is 1 − C (R150). -/
def opSbc (_ : Site) (f : R3) (x : IssueCtx) : OpOut := alu3 f x (fun s t => subW x.t.sat 14 s t (!x.t.flagC))

/-- Flags of s − t alone. -/
def cmpActs (r : ArithOut) : List Act := wrNZCV r.n r.z r.c r.v 1

/-- CMP Ds, Dt and CMP Ds, #i8 (R150). -/
def opCmp (_ : Site) (f : CmpF) (x : IssueCtx) : OpOut :=
  match f with
  | .reg g =>
    dOut (okZero g.x && okZero g.b) [dName x.t g.y.toNat, dName x.t g.z.toNat]
      (cmpActs (subW x.t.sat 14 (x.t.rd g.y.toNat) (x.t.rd g.z.toNat) false)) true
  | .imm s i =>
    dOut true [dName x.t s.toNat] (cmpActs (subW x.t.sat 14 (x.t.rd s.toNat) (i.signExtend 14) false)) true

/-- An operation with one source (Dd, Ds). -/
def unary (f : R3) (x : IssueCtx) (acts : Word → List Act) (wflags : Bool) : OpOut :=
  dOut (okZero f.z && okZero f.b) [dName x.t f.y.toNat] (acts (x.t.rd f.y.toNat)) wflags

/-- NEG (R150). -/
def opNeg (_ : Site) (f : R3) (x : IssueCtx) : OpOut :=
  unary f x (fun s => arithD x.t f.x.toNat (negW x.t.sat 14 s)) true

/-- ABS: C is unchanged (R148, R150). -/
def opAbs (_ : Site) (f : R3) (x : IssueCtx) : OpOut :=
  unary f x (fun s =>
    let v := |s.toInt|
    let r := fit x.t.sat v 14
    wrD x.t f.x.toNat (BitVec.ofInt 14 r.1) 1 :: wrNZV (flagN v 14) (flagZ v 14) r.2 1) true

/-- A logic result: N and Z of the result, V 0, C unchanged (R148). -/
def logicActs (t : Thread) (d : Nat) (r : Word) : List Act :=
  wrD t d r 1 :: wrNZV (bitOf r 13) (r == 0) false 1

/-- Dd := s op t for MIN … ANDN (R150). -/
def logic3 (f : R3) (x : IssueCtx) (op : Word → Word → Word) : OpOut :=
  dOut (okZero f.b) [dName x.t f.y.toNat, dName x.t f.z.toNat]
    (logicActs x.t f.x.toNat (op (x.t.rd f.y.toNat) (x.t.rd f.z.toNat))) true

/-- MIN, signed (R150). -/
def opMin (_ : Site) (f : R3) (x : IssueCtx) : OpOut := logic3 f x (fun s t => if t.toInt < s.toInt then t else s)
/-- MAX, signed (R150). -/
def opMax (_ : Site) (f : R3) (x : IssueCtx) : OpOut := logic3 f x (fun s t => if s.toInt < t.toInt then t else s)
/-- MINU, unsigned (R150). -/
def opMinu (_ : Site) (f : R3) (x : IssueCtx) : OpOut := logic3 f x (fun s t => if t.toNat < s.toNat then t else s)
/-- MAXU, unsigned (R150). -/
def opMaxu (_ : Site) (f : R3) (x : IssueCtx) : OpOut := logic3 f x (fun s t => if s.toNat < t.toNat then t else s)
/-- AND (R150). -/
def opAnd (_ : Site) (f : R3) (x : IssueCtx) : OpOut := logic3 f x (fun s t => s &&& t)
/-- OR (R150). -/
def opOr (_ : Site) (f : R3) (x : IssueCtx) : OpOut := logic3 f x (fun s t => s ||| t)
/-- XOR (R150). -/
def opXor (_ : Site) (f : R3) (x : IssueCtx) : OpOut := logic3 f x (fun s t => s ^^^ t)
/-- ANDN: s and not t (R150). -/
def opAndn (_ : Site) (f : R3) (x : IssueCtx) : OpOut := logic3 f x (fun s t => s &&& ~~~t)
/-- NOT (R150). -/
def opNot (_ : Site) (f : R3) (x : IssueCtx) : OpOut :=
  unary f x (fun s => logicActs x.t f.x.toNat (~~~s)) true
/-- MOV (R150). -/
def opMov (_ : Site) (f : R3) (x : IssueCtx) : OpOut := unary f x (fun s => [wrD x.t f.x.toNat s 1]) false
/-- MOVI (R150). -/
def opMovi (_ : Site) (d : BitVec 5) (imm : Word) (x : IssueCtx) : OpOut :=
  dOut true [] [wrD x.t d.toNat imm 1] false

/-- Dk := m op n on pairs (R150). -/
def aluD3 (f : R3) (x : IssueCtx) (op : DWord → DWord → ArithOut) : OpOut :=
  dOut (okZero f.b && okEven f.x && okEven f.y && okEven f.z) (ddName x.t f.y.toNat ++ ddName x.t f.z.toNat)
    (arithDD x.t f.x.toNat (op (x.t.rdd f.y.toNat) (x.t.rdd f.z.toNat))) true

/-- ADD.D (R150). -/
def opAddD (_ : Site) (f : R3) (x : IssueCtx) : OpOut := aluD3 f x (fun s t => addW x.t.sat 28 s t false)
/-- ADC.D (R150). -/
def opAdcD (_ : Site) (f : R3) (x : IssueCtx) : OpOut := aluD3 f x (fun s t => addW x.t.sat 28 s t x.t.flagC)
/-- SUB.D (R150). -/
def opSubD (_ : Site) (f : R3) (x : IssueCtx) : OpOut := aluD3 f x (fun s t => subW x.t.sat 28 s t false)
/-- SBC.D (R150). -/
def opSbcD (_ : Site) (f : R3) (x : IssueCtx) : OpOut := aluD3 f x (fun s t => subW x.t.sat 28 s t (!x.t.flagC))

/-- CMP.D Dm, Dn (R150). -/
def opCmpD (_ : Site) (f : R3) (x : IssueCtx) : OpOut :=
  dOut (okZero f.x && okZero f.b && okEven f.y && okEven f.z) (ddName x.t f.y.toNat ++ ddName x.t f.z.toNat)
    (cmpActs (subW x.t.sat 28 (x.t.rdd f.y.toNat) (x.t.rdd f.z.toNat) false)) true

/-- An operation with one pair as source (Dk, Dm). -/
def unaryD (f : R3) (x : IssueCtx) (acts : DWord → List Act) (wflags : Bool) : OpOut :=
  dOut (okZero f.z && okZero f.b && okEven f.x && okEven f.y) (ddName x.t f.y.toNat)
    (acts (x.t.rdd f.y.toNat)) wflags

/-- NEG.D (R150). -/
def opNegD (_ : Site) (f : R3) (x : IssueCtx) : OpOut :=
  unaryD f x (fun s => arithDD x.t f.x.toNat (negW x.t.sat 28 s)) true
/-- MOV.D (R150). -/
def opMovD (_ : Site) (f : R3) (x : IssueCtx) : OpOut := unaryD f x (fun s => wrDD x.t f.x.toNat s 1) false

/-- MVAD (R150, R227): B[0] = 0 moves Dk to An, B[0] = 1 moves An to Dk; B[1] is unused. -/
def opMvad (_ : Site) (f : R3) (x : IssueCtx) : OpOut :=
  let ok := okEven f.x && ok16 f.y && okZero f.z && decide (f.b.toNat < 2)
  if f.b = 0 then
    dOut ok (ddName x.t f.x.toNat) [.wr (.a f.y.toNat ((x.t.rdd f.x.toNat).truncate 24)) 1] false
  else
    dOut ok [] (wrDD x.t f.x.toNat ((smGet x.t.a f.y.toNat).setWidth 28) 1) false

/-! ### Shifts (R152) -/

/-- The flags of a shift of width w. -/
def shiftFlags {w : Nat} (r : ShiftOut w) : List Act :=
  wrNZV (bitOf r.r (w - 1)) (r.r == 0#w) r.v 1 ++
    (match r.c with | some c => [wrFlag .c c 1] | none => [])

/-- A register count: Dt[5:0], signed (R152). -/
def regCount (w : Word) : Int := (w.truncate 6).toInt

/-- A word shift with its count. -/
def shiftD (arith ok : Bool) (reads : List WName) (d s : BitVec 5) (n : Int) (x : IssueCtx) : OpOut :=
  let r := shiftW arith (x.t.rd s.toNat) n
  dOut ok reads (wrD x.t d.toNat r.r 1 :: shiftFlags r) true

/-- LSH Dd, Ds, Dt (R152). -/
def opLsh (_ : Site) (f : R3) (x : IssueCtx) : OpOut :=
  shiftD false (okZero f.b) [dName x.t f.y.toNat, dName x.t f.z.toNat] f.x f.y (regCount (x.t.rd f.z.toNat)) x
/-- ASH Dd, Ds, Dt (R152). -/
def opAsh (_ : Site) (f : R3) (x : IssueCtx) : OpOut :=
  shiftD true (okZero f.b) [dName x.t f.y.toNat, dName x.t f.z.toNat] f.x f.y (regCount (x.t.rd f.z.toNat)) x
/-- LSL Dd, Ds, #u5: the encoded count I is u5 (R152, R227). -/
def opLsl (_ : Site) (f : RI6) (x : IssueCtx) : OpOut :=
  shiftD false true [dName x.t f.y.toNat] f.x f.y f.i.toInt x
/-- LSR Dd, Ds, #u5: the encoded count I is −u5 (R152, R227). -/
def opLsr (_ : Site) (f : RI6) (x : IssueCtx) : OpOut :=
  shiftD false true [dName x.t f.y.toNat] f.x f.y f.i.toInt x
/-- ASL Dd, Ds, #u5 (R152, R227). -/
def opAsl (_ : Site) (f : RI6) (x : IssueCtx) : OpOut :=
  shiftD true true [dName x.t f.y.toNat] f.x f.y f.i.toInt x
/-- ASR Dd, Ds, #u5 (R152, R227). -/
def opAsr (_ : Site) (f : RI6) (x : IssueCtx) : OpOut :=
  shiftD true true [dName x.t f.y.toNat] f.x f.y f.i.toInt x

/-- A pair shift with a register count. -/
def shiftDD (arith : Bool) (f : R3) (x : IssueCtx) : OpOut :=
  let r := shiftW arith (x.t.rdd f.y.toNat) (regCount (x.t.rd f.z.toNat))
  dOut (okZero f.b && okEven f.x && okEven f.y) (dName x.t f.z.toNat :: ddName x.t f.y.toNat)
    (wrDD x.t f.x.toNat r.r 1 ++ shiftFlags r) true

/-- LSH.D (R152). -/
def opLshD (_ : Site) (f : R3) (x : IssueCtx) : OpOut := shiftDD false f x
/-- ASH.D (R152). -/
def opAshD (_ : Site) (f : R3) (x : IssueCtx) : OpOut := shiftDD true f x

/-! ### Multiply and accumulate (R157–R160, R166) -/

/-- ACn as an operation reads it under the mode at issue (R159). -/
def Thread.rac (t : Thread) (n : Nat) : Int := accRead t.wide (smGet t.ac n)

/-- The effects of an accumulator result: register, N, Z, V and the sticky AV, latency 2 (R148, R158). -/
def accActs (n : Nat) (r : AccOut) : List Act :=
  .wr (.ac n r.acc) 2 :: (wrNZV r.n r.z r.v 2 ++ wrSticky .av r.v 2)

/-- The exact value `v` written to ACn. -/
def accTo (t : Thread) (n : Nat) (v : Int) : List Act := accActs n (accOp t.sat t.wide v)

/-- The product of two scalar operands: words, or wide data of pairs in wide mode (R154, R166). -/
def scalarProduct (t : Thread) (y z : BitVec 5) : Int :=
  if t.wide then wideRead (t.rdd y.toNat) * wideRead (t.rdd z.toNat)
  else (t.rd y.toNat).toInt * (t.rd z.toNat).toInt

/-- The names that `scalarProduct` reads, and the operand check under the mode (R166). -/
def productReads (t : Thread) (y z : BitVec 5) : List WName :=
  if t.wide then ddName t y.toNat ++ ddName t z.toNat else [dName t y.toNat, dName t z.toNat]
def productOk (t : Thread) (y z : BitVec 5) : Bool := !t.wide || (okEven y && okEven z)

/-- MPY, MAC and MSU: base + sign × product. -/
def macOut (f : R3) (x : IssueCtx) (v : Int → Int) : OpOut :=
  dOut (okZero f.b && ok8 f.x && productOk x.t f.y f.z) (productReads x.t f.y f.z)
    (accTo x.t f.x.toNat (v (scalarProduct x.t f.y f.z))) true

/-- MPY (R157). -/
def opMpy (_ : Site) (f : R3) (x : IssueCtx) : OpOut := macOut f x (fun p => p)
/-- MAC (R157). -/
def opMac (_ : Site) (f : R3) (x : IssueCtx) : OpOut := macOut f x (fun p => x.t.rac f.x.toNat + p)
/-- MSU (R157). -/
def opMsu (_ : Site) (f : R3) (x : IssueCtx) : OpOut := macOut f x (fun p => x.t.rac f.x.toNat - p)

/-- The complex operations: ACn from the real part, ACn+1 from the imaginary part; N of the real accumulator, Z of
both, V of either (R148, R157). They are illegal in wide mode (R166). -/
def cmacOut (f : R3) (x : IssueCtx) (accumulate conj : Bool) : OpOut :=
  let t := x.t
  let a := (t.rd f.y.toNat).toInt
  let b := (t.rd (f.y.toNat + 1)).toInt
  let c := (t.rd f.z.toNat).toInt
  let d := (t.rd (f.z.toNat + 1)).toInt
  let re := (if accumulate then t.rac f.x.toNat else 0) + cmulRe conj a b c d
  let im := (if accumulate then t.rac (f.x.toNat + 1) else 0) + cmulIm conj a b c d
  let r := accOp t.sat t.wide re
  let i := accOp t.sat t.wide im
  dOut (okZero f.b && ok8 f.x && okEven f.x && okEven f.y && okEven f.z && !t.wide)
    (ddName t f.y.toNat ++ ddName t f.z.toNat)
    ([.wr (.ac f.x.toNat r.acc) 2, .wr (.ac (f.x.toNat + 1) i.acc) 2] ++
      wrNZV r.n (r.z && i.z) (r.v || i.v) 2 ++ wrSticky .av (r.v || i.v) 2) true

/-- CMPY (R157). -/
def opCmpy (_ : Site) (f : R3) (x : IssueCtx) : OpOut := cmacOut f x false false
/-- CMAC (R157). -/
def opCmac (_ : Site) (f : R3) (x : IssueCtx) : OpOut := cmacOut f x true false
/-- CMACJ (R157). -/
def opCmacj (_ : Site) (f : R3) (x : IssueCtx) : OpOut := cmacOut f x true true

/-- ADDA (R157). -/
def opAdda (_ : Site) (f : R3) (x : IssueCtx) : OpOut :=
  dOut (okZero f.b && ok8 f.x && ok8 f.y && ok8 f.z) []
    (accTo x.t f.x.toNat (x.t.rac f.y.toNat + x.t.rac f.z.toNat)) true
/-- SUBA (R157). -/
def opSuba (_ : Site) (f : R3) (x : IssueCtx) : OpOut :=
  dOut (okZero f.b && ok8 f.x && ok8 f.y && ok8 f.z) []
    (accTo x.t f.x.toNat (x.t.rac f.y.toNat - x.t.rac f.z.toNat)) true
/-- NEGA (R157). -/
def opNega (_ : Site) (f : R3) (x : IssueCtx) : OpOut :=
  dOut (okZero f.b && okZero f.z && ok8 f.x && ok8 f.y) [] (accTo x.t f.x.toNat (- x.t.rac f.y.toNat)) true
/-- ASHA: left fits, right truncates (R157). -/
def opAsha (_ : Site) (f : RI6) (x : IssueCtx) : OpOut :=
  let n := f.i.toInt
  let v := x.t.rac f.y.toNat
  dOut (ok8 f.x && ok8 f.y) []
    (accTo x.t f.x.toNat (if 0 ≤ n then v * 2 ^ n.toNat else v.fdiv (2 ^ n.natAbs))) true
/-- CLRA: no flags, latency 1 (R148, R157). -/
def opClra (_ : Site) (f : R3) (_ : IssueCtx) : OpOut :=
  dOut (ok8 f.x && okZero f.y && okZero f.z && okZero f.b) [] [.wr (.ac f.x.toNat 0) 1] false

/-- Part p of an accumulator, as it is stored (R105, R159). -/
def accPart (a : Acc) (p : Nat) : Word := (a >>> (14 * p)).truncate 14

/-- MVP (R105, R157, R159, R227): Z[1:0] is the part, B[0] the direction; other bits of Z and B are unused. -/
def opMvp (_ : Site) (f : R3) (x : IssueCtx) : OpOut :=
  let part := f.z.toNat
  let ok := ok4 f.z && ok8 f.y && decide (f.b.toNat < 2)
  if f.b = 0 then
    dOut ok [] [wrD x.t f.x.toNat (accPart (smGet x.t.ac f.y.toNat) part) 1] false
  else
    dOut ok [dName x.t f.x.toNat] [.wr (.acPart f.y.toNat part (x.t.rd f.x.toNat) x.t.wide) 1] false

/-- A word or wide result that is rounded and fitted: N, Z of the wrapped result, V of fit (R148, R163). -/
def fittedActs (t : Thread) (d : Nat) (v : Int) (lat : Nat) : List Act :=
  if t.wide then
    let r := fit t.sat v 24
    wrDD t d (wideWrite r.1) lat ++ wrNZV (flagN v 24) (flagZ v 24) r.2 lat
  else
    let r := fit t.sat v 14
    wrD t d (BitVec.ofInt 14 r.1) lat :: wrNZV (flagN v 14) (flagZ v 14) r.2 lat

/-- MULF (R157, R166). -/
def opMulf (_ : Site) (f : R3) (x : IssueCtx) : OpOut :=
  dOut (okZero f.b && productOk x.t f.y f.z && (!x.t.wide || okEven f.x)) (productReads x.t f.y f.z)
    (fittedActs x.t f.x.toNat (rnd (scalarProduct x.t f.y f.z) (if x.t.wide then 23 else 13)) 2) true

/-- MUL.D: exact; illegal in wide mode (R157, R166). -/
def opMulD (_ : Site) (f : R3) (x : IssueCtx) : OpOut :=
  let p := (x.t.rd f.y.toNat).toInt * (x.t.rd f.z.toNat).toInt
  dOut (okZero f.b && okEven f.x && !x.t.wide) [dName x.t f.y.toNat, dName x.t f.z.toNat]
    (wrDD x.t f.x.toNat (BitVec.ofInt 28 p) 2 ++ wrNZV (flagN p 28) (flagZ p 28) false 2) true

/-- k of R163 at issue. -/
def sclNow (t : Thread) : Int := sclK t.scl (t.rd 7)

/-- D7 is read when MODE.SCL = 100 (R163). -/
def sclReads (t : Thread) : List WName := if t.scl = 4 then [dName t 7] else []

/-- MVR and MVI with base b (R163). -/
def moveAcc (f : R3) (x : IssueCtx) (base : Nat) : OpOut :=
  dOut (okZero f.z && okZero f.b && ok8 f.y && (!x.t.wide || okEven f.x)) (sclReads x.t)
    (fittedActs x.t f.x.toNat (scaleMove (x.t.rac f.y.toNat) base (sclNow x.t)) 1) true

/-- MVR (R163, R166). -/
def opMvr (_ : Site) (f : R3) (x : IssueCtx) : OpOut := moveAcc f x (if x.t.wide then 23 else 13)
/-- MVI (R163, R166). -/
def opMvi (_ : Site) (f : R3) (x : IssueCtx) : OpOut := moveAcc f x 0

/-- EXPD: D7 keeps the unsigned maximum (R164). -/
def opExpd (_ : Site) (f : R3) (x : IssueCtx) : OpOut :=
  let e := blockExp x.t.wide (x.t.rac f.y.toNat)
  dOut (okZero f.x && okZero f.z && ok8 f.y && okZero f.b) [dName x.t 7]
    [wrD x.t 7 (BitVec.ofNat 14 (Nat.max (x.t.rd 7).toNat e)) 1] false
/-- EXPD.S (R164): B is 1 in its encoding. -/
def opExpdS (_ : Site) (f : R3) (x : IssueCtx) : OpOut :=
  dOut (okZero f.x && okZero f.z && ok8 f.y && f.b == 1) []
    [wrD x.t 7 (BitVec.ofNat 14 (blockExp x.t.wide (x.t.rac f.y.toNat))) 1] false

/-! ### Division (R168–R172) -/

/-- The writes that a divide lands together (R148, R169, R170). -/
def divWrites (t : Thread) (k : Nat) (q r : Word) (v dz : Bool) : List RegW :=
  [.d (dPhys t.wpos k) q, .d (dPhys t.wpos (k + 1)) r, .flag .n (bitOf q 13), .flag .z (q == 0), .flag .v v] ++
    (if dz then [.sticky .dz] else [])

/-- DIV (R168–R170). -/
def opDiv (_ : Site) (f : R3) (x : IssueCtx) : OpOut :=
  let s := (x.t.rd f.y.toNat).toInt
  let t := (x.t.rd f.z.toNat).toInt
  let r := divSigned x.t.sat s t
  dOut (okZero f.b && okEven f.x) [dName x.t f.y.toNat, dName x.t f.z.toNat]
    [.unit false (divLatency x.t.ct s.natAbs t.natAbs)
      (divWrites x.t f.x.toNat (BitVec.ofInt 14 r.1) (BitVec.ofInt 14 r.2.1) r.2.2.1 r.2.2.2)] true

/-- DIVU (R168–R170). -/
def opDivu (_ : Site) (f : R3) (x : IssueCtx) : OpOut :=
  let s := (x.t.rd f.y.toNat).toNat
  let t := (x.t.rd f.z.toNat).toNat
  let r := divUnsigned s t
  dOut (okZero f.b && okEven f.x) [dName x.t f.y.toNat, dName x.t f.z.toNat]
    [.unit false (divLatency x.t.ct s t)
      (divWrites x.t f.x.toNat (BitVec.ofNat 14 r.1) (BitVec.ofNat 14 r.2.1) r.2.2.1 r.2.2.2)] true

/-! ### Decimal (R173–R176) -/

/-- A decimal result: N 0, Z, V, DC; C unchanged (R148, R174). -/
def decActs (t : Thread) (k : Nat) (r : DWord × Bool) (v : Bool) : List Act :=
  wrDD t k r.1 1 ++ wrNZV false (r.1 == 0) v 1 ++ [wrFlag .dc r.2 1]

/-- DADD and DSUB: B[0] = 1 is the DC form, B[1] is unused (R174, R227). -/
def decOut (f : R3) (x : IssueCtx) (op : DWord → DWord → Bool → DWord × Bool) : OpOut :=
  let m := x.t.rdd f.y.toNat
  let n := x.t.rdd f.z.toNat
  dOut (okEven f.x && okEven f.y && okEven f.z && decide (f.b.toNat < 2)) (ddName x.t f.y.toNat ++ ddName x.t f.z.toNat)
    (decActs x.t f.x.toNat (op m n (f.b == 1 && x.t.flagDC)) (badDigit m || badDigit n)) true

/-- DADD (R174). -/
def opDadd (_ : Site) (f : R3) (x : IssueCtx) : OpOut := decOut f x dadd
/-- DSUB (R174). -/
def opDsub (_ : Site) (f : R3) (x : IssueCtx) : OpOut := decOut f x dsub
/-- DAJ (R174). -/
def opDaj (_ : Site) (f : R3) (x : IssueCtx) : OpOut :=
  dOut (okZero f.z && okZero f.b && okEven f.x && okEven f.y) (ddName x.t f.y.toNat)
    (decActs x.t f.x.toNat (daj (x.t.rdd f.y.toNat)) false) true

end Sys2Proof.Machine
end

