-- ==== Sys2Proof/Machine/OpsSys.lean ====
section
/-! DEFINITION. System registers (R235): what each reads (R111–R122, R140, R217, R244), what a write to each does
(R12, R16, R113, R517), and MVS and TGET (R106, R236). -/

namespace Sys2Proof.Machine
open Sys2Proof

/-- A register number is defined on the core, and double (R235). -/
def sysDefined (k : CoreKind) (n : Nat) : Option Bool :=
  let word := some false
  let dbl := some true
  if n ≤ 0x0D then word
  else if 0x10 ≤ n ∧ n ≤ 0x13 then word
  else if n = 0x14 then dbl
  else if n = 0x23 then word
  else if n = 0x2C ∨ n = 0x30 ∨ n = 0x34 then dbl
  else if n = 0x38 ∨ n = 0x39 then word
  else if 0x3A ≤ n ∧ n ≤ 0x3C then dbl
  else match k with
    | .signal =>
      if 0x20 ≤ n ∧ n ≤ 0x22 then word
      else if n = 0x24 then dbl
      else if n = 0x25 then word
      else if 0x28 ≤ n ∧ n ≤ 0x37 then dbl
      else if 0x40 ≤ n ∧ n ≤ 0x42 then word
      else if 0x80 ≤ n ∧ n ≤ 0x9F then word
      else none
    | .supervisor =>
      if 0x40 ≤ n ∧ n ≤ 0x42 then word
      else if 0x50 ≤ n ∧ n ≤ 0x52 then word
      else if 0x80 ≤ n ∧ n ≤ 0x9F then word
      else none
    | .hub =>
      if 0x40 ≤ n ∧ n ≤ 0x49 then word
      else if 0x50 ≤ n ∧ n ≤ 0x52 then word
      else if 0x80 ≤ n ∧ n ≤ 0xFF then word
      else none

/-- The executing level's bank holds the register (R108, R235). -/
def sysHeld (k : CoreKind) (tid n : Nat) : Bool :=
  match k with
  | .signal =>
    if 0x10 ≤ n ∧ n ≤ 0x14 then tid == 3
    else if n = 3 ∨ n = 4 then decide (tid < 2)
    else true
  | _ => true

/-- A core-level register other than EVPEND: below level L3 an MVS write is illegal (R120–R122, R217). -/
def sysCoreLevel (k : CoreKind) (n : Nat) : Bool :=
  match k with
  | .signal => (decide (0x20 ≤ n) && decide (n ≤ 0x3C)) || decide (0x80 ≤ n)
  | _ => false

/-- CORECTL as it reads (R120). -/
def corectl (c : Core) : Word :=
  BitVec.ofNat 14 (b2n c.svc * 2 ^ 13 + b2n c.df * 2 ^ 12 + b2n c.vpin * 2 ^ 11 + c.fown % 4 * 2 ^ 9 +
    b2n c.fownv * 2 ^ 8 + c.runShown % 4 * 2 ^ 6 + b2n c.l3act * 32 + b2n c.l2act * 16 + b2n c.l1st * 8 +
    b2n c.l0st * 4 + b2n c.l1w * 2 + b2n c.l0w)

/-- STATE of TCTL (R140). -/
def ctxCode : CtxState → Nat
  | .stopped => 0
  | .waiting => 1
  | .ready => 2
  | .running => 3
  | .faulted => 4

/-- TCTL (R140). -/
def tctl (t : Thread) : Word := BitVec.ofNat 14 (ctxCode t.tstate * 2 ^ 11 + t.pri.toNat)

/-- The value of EVCFGn that the list does not show: LVL = 10 on a signal core (R121). -/
def evReset (k : CoreKind) : Word :=
  match k with
  | .signal => 2
  | _ => 0

/-- EVCFGn (R121, R142). -/
def evCfg (c : Core) (n : Nat) : Word := smGet c.evcfg n ^^^ evReset c.kind

/-- A field of a core-level register held in level n's state. -/
def ofLevel {w : Nat} (c : Core) (n : Nat) (f : Thread → BitVec w) : DWord :=
  match c.threads[n]? with
  | some t => (f t).setWidth 28
  | none => 0

/-- FXPC … FXC of the executing level (R217, R221). -/
def fxOf (c : Core) (t : Thread) : FRec :=
  match c.kind with
  | .signal => c.frec
  | _ => t.frec

/-- The value that an MVS of register n reads (R106, R235). -/
def sysRead (c : Core) (tid : Nat) (t : Thread) (n : Nat) : DWord :=
  let w := fun (v : Word) => v.setWidth 28
  let sig := c.kind == .signal
  match n with
  | 0x00 => w (if sig then t.stat else t.stat ||| 0x1000)
  | 0x01 => w t.mode
  | 0x02 => w (if sig then c.fstat else t.fstat)
  | 0x03 => t.vl.setWidth 28
  | 0x04 => t.vstart.setWidth 28
  | 0x05 => BitVec.ofNat 28 (b2n t.loop1.act * 2 + b2n t.loop0.act)
  | 0x06 => w t.repc
  | 0x07 => BitVec.ofNat 28 (t.res.toNat * 4 + t.wpos.toNat)
  | 0x08 => w t.loop0.run
  | 0x09 => w t.loop0.head
  | 0x0A => w t.loop0.tail
  | 0x0B => w t.loop1.run
  | 0x0C => w t.loop1.head
  | 0x0D => w t.loop1.tail
  | 0x10 => w t.xpc
  | 0x11 => w t.xcont
  | 0x12 => w t.xrepc
  | 0x13 => w t.xcause
  | 0x14 => t.xaddr
  | 0x20 => w (corectl c)
  | 0x21 => w c.l2vec
  | 0x22 => w c.exvec
  | 0x23 => w c.tmr
  | 0x24 => c.l0win
  | 0x25 => w c.udtstat
  | 0x38 => w (fxOf c t).fxpc
  | 0x39 => w (fxOf c t).fxop
  | 0x3A => (fxOf c t).fxa
  | 0x3B => (fxOf c t).fxb
  | 0x3C => (fxOf c t).fxc
  | 0x50 => w (tctl t)
  | 0x51 => BitVec.ofNat 28 c.xctx
  | 0x52 => BitVec.ofNat 28 tid
  | _ =>
    if 0x28 ≤ n ∧ n ≤ 0x2B then ofLevel c (n - 0x28) (fun u => u.fsave)
    else if 0x2C ≤ n ∧ n ≤ 0x2F then (if sig then ofLevel c (n - 0x2C) (fun u => u.spbase) else t.spbase.setWidth 28)
    else if 0x30 ≤ n ∧ n ≤ 0x33 then (if sig then ofLevel c (n - 0x30) (fun u => u.spp) else t.spp.setWidth 28)
    else if 0x34 ≤ n ∧ n ≤ 0x37 then (if sig then ofLevel c (n - 0x34) (fun u => u.splim) else t.splim.setWidth 28)
    else if 0x40 ≤ n ∧ n ≤ 0x49 then w ((c.evpend >>> (14 * (n - 0x40))).truncate 14)
    else if 0x80 ≤ n then w (evCfg c (n - 0x80))
    else 0

/-- MVS (R106, R235): DIR = 0 reads, DIR = 1 writes with latency 1. An MVS of FSTAT on a signal core uses the F
state (R136). -/
def opMvs (_ : Site) (r : BitVec 5) (sys : BitVec 8) (dir : Bool) (x : IssueCtx) : OpOut :=
  let n := sys.toNat
  let below := x.c.kind == .signal && decide (x.tid < 3)
  match sysDefined x.c.kind n with
  | none => illegalOp [.d]
  | some dbl =>
    { dOut (sysHeld x.c.kind x.tid n && (!dbl || okEven r) && !(dir && below && sysCoreLevel x.c.kind n))
        (if dir then (if dbl then ddName x.t r.toNat else [dName x.t r.toNat]) else [])
        (if dir then
          [.wr (.sys n (if dbl then x.t.rdd r.toNat else (x.t.rd r.toNat).setWidth 28)) 1]
         else if dbl then wrDD x.t r.toNat (sysRead x.c x.tid x.t n) 1
         else [wrD x.t r.toNat ((sysRead x.c x.tid x.t n).truncate 14) 1]) false
      with fuse := x.c.kind == .signal && n == 2 }

/-- TGET Dd, Dc: Lorner-S only; a number not below the context count reads 0 (R236). -/
def opTget (_ : Site) (f : R3) (x : IssueCtx) : OpOut :=
  let k := (x.t.rd f.y.toNat).toNat % 64
  let v := if k < ctxCount x.c.kind then
      (match x.c.threads[k]? with | some u => tctl u | none => 0)
    else 0
  dOut (x.lornerS && okZero f.z && okZero f.b) [dName x.t f.y.toNat] [wrD x.t f.x.toNat v 1] false

/-! ### Writes as they land (R12, R15, R16, R517) -/

/-- Set STAT.CFGERR of the writing level (R111, R517). -/
def cfgErr (t : Thread) : Thread := { t with stat := t.stat ||| 0x2000 }

/-- STAT: PB and bits 4:0 are RW; CFGERR, DZ, CB and AV are W1C; the rest keep their value (R111). -/
def statWrite (old v : Word) : Word :=
  let rw : Word := 0x081F
  let w1c : Word := 0x2700
  ((v &&& rw) ||| (old &&& ~~~rw)) &&& ~~~(v &&& w1c)

/-- MODE: reserved SCL values and WIDE = 1 in service keep the field and set CFGERR (R16, R112, R113). -/
def modeWrite (svc : Bool) (old v : Word) : Word × Bool :=
  let badW := svc && bitOf v 12
  let badS := decide (4 < v.toNat / 64 % 8)
  let plain : Word := 0x203C
  let wide := if badW then old &&& 0x1000 else v &&& 0x1000
  let scl := if badS then old &&& 0x01C0 else v &&& 0x01C0
  ((v &&& plain) ||| wide ||| scl, badW || badS)

/-- FSTAT: enables RW, flags W1C (R114). -/
def fstatWrite (old v : Word) : Word := (v &&& 0x1F00) ||| ((old &&& 0x1F) &&& ~~~(v &&& 0x1F))

/-- UDTSTAT: CFGERR and REJ are W1C, the rest RO (R244). -/
def udtstatWrite (old v : Word) : Word := old &&& ~~~(v &&& 0x3000)

/-- EVCFGn: EN, and the target field; LVL = 11 is reserved on a signal core (R121, R142). The value and CFGERR. -/
def evcfgWrite (k : CoreKind) (old v : Word) : Word × Bool :=
  match k with
  | .signal =>
    let bad := decide (v.toNat % 4 = 3)
    ((v &&& 4) ||| (if bad then old &&& 3 else v &&& 3), bad)
  | .supervisor => (v &&& 0x2007, false)
  | .hub => (v &&& 0x203F, false)

/-- Change one level's fields. -/
def setLevel (c : Core) (n : Nat) (f : Thread → Thread) : Core := { c with threads := modAt c.threads n f }

/-- A context that waits and to which an enabled line n is bound is ready once the line is pending (R142). A level of a
signal core clears its wait bit when the line becomes pending (R126): DEDUCED, a write of EVCFGn does not do so (log entry
132). -/
def wakeBound (c : Core) (n : Nat) : Core :=
  match c.kind with
  | .signal => c
  | k =>
    if c.evpend.getLsbD n && bitOf (evCfg c n) 13 then
      setLevel c ((evCfg c n).toNat % ctxCount k) (fun t => if t.tstate = .waiting then { t with tstate := .ready } else t)
    else c

/-- A write to register n that thread `tid` makes or, with `err` false, that comes through a port: the fields its
access type permits change (R12), reserved encodings keep theirs (R16, R517), and CFGERR is set in the writing
level's STAT. -/
def sysWrite (err : Bool) (c : Core) (tid n : Nat) (v : DWord) : Core :=
  let w : Word := v.truncate 14
  let flag := fun (bad : Bool) (d : Core) => if bad && err then setLevel d tid cfgErr else d
  let sig := c.kind == .signal
  let addr17 := fun (lvl : Nat) (put : BitVec 17 → Thread → Thread) =>
    if 0x10000 < v.toNat % 2 ^ 17 then flag true c else setLevel c lvl (put (v.truncate 17))
  match n with
  | 0x00 => setLevel c tid (fun t => { t with stat := statWrite t.stat w })
  | 0x01 =>
    match c.threads[tid]? with
    | some t =>
      let r := modeWrite c.svc t.mode w
      flag r.2 (setLevel c tid (fun u => { u with mode := r.1 }))
    | none => c
  | 0x02 =>
    if sig then { c with fstat := fstatWrite c.fstat w }
    else setLevel c tid (fun t => { t with fstat := fstatWrite t.fstat w })
  | 0x03 =>
    if 32 < w.toNat % 64 then flag true c else setLevel c tid (fun t => { t with vl := w.truncate 6 })
  | 0x04 => setLevel c tid (fun t => { t with vstart := w.truncate 5 })
  | 0x10 => setLevel c tid (fun t => { t with xpc := w })
  | 0x11 => setLevel c tid (fun t => { t with xcont := w })
  | 0x12 => setLevel c tid (fun t => { t with xrepc := w })
  | 0x20 =>
    let on := bitOf w 11
    let wake := on && !c.vpow && !c.vwaking
    { c with vpin := on, vwaking := c.vwaking || wake, vwakes := if wake then Nat.min (c.vwakes + 1) (2 ^ 48 - 1) else c.vwakes }
  | 0x21 => { c with l2vec := w }
  | 0x22 => { c with exvec := w }
  | 0x23 => { c with tmr := w }
  | 0x24 => { c with l0win := v }
  | 0x25 => { c with udtstat := udtstatWrite c.udtstat w }
  | 0x39 =>
    let bad := decide (12 < w.toNat % 16)
    let upd1 := fun (r : FRec) => { r with fxop := (r.fxop &&& 0x3FF0) ||| (w &&& 0xF) }
    if bad then flag true c
    else if sig then { c with frec := upd1 c.frec }
    else setLevel c tid (fun t => { t with frec := upd1 t.frec })
  | 0x50 => setLevel c tid (fun t => { t with pri := w.truncate 2 })
  | 0x51 => { c with xctx := w.toNat % ctxCount c.kind }
  | _ =>
    if 0x28 ≤ n ∧ n ≤ 0x2B then
      if 0xFFDE < v.toNat % 2 ^ 16 then flag true c
      else setLevel c (n - 0x28) (fun t => { t with fsave := v.truncate 16 })
    else if 0x2C ≤ n ∧ n ≤ 0x2F then addr17 (if sig then n - 0x2C else tid) (fun a t => { t with spbase := a })
    else if 0x30 ≤ n ∧ n ≤ 0x33 then addr17 (if sig then n - 0x30 else tid) (fun a t => { t with spp := a })
    else if 0x34 ≤ n ∧ n ≤ 0x37 then addr17 (if sig then n - 0x34 else tid) (fun a t => { t with splim := a })
    else if 0x40 ≤ n ∧ n ≤ 0x49 then
      { c with evpend := c.evpend &&& ~~~((w.setWidth 128) <<< (14 * (n - 0x40))) }
    else if 0x80 ≤ n then
      let r := evcfgWrite c.kind (evCfg c (n - 0x80)) w
      flag r.2 (wakeBound { c with evcfg := smPut c.evcfg (n - 0x80) (r.1 ^^^ evReset c.kind) } (n - 0x80))
    else c

end Sys2Proof.Machine
end

