-- ==== Sys2Proof/Machine/Pipe.lean ====
section
/-! DEFINITION. Results in flight and their landings (R65): bank writes, the F file and its save areas (R136, R137),
F28 flags and traps (R215–R217), vector accumulation (R187), window loads and page answers (R258, R265), and a
memory with its ECC marks (R269, R270). -/

namespace Sys2Proof.Machine
open Sys2Proof

/-! ### Memories with ECC -/

/-- A write makes its word valid (R271: an error stays until the word is written). -/
def EMem.write {w : Nat} (m : EMem w) (a : Nat) (v : BitVec w) : EMem w :=
  { cells := smPut m.cells a v, corr := m.corr.filter (· != a), unc := m.unc.filter (· != a) }

/-- The words `vs` from `a` upwards. -/
def EMem.writeList {w : Nat} (m : EMem w) : Nat → List (BitVec w) → EMem w
  | _, [] => m
  | a, v :: vs => (m.write a v).writeList (a + 1) vs

/-- A read corrects a single-bit error and writes the word back (R270). -/
def EMem.corrected {w : Nat} (m : EMem w) (a : Nat) : EMem w := { m with corr := m.corr.filter (· != a) }

/-- The same of a table's errors (R269–R271). -/
def EccMarks.written (m : EccMarks) (a : Nat) : EccMarks :=
  { corr := m.corr.filter (· != a), unc := m.unc.filter (· != a) }
def EccMarks.corrected (m : EccMarks) (a : Nat) : EccMarks := { m with corr := m.corr.filter (· != a) }

/-- An entry of the translation tables is written. -/
def putTbl (c : Core) (i : Nat) (v : Word) : Core := { c with tbl := smPut c.tbl i v, tblE := c.tblE.written i }

/-- A word of the user decode table is written. -/
def putUdt (c : Core) (i : Nat) (v : Word) : Core := { c with udt := smPut c.udt i v, udtE := c.udtE.written i }

/-- A saturating counter of `w` bits (R473). -/
def ctrAdd (w n k : Nat) : Nat := Nat.min (n + k) (2 ^ w - 1)

/-! ### Bank writes -/

/-- One bit of a word. -/
def setBit (v : Word) (i : Nat) (b : Bool) : Word :=
  if b then v ||| (1#14 <<< i) else v &&& ~~~(1#14 <<< i)

/-- The STAT bit of a flag, and of a sticky bit (R111). -/
def flagBit : FlagId → Nat
  | .z => 0
  | .n => 1
  | .c => 2
  | .v => 3
  | .dc => 4
def stickyBit : StickyId → Nat
  | .av => 8
  | .cb => 9
  | .dz => 10
  | .cfg => 13

/-- MVP to an accumulator part (R159). -/
def partWrite (wide : Bool) (a : Acc) (p : Nat) (v : Word) : Acc :=
  let put := fun (lo n : Nat) (x : Nat) =>
    BitVec.ofNat 56 (a.toNat - (a.toNat / 2 ^ lo % 2 ^ n) * 2 ^ lo + (x % 2 ^ n) * 2 ^ lo)
  if wide then put (14 * p) 14 v.toNat
  else if p = 3 then a
  else if p = 2 then ((put 28 12 v.toNat).truncate 40).signExtend 56
  else put (14 * p) 14 v.toNat

/-- Element writes of a vector register or accumulator. -/
def putEls {w : Nat} (m : SMap w) (base : Nat) (els : List (Nat × BitVec w)) : SMap w :=
  smPutAll m (els.map (fun e => (base + e.1, e.2)))

/-- Accumulations of one vector operation on VAn: the bank, and whether an element overflowed (R158, R186). -/
def landMac (va : SMap 56) (n : Nat) (wide sat : Bool) (adds : List (Nat × Int)) : SMap 56 × Bool :=
  let rs := adds.map (fun p => (p.1, accOp sat wide (accRead wide (smGet va (32 * n + p.1)) + p.2)))
  (putEls va (32 * n) (rs.map (fun r => (r.1, r.2.acc))), rs.any (fun r => r.2.v))

/-- A running search's pair after its candidate (R191, R192). -/
def landExt (ac : SMap 56) (n : Nat) (cand : Option (Int × Nat)) (isMax wide : Bool) : SMap 56 :=
  match cand with
  | none => ac
  | some (v, k) =>
    let old := accRead wide (smGet ac n)
    if (if isMax then old < v else v < old) then
      smPut (smPut ac n (accWrite wide v)) (n + 1) (BitVec.ofNat 56 k)
    else ac

/-- The write of a register that only the bank holds. -/
def landBank (t : Thread) : RegW → Thread
  | .d p v => { t with d := smPut t.d p v }
  | .a n v => { t with a := smPut t.a n v }
  | .m n v => { t with m := smPut t.m n v }
  | .b n v => { t with b := smPut t.b n v }
  | .l n v => { t with l := smPut t.l n v }
  | .ac n v => { t with ac := smPut t.ac n v }
  | .acPart n p v wide => { t with ac := smPut t.ac n (partWrite wide (smGet t.ac n) p v) }
  | .v n els => { t with v := putEls t.v (32 * n) els }
  | .va n els => { t with va := putEls t.va (32 * n) els }
  | .vmac n adds wide sat =>
    let r := landMac t.va n wide sat adds
    { t with va := r.1, stat := if r.2 then setBit t.stat 8 true else t.stat }
  | .ext n cand isMax wide => { t with ac := landExt t.ac n cand isMax wide }
  | .flag k v => { t with stat := setBit t.stat (flagBit k) v }
  | .sticky k => { t with stat := setBit t.stat (stickyBit k) true }
  | .vl v => { t with vl := v }
  | .vstart v => { t with vstart := v }
  | _ => t

/-! ### The F state -/

/-- The F file of a signal core holds the level's state (R136, R137). -/
def fOwned (c : Core) (tid : Nat) : Bool := c.fownv && c.fown == tid

/-- Address of a level's save area (R122, R137). -/
def fArea (c : Core) (tid : Nat) : Nat :=
  match c.threads[tid]? with
  | some t => t.fsave.toNat
  | none => 0

/-- An F result lands in the F file, in the context's file, or in the level's save area (R137, R139). -/
def landF (c : Core) (tid n : Nat) (v : DWord) : Core :=
  match c.kind with
  | .signal =>
    if fOwned c tid then { c with f := smPut c.f n v }
    else
      let a := fArea c tid + 2 * n
      { c with x := (c.x.write a (v.truncate 14)).write (a + 1) ((v >>> 14).truncate 14) }
  | _ => setLevel c tid (fun t => { t with f := smPut t.f n v })

/-- FSTAT in which an operation of the level sets its flags (log entry 24). -/
def fstatOf (c : Core) (tid : Nat) : Word :=
  match c.kind with
  | .signal => if fOwned c tid then c.fstat else smGet c.x.cells (fArea c tid + 32)
  | _ => match c.threads[tid]? with
    | some t => t.fstat
    | none => 0

/-- Write that FSTAT. -/
def fstatPut (c : Core) (tid : Nat) (v : Word) : Core :=
  match c.kind with
  | .signal =>
    if fOwned c tid then { c with fstat := v } else { c with x := c.x.write (fArea c tid + 32) v }
  | _ => setLevel c tid (fun t => { t with fstat := v })

/-- The trap that flags and a subnormal make due: code 0x06 before 0x05 (R216). -/
def trapCode (fstat : Word) (set : BitVec 5) (sub : Bool) : Option (BitVec 6) :=
  if sub then some 6
  else if (set &&& (fstat >>> 8).truncate 5) ≠ 0 then some 5
  else none

/-- FXOP.OPC (R217). -/
def FRec.opc (r : FRec) : Nat := r.fxop.toNat % 16

/-- Flags of an F operation land: sticky flags, the trap due, and the record while FXOP.OPC = 0 (R215–R217). -/
def landFFlags (c : Core) (tid : Nat) (set : BitVec 5) (sub : Bool) (rec : FRec) : Core :=
  let old := fstatOf c tid
  let c1 := fstatPut c tid (old ||| set.setWidth 14)
  match (if rec.opc = 0 then none else trapCode old set sub) with
  | none => c1
  | some code =>
    let c2 := setLevel c1 tid (fun t =>
      { t with
        trapDue := match t.trapDue with | some k => some k | none => some code
        frec := if c1.kind != .signal && t.frec.opc == 0 then rec else t.frec })
    if c1.kind == .signal && c1.frec.opc == 0 then { c2 with frec := rec } else c2

/-! ### Loads and page answers -/

/-- The words of request `rid` that have arrived (R258). -/
def arrived (t : Thread) (rid : Nat) : List (Nat × Word) :=
  (t.retbuf.filter (fun e => e.1 == rid)).map (fun e => (e.2.1, e.2.2))

/-- A landing's data is there (R258, R265). -/
def RegW.ready (c : Core) (t : Thread) : RegW → Bool
  | .load rid n _ => decide (n ≤ (arrived t rid).length)
  | .page id _ _ => c.pageRes.any (fun p => p.1 == id)
  | _ => true

/-- Bring arrived words to their destination. -/
def landLoad (t : Thread) (rid : Nat) (dst : LoadDst) : Thread :=
  let ws := arrived t rid
  let t1 := { t with retbuf := t.retbuf.filter (fun e => e.1 != rid) }
  match dst with
  | .d p => ws.foldl (fun u e => { u with d := smPut u.d p e.2 }) t1
  | .dd lo hi => ws.foldl (fun u e => { u with d := smPut u.d (if e.1 = 0 then lo else hi) e.2 }) t1
  | .v n => { t1 with v := putEls t1.v (32 * n) ws }
  | .rows n => { t1 with v := putEls t1.v (32 * n) ws }
  | .kept n => { t1 with v := putEls t1.v (32 * n) ws }

/-- A page answer lands: the entry, Z and V, and the drain marker of a freed page (R265, R267). -/
def landPage (c : Core) (tid id tbl vpage : Nat) : Core :=
  match c.pageRes.find? (fun p => p.1 == id) with
  | none => c
  | some (_, e, z, v) =>
    let freed := !z && !v && !bitOf e 13
    let c1 := setLevel c tid (fun t => { t with stat := setBit (setBit t.stat 0 z) 3 v })
    { putTbl c1 (1024 * tbl + vpage) e with
      pageRes := c1.pageRes.filter (fun p => p.1 != id)
      markOut := if freed then c1.markOut ++ [e.toNat % 512] else c1.markOut }

/-- An MVS write lands. FSTAT of a signal core goes where the writing level's F state is, as an F result does (R137, log
entry 24). -/
def landSys (c : Core) (tid n : Nat) (v : DWord) : Core :=
  if n = 2 ∧ c.kind = .signal then fstatPut c tid (fstatWrite (fstatOf c tid) (v.truncate 14))
  else sysWrite true c tid n v

/-- One landing (R65). -/
def landOne (c : Core) (tid : Nat) : RegW → Core
  | .f n v => landF c tid n v
  | .fflags set sub rec => landFFlags c tid set sub rec
  | .sys n v => landSys c tid n v
  | .load rid _ dst => setLevel c tid (fun t => landLoad t rid dst)
  | .page id tbl v => landPage c tid id tbl v
  | w => setLevel c tid (fun t => landBank t w)

/-! ### What is due -/

/-- `p` lands before `q`: by cycle, then by bundle (R65). -/
def Pend.before (p q : Pend) : Bool := p.due < q.due || (p.due == q.due && decide (p.seq < q.seq))

/-- Insert behind every landing that does not come after it. -/
def insPend (p : Pend) : List Pend → List Pend
  | [] => [p]
  | q :: qs => if p.before q then p :: q :: qs else q :: insPend p qs

/-- Landing order; landings of one bundle and cycle keep the order of R61. -/
def sortPend (l : List Pend) : List Pend := l.foldl (fun acc p => insPend p acc) []

/-- The sticky bits that a landing sets on a core: they end set although a clear lands in the same cycle (R13). -/
def stickySets (c : Core) (tid : Nat) : RegW → List RegW
  | .sticky k => [.sticky k]
  | .vmac n adds wide sat =>
    match c.threads[tid]? with
    | some t => if (landMac t.va n wide sat adds).2 then [.sticky .av] else []
    | none => []
  | .fflags set _ _ => [.fflags set false {}]
  | .sys n v =>
    let clear := fun (u : Thread) => { u with stat := setBit u.stat 13 false }
    match (landSys (setLevel c tid clear) tid n v).threads[tid]? with
    | some t => if n ≠ 0 ∧ bitOf t.stat 13 then [.sticky .cfg] else []
    | none => []
  | _ => []

/-- What lands in one cycle, in order, and behind it the sticky bits that it has set (R13, R65). -/
def landCycle (tid : Nat) (c : Core) (ps : List Pend) : Core :=
  let r := ps.foldl (fun q p => (landOne q.1 tid p.w, q.2 ++ stickySets q.1 tid p.w)) (c, ([] : List RegW))
  r.2.foldl (fun k w => landOne k tid w) r.1

/-- Landings in order, cycle by cycle. -/
def landAll (tid : Nat) (c : Core) (ps : List Pend) : Core :=
  (ps.splitBy (fun p q => p.due == q.due)).foldl (landCycle tid) c

/-- The advancing cycle up to which a level's pipeline can go: data that is missing holds it (R258). -/
def landLimit (c : Core) (t : Thread) (n : Nat) : Nat :=
  (t.flight.filter (fun p => !p.w.ready c t)).foldl (fun m p => Nat.min m p.due) n

/-- The core with everything of thread `tid` landed that is due at or before cycle n (R65). -/
def landUpTo (c : Core) (tid n : Nat) : Core :=
  match c.threads[tid]? with
  | none => c
  | some t =>
    let lim := landLimit c t n
    let isNow := fun (p : Pend) => decide (p.due ≤ lim) && p.w.ready c t
    let now := sortPend (t.flight.filter isNow)
    let c1 := setLevel c tid (fun u => { u with flight := u.flight.filter (fun p => !isNow p) })
    landAll tid c1 now

/-- A window load or page answer that falls due at or before cycle n is not there (R258). -/
def loadMissing (c : Core) (t : Thread) (n : Nat) : Bool :=
  t.flight.any (fun p => decide (p.due ≤ n) && !p.w.ready c t)

end Sys2Proof.Machine
end

