-- ==== Sys2Proof/Machine/Control.lean ====
section
/-! DEFINITION. What a bundle's issue does to control flow: hardware loops (R87–R93), branches, calls and returns with
delay slots and costs (R75–R84, R102), register windows and the spill engine (R130, R131), and REP (R95–R98). -/

namespace Sys2Proof.Machine
open Sys2Proof

/-- Change the thread of a core. -/
def onThread (c : Core) (tid : Nat) (f : Thread → Thread) : Core := { c with threads := modAt c.threads tid f }

/-- The next bundle's address by sequential flow, which does not wrap (R59). -/
def goSeq (t : Thread) (n : Nat) : Thread := { t with pc := BitVec.ofNat 14 n, past := decide (0x3FFF < n) }

/-- Control continues at an address. -/
def goTo (t : Thread) (a : IAddr) : Thread := { t with pc := a, past := false }

/-! ### Hardware loops -/

/-- The commit side of R89 for the bundle at `a`: the thread, the head where control goes back, and the bubbles of R90. -/
def tailCommit (t : Thread) (a : IAddr) : Thread × Option IAddr × Nat :=
  let r := loopsPass t.loop0 t.loop1 a.toNat
  ({ t with loop0 := r.1, loop1 := r.2.1 }, r.2.2.1, r.2.2.2)

/-- The bundle at `a` is the tail of an active loop (R87). -/
def isTail (t : Thread) (a : IAddr) : Bool := t.loop0.hit a.toNat || t.loop1.hit a.toNat

/-- An address lies in a loop's body: LHEAD to the last syllable of the tail bundle (R93). -/
def inBody (im : SMap 28) (l : LoopLvl) (a : Nat) : Bool :=
  decide (l.head.toNat ≤ a) && decide (a < l.tail.toNat + bundleSize im l.tail.toNat)

/-- A taken branch or jump from `a` to `tgt` deactivates the loops it leaves (R93). -/
def leaveLoops (im : SMap 28) (t : Thread) (a tgt : Nat) : Thread :=
  if t.loop1.act then
    if inBody im t.loop1 a && !inBody im t.loop1 tgt then
      let t1 := { t with loop1 := { t.loop1 with act := false } }
      if t.loop0.act && !inBody im t.loop0 tgt then { t1 with loop0 := { t.loop0 with act := false } } else t1
    else t
  else if t.loop0.act && inBody im t.loop0 a && !inBody im t.loop0 tgt then
    { t with loop0 := { t.loop0 with act := false } }
  else t

/-- LOOP starts a loop at loop level 0 if it is inactive, else at level 1 (R87, R88). -/
def startLoop (t : Thread) (l : LoopLvl) : Thread :=
  if t.loop0.act then { t with loop1 := l } else { t with loop0 := l }

/-! ### Windows and the spill engine (R130, R131) -/

/-- The sixteen physical registers of the pair at window position p: in-frame, then local frame. -/
def pairRegs (p : BitVec 2) : List Nat := (List.range 16).map (fun k => 8 + 16 * p.toNat + k)

/-- CALLO's spill, or RES + 1: the core, and stall cycles. -/
def windowCall (c : Core) (tid : Nat) (t : Thread) : Core × Nat :=
  if t.res = 2 then
    let ws := (pairRegs (t.wpos - 2)).map (fun r => smGet t.d r)
    (onThread { c with x := c.x.writeList t.spp.toNat ws } tid (fun u => { u with spp := u.spp + 16 }), 6)
  else (onThread c tid (fun u => { u with res := u.res + 1 }), 0)

/-- RETO's fill, or RES − 1: the core, and stall cycles. -/
def windowRet (c : Core) (tid : Nat) (t : Thread) : Core × Nat :=
  if t.res = 0 then
    let base := t.spp.toNat - 16
    let ws := ((pairRegs (t.wpos - 1)).zip (List.range 16)).map (fun p => (p.1, smGet c.x.cells (base + p.2)))
    (onThread c tid (fun u => { u with d := smPutAll u.d ws, spp := u.spp - 16 }), 6)
  else (onThread c tid (fun u => { u with res := u.res - 1 }), 0)

/-! ### Branches, calls and returns -/

/-- BUNDLES_FLUSHED grows (R101, R473). -/
def addFlushed (c : Core) (n : Nat) : Core := { c with flushed := ctrAdd 48 c.flushed n }

/-- A delay slot is to come (R75). -/
def withSlot (c : Core) (tid next : Nat) (s : DSlot) : Core :=
  onThread c tid (fun t => { goSeq t next with dslot := some s })

/-- The return stack takes the DC actions of the bundle at `a`, of a branch or of one that does not issue (R81). -/
def passDc (c : Core) (tid : Nat) (t : Thread) (a : Nat) : Core :=
  let u1 := decoded c t a
  onThread c tid (fun u => { u with rstk := u1.rstk, rsp := u1.rsp })

/-- The delay slot of the branch at `a`, whose redirect is made in E1 or not (R75, R101); `d` is the core with the
direction counters that the branch leaves. -/
def delaySlot (c d : Core) (t : Thread) (a : IAddr) (cont : Option IAddr) (annul : Bool) (window : BitVec 2)
    (bubbles : Nat) (inE1 : Bool) : DSlot :=
  let e := dcEnv c t
  let f := dcEnv d t
  ⟨cont, annul, window, bubbles, slotFronts e f t a.toNat,
    if inE1 then some (frontAtRedirect e f t a.toNat true).held else none⟩

/-- The redirect from E1 that takes effect with the delay slot's issue: the return stack as the discarded bundles' DC
actions leave it, and their number (R81, R101). -/
def slotRedirect (c : Core) (tid : Nat) (t : Thread) : Core :=
  match t.dslot with
  | some s =>
    match s.flush, s.fronts[1]? with
    | some n, some p => addFlushed (onThread c tid (fun u => { u with rstk := p.1, rsp := p.2 })) n
    | _, _ => c
  | none => c

/-- A direction counter's value, and its update (R79). -/
def dirCtr (c : Core) (i : Nat) : Nat := (smGet c.dirctr i ^^^ 1#2).toNat
def dirUpdate (c : Core) (i : Nat) (taken : Bool) : Core :=
  let n := dirCtr c i
  let m := if taken then Nat.min 3 (n + 1) else n - 1
  { c with dirctr := smPut c.dirctr i (BitVec.ofNat 2 m ^^^ 1#2) }

/-- B.cc (R75, R79, R84, R93). -/
def flowBranch (c : Core) (tid : Nat) (t : Thread) (a : IAddr) (next : Nat) (taken annul : Bool) (tgt : IAddr)
    (ctr : Nat) : Core :=
  let pred := !t.pb && decide (2 ≤ dirCtr c ctr)
  let bub := if taken then (if pred then 1 else 4) else (if pred then 4 else 0)
  let c1 := passDc c tid t a.toNat
  let c2 := if t.pb then c1 else dirUpdate c1 ctr taken
  let c3 := if taken then onThread c2 tid (fun u => leaveLoops c.imem.cells u a.toNat tgt.toNat) else c2
  withSlot c3 tid next (delaySlot c c2 t a (if taken then some tgt else none) (annul && !taken) 0 bub (taken != pred))

/-- BRA and JMP (R77, R93). -/
def flowGoto (c : Core) (tid : Nat) (t : Thread) (a : IAddr) (next : Nat) (tgt : IAddr) (inE1 : Bool) : Core :=
  let c1 := passDc c tid t a.toNat
  let c2 := onThread c1 tid (fun u => leaveLoops c.imem.cells u a.toNat tgt.toNat)
  withSlot c2 tid next (delaySlot c c t a (some tgt) false 0 (if inE1 then 4 else 1) inE1)

/-- CALL and CALLO (R78, R81, R84, R130). -/
def flowCall (c : Core) (tid : Nat) (t : Thread) (a : IAddr) (next : Nat) (tgt : IAddr) (inE1 window : Bool) :
    Core × Nat :=
  let c1 := passDc c tid t a.toNat
  let r := if window then windowCall c1 tid t else (c1, 0)
  (withSlot r.1 tid next (delaySlot c c t a (some tgt) false (if window then 1 else 0) (if inE1 then 4 else 1) inE1), r.2)

/-- RET and RETO (R78, R82, R84, R130). -/
def flowRet (c : Core) (tid : Nat) (t : Thread) (a : IAddr) (next : Nat) (tgt : IAddr) (window : Bool) : Core × Nat :=
  let hit := !t.pb && smGet t.rstk t.rsp.toNat == tgt
  let c1 := passDc c tid t a.toNat
  let r := if window then windowRet c1 tid t else (c1, 0)
  (withSlot r.1 tid next (delaySlot c c t a (some tgt) false (if window then 3 else 0) (if hit then 1 else 4) (!hit)), r.2)

/-- LOOP (R87, R90, R91). -/
def flowLoop (c : Core) (tid : Nat) (t : Thread) (a : IAddr) (next count : Nat) (reg : Bool) (tl : IAddr) :
    Core × Nat :=
  let im := c.imem.cells
  if count = 0 then
    let p := frontAtRedirect (dcEnv c t) (dcEnv c t) t a.toNat false
    (addFlushed (onThread c tid (fun u => (goSeq u (tl.toNat + bundleSize im tl.toNat)).withStack p)) p.held, 5)
  else (onThread c tid (fun u => startLoop (goSeq u next) (loopOf im reg count next tl.toNat)), 0)

/-- REP (R95): with a count of 0 the repeated bundle becomes one bubble. DESIGN CHOICE: where that bundle is the tail of
an active loop, it has not issued, so no LRUN is decremented and control goes on behind it (log entry 129). -/
def flowRep (c : Core) (tid : Nat) (t : Thread) (next count : Nat) (intr : Bool) : Core × Nat :=
  if count = 0 then (onThread (passDc c tid t next) tid (fun u => goSeq u (next + bundleSize c.imem.cells next)), 1)
  else (onThread c tid (fun u => { goSeq u next with rep := some ⟨count, intr, true⟩ }), 0)

/-- FLUSHP (R83): every direction counter 1, the level's return stack empty. -/
def flushPredictors (c : Core) (tid : Nat) : Core :=
  onThread { c with dirctr := [] } tid (fun t => { t with rstk := [], rsp := 0 })

/-- Control behind a bundle that may be a tail (R89): the head, or straight on. -/
def goOn (q : Thread × Option IAddr × Nat) (next : Nat) : Thread :=
  match q.2.1 with
  | some h => goTo q.1 h
  | none => goSeq q.1 next

/-- The flow of a bundle without a transfer of its own: behind a delay slot, in a REP, at a tail, or straight on; the
bubbles that follow (R75, R89, R90, R98). A redirect from E1 costs its own bubbles alone (R80). DEDUCED: of a tail bundle
under REP the repetitions count as one pass of the tail, at the last (R98, log entry 130). -/
def flowOn (t : Thread) (a : IAddr) (next : Nat) : Thread × Nat :=
  match t.rep with
  | some r =>
    if 1 < r.left then ({ t with rep := some ⟨r.left - 1, r.intr, false⟩ }, 0)
    else
      let q := tailCommit { t with rep := none } a
      (goOn q next, q.2.2)
  | none =>
    let q := tailCommit t a
    match t.dslot with
    | some s =>
      let u := { q.1 with dslot := none, wpos := q.1.wpos + s.window }
      match s.cont with
      | some tgt => (goTo u tgt, s.bubbles)
      | none => (goOn (u, q.2) next, if s.flush.isSome then s.bubbles else s.bubbles + q.2.2)
    | none => (goOn q next, q.2.2)

/-- Control flow at the issue of the bundle at `a` of `size` syllables, whose C-slot operation asks `k` (none: no
transfer). Answers the core, the bubbles behind the bundle, and stall cycles of the spill engine. -/
def flow (c : Core) (tid : Nat) (t : Thread) (a : IAddr) (size : Nat) (k : Option Ctl) : Core × Nat × Nat :=
  let next := a.toNat + size
  let plain := fun (d0 : Core) (extra : Nat) =>
    let d := slotRedirect d0 tid t
    match d.threads[tid]? with
    | some u => let r := flowOn u a next; (onThread d tid (fun _ => r.1), r.2 + extra, 0)
    | none => (d, 0, 0)
  match k with
  | some (.branch taken annul tgt ctr) => (flowBranch c tid t a next taken annul tgt ctr, 0, 0)
  | some (.goto tgt e) => (flowGoto c tid t a next tgt e, 0, 0)
  | some (.call tgt e w) => let r := flowCall c tid t a next tgt e w; (r.1, 0, r.2)
  | some (.ret tgt w) => let r := flowRet c tid t a next tgt w; (r.1, 0, r.2)
  | some (.loop n reg tl) => let r := flowLoop c tid t a next n reg tl; (r.1, r.2, 0)
  | some (.rep n i) => let r := flowRep c tid t next n i; (r.1, r.2, 0)
  | some (.barp b) => plain (onThread c tid (fun u => { u with stat := setBit u.stat 11 b })) 4
  | some .flushp => plain (flushPredictors c tid) 4
  | _ => plain c 0

end Sys2Proof.Machine
end

