-- ==== Sys2Proof/Machine/Levels.lean ====
section
/-! DEFINITION. Levels and contexts: event lines (R121, R142), readiness and selection (R124, R141), the switch at a
dispatch point (R69, R127, R136), taking a precise exception or an F28 trap (R117–R119, R133, R143, R216), the double
fault (R135), and what RTE, WAITE and the task instructions do (R126, R128, R236, R237). -/

namespace Sys2Proof.Machine
open Sys2Proof

/-! ### Event lines -/

/-- Event lines of a core (R123, R142). -/
def lineCount : CoreKind → Nat
  | .signal => 32
  | .supervisor => 32
  | .hub => 128

/-- Line n is enabled (R121, R142). -/
def lineOn (c : Core) (n : Nat) : Bool :=
  match c.kind with
  | .signal => bitOf (evCfg c n) 2
  | _ => bitOf (evCfg c n) 13

/-- The level or context to which line n is routed (R121, R142). -/
def lineTarget (c : Core) (n : Nat) : Nat :=
  match c.kind with
  | .signal => (evCfg c n).toNat % 4
  | .supervisor => (evCfg c n).toNat % 8
  | .hub => (evCfg c n).toNat % 64

/-- Line n is pending. -/
def linePending (c : Core) (n : Nat) : Bool := c.evpend.getLsbD n

/-- An enabled line routed to level or context k is pending. -/
def lineFor (c : Core) (k : Nat) : Bool :=
  (List.range (lineCount c.kind)).any (fun n => linePending c n && lineOn c n && lineTarget c n == k)

/-- The end of a wait of level or context k (R126, R142). -/
def endWait (c : Core) (k : Nat) : Core :=
  match c.kind with
  | .signal => if k = 0 then { c with l0w := false } else if k = 1 then { c with l1w := false } else c
  | _ => onThread c k (fun t => if t.tstate = .waiting then { t with tstate := .ready } else t)

/-- Line n becomes pending (R121, R126, R142). -/
def raiseLine (c : Core) (n : Nat) : Core :=
  let c1 := { c with evpend := c.evpend ||| (1#128 <<< n) }
  if lineOn c1 n then endWait c1 (lineTarget c1 n) else c1

/-! ### Selection -/

/-- A level or context may run (R124, R141). -/
def readyLevel (c : Core) (k : Nat) : Bool :=
  match c.kind with
  | .signal =>
    if k = 0 then c.l0st && !c.l0w
    else if k = 1 then c.l1st && !c.l1w
    else if k = 2 then c.l2act || lineFor c 2
    else c.l3act
  | _ => match c.threads[k]? with
    | some t => (t.tstate == .ready || t.tstate == .running) && !t.held
    | none => false

/-- The ranking of R124, highest first. -/
def ranking (l0open : Bool) : List Nat := if l0open then [3, 2, 0, 1] else [3, 2, 1, 0]

/-- The context that the scheduler picks (R141): highest PRI, the running one before others, then the lowest number. -/
def pickCtx (c : Core) : Option Nat :=
  let ks := (List.range c.threads.length).filter (readyLevel c)
  let priOf := fun k => match c.threads[k]? with | some t => t.pri.toNat | none => 0
  let top := ks.foldl (fun m k => Nat.max m (priOf k)) 0
  let best := ks.filter (fun k => priOf k == top)
  match c.run with
  | .lvl r => if best.contains r then some r else best.head?
  | .idle => best.head?

/-- The selection at a dispatch point. -/
def pick (c : Core) : Running :=
  match (match c.kind with
    | .signal => (ranking c.l0open).find? (readyLevel c)
    | _ => pickCtx c) with
  | some k => .lvl k
  | none => .idle

/-- The boundary before a level's next bundle is a dispatch point (R70). -/
def dispatchPoint (t : Thread) : Bool :=
  t.dslot.isNone && t.micro.isNone &&
    (match t.rep with
     | some r => r.intr && !r.first
     | none => true)

/-! ### The switch -/

/-- The return stack of a level that parks (R81, R127): `n` bundles behind the next one have reached DC. Before a delay
slot the branch has fetched them. A faulting bundle's issue cycle is no advancing cycle (R71). -/
def parkedStack (c : Core) (t : Thread) (n : Nat) : SMap 14 × BitVec 3 :=
  match t.dslot with
  | some s =>
    match s.fronts[n - 1]? with
    | some p => p
    | none => let u := refetched c t t.pc.toNat n; (u.rstk, u.rsp)
  | none => let u := refetched c t t.pc.toNat n; (u.rstk, u.rsp)

/-- A level parks (R69), and its pending loop copies are dropped (R89). UNVERIFIED beyond the rule: REPC, which the spec
gives only while the level is parked or in an exception, keeps this value while the level runs again (log entry 133).
REPC holds what an interrupted REP has left (R96), and the bundles that are refetched later
have taken their DC actions (R81, R127). `n` bundles behind the next one have reached DC. -/
def park (c : Core) (tid n : Nat) : Core :=
  onThread c tid (fun t =>
    let u := parkedStack c t n
    { t with
      repc := match t.rep with | some r => (if r.intr then BitVec.ofNat 14 r.left else 0) | none => 0
      rstk := u.1
      rsp := u.2
      tstate := if t.tstate = .running then .ready else t.tstate })

/-- Core cycles pass that the core counts (R6): TMR steps down with every 64th of them, but not to 0, which is
CORE_TIMER_EXPIRY's (R121, log entry 96). -/
def Core.spend (c : Core) (n : Nat) : Core :=
  let steps := (c.cycles + n) / 64 - c.cycles / 64
  { c with
    cycles := c.cycles + n
    tmr := if c.tmr.toNat ≤ 1 then c.tmr else BitVec.ofNat 14 (Nat.max 1 (c.tmr.toNat - steps)) }

/-- A level or context takes the core: its first bundle issues 5 cycles later (R127, R141); a change of the running
level clears its FAV (R136); level L2 begins at L2VEC. DESIGN CHOICE: a level that runs again after the core was idle is
no change of the running level, and keeps its FAV (log entry 134). -/
def enter (c : Core) (k : Nat) : Core :=
  let sig := c.kind == .signal
  let newL2 := sig && k == 2 && !c.l2act
  let c1 := onThread c k (fun t =>
    let t1 := if sig && k != c.runShown then { t with stat := setBit t.stat 12 false } else t
    let t2 := if newL2 then { goTo t1 c.l2vec with dslot := none, rep := none, micro := none } else t1
    if sig then t2 else { t2 with tstate := .running })
  ({ c1 with
    run := .lvl k
    runShown := k
    l2act := c.l2act || newL2
    fresh := true
    brkPass := false } : Core).spend 5

/-- The core changes to the selection `sel`; nothing happens where it runs already. -/
def switchTo (c : Core) (sel : Running) : Core :=
  if sel = c.run then c
  else
    let c1 := { (match c.run with
      | .lvl n => park c n 1
      | .idle => c) with asm := [], ghost := [] }
    match sel with
    | .lvl k => enter c1 k
    | .idle => { c1 with run := .idle, fresh := false }

/-! ### Exceptions -/

/-- XCAUSE (R117). -/
def xcauseOf (dslot inrep : Bool) (lvl code : Nat) : Word :=
  BitVec.ofNat 14 (b2n dslot * 2 ^ 13 + b2n inrep * 2 ^ 12 + lvl % 4 * 2 ^ 10 + code % 64)

/-- The exception registers of a fault of thread `t` at its next bundle of `size` syllables (R71, R117). -/
def recordExc (x t : Thread) (lvl : Nat) (e : Exc) (size : Nat) : Thread :=
  { x with
    xpc := t.pc
    xcont := match t.dslot with
      | some _ => (flowOn t t.pc (t.pc.toNat + size)).1.pc
      | none => 0
    xrepc := match t.rep with | some r => BitVec.ofNat 14 r.left | none => 0
    xcause := xcauseOf t.dslot.isSome t.rep.isSome lvl e.code.toNat
    xaddr := e.addr }

/-- The core stops: nothing runs, results in flight are discarded (R135, R271). -/
def stopCore (c : Core) (why : StopCause) : Core :=
  { c with
    stop := some why
    run := .idle
    asm := []
    ghost := []
    stall := none
    fresh := false
    divu := none
    fdivu := none
    inbox := []
    lateReqs := []
    threads := c.threads.map (fun t => { t with flight := [], retbuf := [], micro := none }) }

/-- A double fault (R135). -/
def doubleFault (c : Core) : Core := { stopCore c .doubleFault with df := true, attn := true }

/-- The context-fault line (R142). -/
def ctxFaultLine : CoreKind → Nat
  | .hub => 51
  | _ => 29

/-- An exception of thread `tid` at its next bundle is taken: by level L3 (R133), as a double fault (R135), or by
faulting a context (R143). `n` bundles behind it have reached DC. DESIGN CHOICE: a context has no level, and its XCAUSE.LVL
is 00 (log entry 135). -/
def takeExc (c : Core) (tid : Nat) (e : Exc) (size n : Nat) : Core :=
  match c.threads[tid]? with
  | none => c
  | some t =>
    match c.kind with
    | .signal =>
      if tid = 3 then doubleFault c
      else
        let c1 := park { c with asm := [], ghost := [], stall := none } tid n
        let c2 := onThread c1 3 (fun x =>
          { goTo (recordExc x t tid e size) c.exvec with dslot := none, rep := none, micro := none })
        enter { c2 with l3act := true } 3
    | k =>
      let c1 := park { c with asm := [], ghost := [], stall := none } tid n
      let c2 := onThread c1 tid (fun x => { recordExc x t 0 e size with tstate := .faulted })
      let c3 := raiseLine c2 (ctxFaultLine k)
      if tid = c.xctx then stopCore c3 .halted else switchTo { c3 with run := .idle } (pick { c3 with run := .idle })

/-- A trap that is due at a dispatch point is taken (R216, R221). -/
def takeTrap (c : Core) (tid : Nat) : Core :=
  match c.threads[tid]? with
  | none => c
  | some t =>
    match t.trapDue with
    | none => c
    | some code =>
      takeExc (onThread c tid (fun u => { u with trapDue := none })) tid ⟨code, 0⟩
        (bundleSize c.imem.cells t.pc.toNat) 1

/-- The faulting level or context resumes under R119, by the exception registers of `x`. -/
def resumeThread (im : SMap 28) (x t : Thread) : Thread :=
  let inrep := bitOf x.xcause 12
  let gone := inrep && x.xrepc == 0
  let t1 := if gone then goSeq t (x.xpc.toNat + bundleSize im x.xpc.toNat) else goTo t x.xpc
  { t1 with
    dslot :=
      if bitOf x.xcause 13 then
        some { (t.dslot.getD ⟨none, false, 0, 0, [], none⟩) with fronts := [], flush := none, cont := some x.xcont, annul := false }
      else none
    rep :=
      if inrep && !gone then
        some ⟨x.xrepc.toNat, (match t.rep with | some r => r.intr | none => true), false⟩
      else none }

/-- RTE (R119, R128). -/
def doRte (c : Core) (tid : Nat) : Core :=
  if tid = 3 then
    match c.threads[3]? with
    | none => c
    | some x =>
      let lvl := (x.xcause.toNat / 1024) % 4
      let c1 := onThread c lvl (fun t => resumeThread c.imem.cells x t)
      let c2 := { c1 with l3act := false, run := .idle }
      switchTo c2 (pick c2)
  else
    let c2 := { c with l2act := false, run := .idle }
    switchTo c2 (pick c2)

/-- WAITE (R126, R142). Level L0 that waits gives up the rest of its window (R125, log entry 136). -/
def doWaite (c : Core) (tid : Nat) : Core :=
  let d := if tid = 1 then { c with checkpointDue := false } else c
  if lineFor c tid then d
  else match c.kind with
    | .signal => if tid = 0 then { d with l0w := true, l0open := false } else { d with l1w := true }
    | _ => onThread d tid (fun t => { t with tstate := .waiting })

/-- TSTART, TRESUME, TSTOP and TSET on context k (R236). -/
def doTstart (c : Core) (k : Nat) (e : IAddr) : Core :=
  onThread c k (fun t =>
    if t.tstate = .stopped then
      { goTo t e with tstate := .ready, entry := e, dslot := none, rep := none, micro := none }
    else t)
def doTresume (c : Core) (k : Nat) : Core :=
  onThread c k (fun t =>
    if t.tstate = .faulted then { resumeThread c.imem.cells t t with tstate := .ready } else t)
def doTstop (c : Core) (k : Nat) : Core :=
  onThread c k (fun t => if t.tstate = .running then { t with stopReq := true } else { t with tstate := .stopped })
def doTset (c : Core) (k : Nat) (p : BitVec 2) : Core :=
  if k < ctxCount c.kind then onThread c k (fun t => { t with pri := p }) else c

/-- What a C-slot operation does besides its transfer. -/
def doCtl (c : Core) (tid : Nat) : Option Ctl → Core
  | some .rte => doRte c tid
  | some .waite => doWaite c tid
  | some (.tstart k e) => doTstart c k e
  | some (.tresume k) => doTresume c k
  | some (.tstop k) => doTstop c k
  | some (.tset k p) => doTset c k p
  | _ => c

/-- The boundary behind a bundle of thread `tid`: a level that no longer may run, or a context that TSTOP named, leaves
the core at once if the boundary is a dispatch point (R126, R237). -/
def afterBundle (c : Core) (tid : Nat) : Core :=
  match c.threads[tid]? with
  | none => c
  | some t =>
    if c.run != .lvl tid || !dispatchPoint t || t.trapDue.isSome then c
    else if t.stopReq then
      let c1 := switchTo c .idle
      let c2 := onThread c1 tid (fun u => { u with stopReq := false, tstate := .stopped })
      switchTo c2 (pick c2)
    else if readyLevel c tid then c
    else
      let c1 := switchTo c .idle
      switchTo c1 (pick c1)

/-- A dispatch is due: another selection than the running level, a trap, or TSTOP (R124, R216, R237). -/
def dispatchDue (c : Core) : Bool :=
  match c.run with
  | .idle => pick c != .idle
  | .lvl k =>
    match c.threads[k]? with
    | none => false
    | some t => t.trapDue.isSome || t.stopReq || pick c != c.run

/-- The running level stands at a dispatch point; an idle core always does (R127). -/
def atDispatchPoint (c : Core) : Bool :=
  !c.fresh && c.stall.isNone &&
    (match c.run with
     | .idle => true
     | .lvl k => match c.threads[k]? with
       | some t => dispatchPoint t
       | none => false)

/-- The dispatch at a dispatch point (R124, R127, R141, R216, R237). -/
def dispatch (c : Core) : Core :=
  match c.run with
  | .idle => switchTo c (pick c)
  | .lvl k =>
    match c.threads[k]? with
    | none => c
    | some t =>
      if t.trapDue.isSome then takeTrap c k
      else if t.stopReq then afterBundle c k
      else switchTo c (pick c)

/-- A reset or the bench monitor holds the core. -/
def Core.isHalted (c : Core) : Bool := c.halted || c.held

/-- The core runs: it is neither halted nor stopped. -/
def Core.live (c : Core) : Bool := !c.isHalted && c.stop.isNone

/-- The bench monitor halts the core at the bundle boundary where its next bundle begins: the running level parks and
keeps its place (R69, R485). -/
def haltCore (c : Core) : Core :=
  match c.run with
  | .idle => { c with held := true, stepLeft := none, asm := [], ghost := [], stall := none }
  | .lvl n => { park c n 1 with held := true, stepLeft := none, asm := [], ghost := [], stall := none }

/-- A bundle of a STEP has issued: the last one halts the core (R485). -/
def countStep (c : Core) : Core :=
  match c.stepLeft with
  | none => c
  | some n => if n ≤ 1 then haltCore c else { c with stepLeft := some (n - 1) }

end Sys2Proof.Machine
end

