-- ==== Sys2Proof/Machine/OpsA.lean ====
section
/-! DEFINITION. The address class (R226): loads and stores (R250–R252), vector loads, stores, gathers and scatters
(R194–R200), address arithmetic, PALLOC and PFREE (R265, R268). Each definition is the operation's answer at its
issue (`OpOut`). -/

namespace Sys2Proof.Machine
open Sys2Proof

/-- The slot of an address operation (R56, R222). -/
def slotOf : ASlot → SlotK
  | .a0 => .a0
  | .a1 => .a1

/-- The slot is A1. -/
def isA1 : ASlot → Bool
  | .a0 => false
  | .a1 => true

/-- Register writes that bring loaded words, by element, to a load's destination. -/
def loadWrites (dst : LoadDst) (els : List (Nat × Word)) : List RegW :=
  match dst with
  | .d p => els.map (fun e => .d p e.2)
  | .dd lo hi => els.map (fun e => .d (if e.1 = 0 then lo else hi) e.2)
  | .v n => [.v n els]
  | .rows n => [.v n els]
  | .kept n => [.v n els]

/-- The post-update of An and the CB it sets, landing with latency 1 (R250, R251). -/
def postUpdate (n : Nat) (post : Option AWord) (cb : Bool) : List Act :=
  (match post with | some a => [.wr (.a n a) 1] | none => []) ++ wrSticky .cb cb 1

/-- The exceptions of an access: none, or one page fault, of a vector at the lowest faulting address (R196), of a double
word at the first word that fails (R247, R252, R264). -/
def accessFault (vec : Bool) (ts : List (Nat × AWord × Target)) : List Exc :=
  match (ts.filter (fun p => p.2.2 == .pageFault)).map (fun p => p.2.1.toNat) with
  | [] => []
  | a :: as => [pageFaultAt (BitVec.ofNat 24 (if vec then as.foldl Nat.min a else a))]

/-- The effects of reading the words at `ts` into `dst`: X and Y words land with latency 2, window words with
latency 16 (R66, R194). -/
def loadActs (c : Core) (ts : List (Nat × AWord × Target)) (dst : LoadDst) : List Act :=
  let xy := ts.filterMap (fun p => match p.2.2 with
    | .x a => some (p.1, readXY c (.x a))
    | .y a => some (p.1, readXY c (.y a))
    | _ => none)
  let win := ts.filterMap (fun p => (offsetOf p.2.2).map (fun o => (p.1, o.1, o.2)))
  (loadWrites dst xy).map (fun w => .wr w 2) ++ (if win = [] then [] else [.load win dst])

/-- The effects of storing words, with their targets in element order: X and Y at once, window words through the
store buffer (R248, R273). -/
def storeActs (a1 : Bool) (ts : List (Target × Word)) : List Act :=
  let win := ts.filterMap (fun p => (offsetOf p.1).map (fun o => (o.1, o.2, p.2)))
  ts.filterMap (fun p => match p.1 with
    | .x a => some (.store false a p.2)
    | .y a => some (.store true a p.2)
    | _ => none) ++ (if win = [] then [] else [.put a1 win])

/-- The answer of a load of the elements at `adrs`. -/
def loadOut (x : IssueCtx) (sl : ASlot) (adrs : List (Nat × AWord)) (dst : LoadDst) (n : Nat)
    (post : Option AWord) (cb vec : Bool) : OpOut :=
  let ts := targets x (isA1 sl) false adrs
  { slots := [slotOf sl]
    excs := accessFault vec ts
    acts := loadActs x.c ts dst ++ postUpdate n post cb
    vec := vec
    wflags := true
    touch := ts.flatMap (fun p => touchOf p.2.2)
    look := (adrs.flatMap (fun p => lookOf x p.2)).dedup
    later := regNames (.load 0 0 dst) }

/-- The answer of a store of `ws` at `adrs`, element by element. -/
def storeOut (x : IssueCtx) (sl : ASlot) (adrs : List (Nat × AWord)) (ws : List Word) (reads : List WName) (n : Nat)
    (post : Option AWord) (cb vec : Bool) : OpOut :=
  let ts := targets x (isA1 sl) true adrs
  { slots := [slotOf sl]
    excs := accessFault vec ts
    reads := reads
    acts := storeActs (isA1 sl) ((ts.map (fun p => p.2.2)).zip ws) ++ postUpdate n post cb
    vec := vec
    wflags := true
    look := (adrs.flatMap (fun p => lookOf x p.2)).dedup }

/-- LD Dd, ea (R226, R250). -/
def opLd (_ : Site) (f : AMF) (x : IssueCtx) : OpOut :=
  let n := f.an.toNat
  match amode x.t n f.am f.mm 1 with
  | none => illegalOp [slotOf f.slot]
  | some (ea, post, cb) =>
    loadOut x f.slot [(0, ea)] (.d (dPhys x.t.wpos f.x.toNat)) n post cb false

/-- The second address of a double-word access, and the CB it may set (R252). -/
def secondAddr (t : Thread) (n : Nat) (am : BitVec 3) (ea : AWord) : AWord × Bool :=
  let r := upd t n ea 1
  (r.1, r.2 && am != 0)

/-- LD.D Dk, ea (R252). -/
def opLdD (_ : Site) (f : AMF) (x : IssueCtx) : OpOut :=
  let n := f.an.toNat
  match amode x.t n f.am f.mm 2 with
  | none => illegalOp [slotOf f.slot]
  | some (ea, post, cb) =>
    let h := secondAddr x.t n f.am ea
    whenLegal (okEven f.x) [slotOf f.slot]
      (loadOut x f.slot [(0, ea), (1, h.1)]
        (.dd (dPhys x.t.wpos f.x.toNat) (dPhys x.t.wpos (f.x.toNat + 1))) n post (cb || h.2) false)

/-- ST ea, Ds (R226, R250). -/
def opSt (_ : Site) (f : AMF) (x : IssueCtx) : OpOut :=
  let n := f.an.toNat
  match amode x.t n f.am f.mm 1 with
  | none => illegalOp [slotOf f.slot]
  | some (ea, post, cb) =>
    storeOut x f.slot [(0, ea)] [x.t.rd f.x.toNat] [dName x.t f.x.toNat] n post cb false

/-- ST.D ea, Dk (R252). -/
def opStD (_ : Site) (f : AMF) (x : IssueCtx) : OpOut :=
  let n := f.an.toNat
  match amode x.t n f.am f.mm 2 with
  | none => illegalOp [slotOf f.slot]
  | some (ea, post, cb) =>
    let h := secondAddr x.t n f.am ea
    whenLegal (okEven f.x) [slotOf f.slot]
      (storeOut x f.slot [(0, ea), (1, h.1)] [x.t.rd f.x.toNat, x.t.rd (f.x.toNat + 1)]
        (ddName x.t f.x.toNat) n post (cb || h.2) false)

/-- Element addresses of a vector access: elements `lo` to VL − 1, element i displaced by `disp i` from An, with the
circular rule (R194), and whether one of them sets CB. DESIGN CHOICE: the displacement of a strided access with a circular
pointer is the exact product, to which the one circular correction is made before the sum is cut to 24 bits (log entry
131). -/
def vecAddrs (t : Thread) (n lo : Nat) (disp : Nat → Int) : List (Nat × AWord) × Bool :=
  let rs := ((List.range t.vl.toNat).filter (fun k => lo ≤ k)).map (fun k => (k, upd t n (smGet t.a n) (disp k)))
  (rs.map (fun p => (p.1, p.2.1)), rs.any (fun p => p.2.2))

/-- Vt of a stored or loaded vector register by element. -/
def vecWords (t : Thread) (n : Nat) (ks : List (Nat × AWord)) : List Word := ks.map (fun p => t.rv n p.1)

/-- The mode of VLD and VST: AM 001 steps by VL, AM 011 by Mm; every other value is reserved (R194, R226). -/
def vecMode (t : Thread) (f : AMF) : Option (AWord × Option AWord × Bool) :=
  if f.am = 1 ∨ f.am = 3 then amode t f.an.toNat f.am f.mm t.vl.toNat else none

/-- VLD Vd, ea (R194). -/
def opVld (_ : Site) (f : AMF) (x : IssueCtx) : OpOut :=
  let n := f.an.toNat
  match vecMode x.t f with
  | none => illegalOp [slotOf f.slot]
  | some (_, post, cb) =>
    let as := vecAddrs x.t n 0 (fun k => k)
    whenLegal (ok16 f.x && x.vecLevel) [slotOf f.slot]
      (loadOut x f.slot as.1 (.v f.x.toNat) n post (cb || as.2) true)

/-- VST ea, Vs (R194). -/
def opVst (_ : Site) (f : AMF) (x : IssueCtx) : OpOut :=
  let n := f.an.toNat
  match vecMode x.t f with
  | none => illegalOp [slotOf f.slot]
  | some (_, post, cb) =>
    let as := vecAddrs x.t n 0 (fun k => k)
    whenLegal (ok16 f.x && x.vecLevel) [slotOf f.slot]
      (storeOut x f.slot as.1 (vecWords x.t f.x.toNat as.1) [] n post (cb || as.2) true)

/-- VLDS Vd, (An), Mm (R194). -/
def opVlds (_ : Site) (f : AMF) (x : IssueCtx) : OpOut :=
  let n := f.an.toNat
  let m := (smGet x.t.m f.mm.toNat).toInt
  let as := vecAddrs x.t n 0 (fun k => k * m)
  whenLegal (okZero f.am && ok16 f.x && x.vecLevel) [slotOf f.slot]
    (loadOut x f.slot as.1 (.v f.x.toNat) n none as.2 true)

/-- VSTS (An), Mm, Vs (R194). -/
def opVsts (_ : Site) (f : AMF) (x : IssueCtx) : OpOut :=
  let n := f.an.toNat
  let m := (smGet x.t.m f.mm.toNat).toInt
  let as := vecAddrs x.t n 0 (fun k => k * m)
  whenLegal (okZero f.am && ok16 f.x && x.vecLevel) [slotOf f.slot]
    (storeOut x f.slot as.1 (vecWords x.t f.x.toNat as.1) [] n none as.2 true)

/-- The elements of a gather or scatter in ascending order, up to the first whose page is not reached (R197). -/
def untilFault : List (Nat × AWord × Target) → List (Nat × AWord × Target) × Option (Nat × AWord)
  | [] => ([], none)
  | p :: ps =>
    if p.2.2 = .pageFault then ([], some (p.1, p.2.1))
    else let r := untilFault ps; (p :: r.1, r.2)

/-- VSTART after a fault at element k (R197). -/
def gatherFault (flt : Option (Nat × AWord)) : List Exc :=
  match flt with
  | some (_, a) => [pageFaultAt a]
  | none => []

/-- VLDX Vd, (An), Vt (R194, R197). -/
def opVldx (_ : Site) (f : AXF) (x : IssueCtx) : OpOut :=
  let n := f.an.toNat
  let as := vecAddrs x.t n x.t.vstart.toNat (fun k => (x.t.rv f.vt.toNat k).toNat)
  let u := untilFault (targets x (isA1 f.slot) false as.1)
  let ld := loadActs x.c u.1 (.v f.x.toNat)
  whenLegal (ok16 f.x && x.vecLevel) [slotOf f.slot]
    { slots := [slotOf f.slot]
      excs := gatherFault u.2
      acts := ld ++ [.wr (.vstart 0) 1] ++ wrSticky .cb as.2 1
      keep := match u.2 with
        | some (k, _) => loadActs x.c u.1 (.kept f.x.toNat) ++ [.wr (.vstart (BitVec.ofNat 5 k)) 0]
        | none => []
      vec := true
      wflags := true
      vx := true
      touch := u.1.flatMap (fun p => touchOf p.2.2)
      look := (as.1.flatMap (fun p => lookOf x p.2)).dedup
      later := [.v f.x.toNat] }

/-- VSTX (An), Vt, Vs (R194, R197). -/
def opVstx (_ : Site) (f : AXF) (x : IssueCtx) : OpOut :=
  let n := f.an.toNat
  let as := vecAddrs x.t n x.t.vstart.toNat (fun k => (x.t.rv f.vt.toNat k).toNat)
  let u := untilFault (targets x (isA1 f.slot) true as.1)
  let st := storeActs (isA1 f.slot) (u.1.map (fun p => (p.2.2, x.t.rv f.x.toNat p.1)))
  whenLegal (ok16 f.x && x.vecLevel) [slotOf f.slot]
    { slots := [slotOf f.slot]
      excs := gatherFault u.2
      acts := st ++ [.wr (.vstart 0) 1] ++ wrSticky .cb as.2 1
      keep := match u.2 with
        | some (k, _) => st ++ [.wr (.vstart (BitVec.ofNat 5 k)) 0]
        | none => []
      vec := true
      wflags := true
      vx := true
      look := (as.1.flatMap (fun p => lookOf x p.2)).dedup }

/-- AADD An, Mm (R250). -/
def opAadd (_ : Site) (f : AMF) (x : IssueCtx) : OpOut :=
  let n := f.an.toNat
  let r := upd x.t n (smGet x.t.a n) (smGet x.t.m f.mm.toNat).toInt
  whenLegal (okZero f.x && okZero f.am) [slotOf f.slot]
    { slots := [slotOf f.slot], acts := postUpdate n (some r.1) r.2, wflags := true }

/-- AADDI An, #i12 (R250). -/
def opAaddi (_ : Site) (sl : ASlot) (an : BitVec 4) (imm : BitVec 12) (x : IssueCtx) : OpOut :=
  let n := an.toNat
  let r := upd x.t n (smGet x.t.a n) imm.toInt
  { slots := [slotOf sl], acts := postUpdate n (some r.1) r.2, wflags := true }

/-- AMV Rd, Rs (R226, R225). -/
def opAmv (_ : Site) (sl : ASlot) (rd rs : BitVec 6) (x : IssueCtx) : OpOut :=
  whenLegal (okSel rd && okSel rs) [slotOf sl]
    { slots := [slotOf sl], acts := [.wr (selW rd (x.t.rsel rs)) 1] }

/-- AMOVL R, #u12 (R226). -/
def opAmovl (_ : Site) (sl : ASlot) (r : BitVec 6) (imm : BitVec 12) (_ : IssueCtx) : OpOut :=
  whenLegal (okSel r) [slotOf sl]
    { slots := [slotOf sl], acts := [.wr (selW r (imm.setWidth 24)) 1] }

/-- AMOVH R, #u12 (R226). -/
def opAmovh (_ : Site) (sl : ASlot) (r : BitVec 6) (imm : BitVec 12) (x : IssueCtx) : OpOut :=
  whenLegal (okSel r) [slotOf sl]
    { slots := [slotOf sl], acts := [.wr (selW r (imm ++ (x.t.rsel r).truncate 12)) 1] }

/-- The table on which PALLOC and PFREE act (R262, R268). -/
def pageTable (x : IssueCtx) : Nat :=
  match x.c.kind with
  | .signal => tableOf x.c x.tid x.t
  | _ =>
    if x.tid = x.c.xctx then
      match (List.range x.c.threads.length).find? (fun k =>
          match x.c.threads[k]? with
          | some u => u.tstate == .faulted && u.xcause.toNat % 64 == 2
          | none => false) with
      | some k => k
      | none => x.tid
    else x.tid

/-- PALLOC and PFREE (R265): An outside the shared window faults (R247). -/
def pageOut (alloc : Bool) (f : AMF) (x : IssueCtx) : OpOut :=
  let a := (smGet x.t.a f.an.toNat).toNat
  let inWin := decide (0x400000 ≤ a) && decide (a < 0x800000) && x.c.kind != .hub
  whenLegal (okZero f.x && okZero f.am && okZero f.mm) [slotOf f.slot]
    { slots := [slotOf f.slot]
      excs := if inWin then [] else [pageFaultAt (smGet x.t.a f.an.toNat)]
      acts := [.page alloc (isA1 f.slot) (pageTable x) ((a - 0x400000) / 4096)]
      wflags := true }

/-- PALLOC An (R265). -/
def opPalloc (_ : Site) (f : AMF) (x : IssueCtx) : OpOut := pageOut true f x

/-- PFREE An (R265). -/
def opPfree (_ : Site) (f : AMF) (x : IssueCtx) : OpOut := pageOut false f x

end Sys2Proof.Machine
end

