-- ==== Sys2Proof/Machine/OpsC.lean ====
section
/-! DEFINITION. The control class (R230): branches, calls and returns (R73–R78, R130), LOOP and REP (R87, R95), BARP
and FLUSHP (R83), SIGNAL (R275), WAITE and RTE (R126, R128), and the task instructions of a Lorner-S core (R236).
Each definition is the operation's answer at its issue; what its control flow does stands in Control.lean. -/

namespace Sys2Proof.Machine
open Sys2Proof

/-- The answer of a C-slot operation that is legal when `ok` holds. -/
def cOut (ok : Bool) (reads : List WName) (acts : List Act) (excl : Bool) : OpOut :=
  { whenLegal ok [.c] { slots := [.c], reads := reads, acts := acts } with excl := excl }

/-- NOP; the short no-operation occupies no slot (R61). -/
def opNop (i : Site) (_ : IssueCtx) : OpOut := if i.short then {} else cOut true [] [] false

/-- The conditions of R73; none for the reserved value. -/
def condition (t : Thread) (cc : BitVec 4) : Option Bool :=
  match cc.toNat with
  | 0 => some t.flagZero
  | 1 => some (!t.flagZero)
  | 2 => some t.flagNeg
  | 3 => some (!t.flagNeg)
  | 4 => some t.flagC
  | 5 => some (!t.flagC)
  | 6 => some t.flagV
  | 7 => some (!t.flagV)
  | 8 => some (t.flagC && !t.flagZero)
  | 9 => some (!t.flagC || t.flagZero)
  | 10 => some (t.flagNeg == t.flagV)
  | 11 => some (t.flagNeg != t.flagV)
  | 12 => some (!t.flagZero && t.flagNeg == t.flagV)
  | 13 => some (t.flagZero || t.flagNeg != t.flagV)
  | 14 => some t.flagDC
  | _ => none

/-- B.cc and B.cc.A (R73–R79). -/
def opBCc (i : Site) (cc : BitVec 4) (a : Bool) (disp : BitVec 12) (x : IssueCtx) : OpOut :=
  match condition x.t cc with
  | none => cOut false [] [] true
  | some tk =>
    cOut true [] [.ctl (.branch tk a (x.pc + disp.signExtend 14) ((x.pc.toNat + i.syl.toNat) % 1024))] true

/-- BRA (R77). -/
def opBra (_ : Site) (a : Bool) (disp : IAddr) (x : IssueCtx) : OpOut :=
  cOut (!a) [] [.ctl (.goto (x.pc + disp) false)] true

/-- CALL's return address (R78). -/
def IssueCtx.retAddr (x : IssueCtx) : IAddr :=
  let d := x.pc.toNat + x.size
  BitVec.ofNat 14 (d + bundleSize x.c.imem.cells d)

/-- CALL's write of A15 with its transfer (R78, R130). A windowed call raises code 3 where the spill engine finds no
room, and at level L3 whenever it would spill (R131, R135). -/
def callOut (x : IssueCtx) (a inE1 window : Bool) (tgt : IAddr) : OpOut :=
  let spill := window && x.t.res == 2
  let l3 := x.c.kind == .signal && x.tid == 3
  let full := decide (x.t.splim.toNat < x.t.spp.toNat + 16)
  { cOut (!a) [] [.wr (.a 15 (x.retAddr.setWidth 24)) 1, .ctl (.call tgt inE1 window)] true with
    excs := (if a then [⟨1, 0⟩] else []) ++ (if spill && (l3 || full) then [⟨3, x.t.spp.setWidth 28⟩] else []) }

/-- CALL (R78). -/
def opCall (_ : Site) (a : Bool) (disp : IAddr) (x : IssueCtx) : OpOut := callOut x a false false (x.pc + disp)
/-- CALLO (R130). -/
def opCallo (_ : Site) (a : Bool) (disp : IAddr) (x : IssueCtx) : OpOut := callOut x a false true (x.pc + disp)

/-- An[13:0] (R77). -/
def IssueCtx.anTarget (x : IssueCtx) (an : Nat) : IAddr := (smGet x.t.a an).truncate 14

/-- JMP An (R77). -/
def opJmp (_ : Site) (a : Bool) (an : BitVec 4) (x : IssueCtx) : OpOut :=
  cOut (!a) [] [.ctl (.goto (x.anTarget an.toNat) true)] true
/-- CALL An (R77, R78). -/
def opCallAn (_ : Site) (a : Bool) (an : BitVec 4) (x : IssueCtx) : OpOut :=
  callOut x a true false (x.anTarget an.toNat)
/-- CALLO An (R130). -/
def opCalloAn (_ : Site) (a : Bool) (an : BitVec 4) (x : IssueCtx) : OpOut :=
  callOut x a true true (x.anTarget an.toNat)

/-- RET and RETO (R78, R130); a windowed return raises code 4 where the spill area is empty (R131), and a fill reads its
sixteen words of X memory (R132). -/
def retOut (x : IssueCtx) (a window : Bool) : OpOut :=
  let fill := window && x.t.res == 0
  let empty := decide (x.t.spp.toNat < x.t.spbase.toNat + 16)
  { cOut (!a) [] [.ctl (.ret (x.anTarget 15) window)] true with
    excs := (if a then [⟨1, 0⟩] else []) ++ (if fill && empty then [⟨4, x.t.spp.setWidth 28⟩] else [])
    touch := if fill then (List.range 16).map (fun k => (.x, x.t.spp.toNat - 16 + k)) else [] }

/-- RET (R78). -/
def opRet (_ : Site) (a : Bool) (x : IssueCtx) : OpOut := retOut x a false
/-- RETO (R130). -/
def opReto (_ : Site) (a : Bool) (x : IssueCtx) : OpOut := retOut x a true

/-- RTE: levels L2 and L3 alone (R128). -/
def opRte (_ : Site) (x : IssueCtx) : OpOut :=
  { cOut (x.c.kind == .signal && decide (2 ≤ x.tid)) [] [.ctl .rte] false with isRte := true }

/-- LOOP (R87, R88, R91, R230): LTAIL within instruction memory and not inside the LOOP bundle, a free loop level. -/
def opLoop (_ : Site) (f : LoopF) (x : IssueCtx) : OpOut :=
  let go := fun (count : Nat) (reg : Bool) (disp : Nat) (reads : List WName) =>
    cOut (decide (x.size ≤ disp) && decide (x.pc.toNat + disp ≤ 0x3FFF) && !(x.t.loop0.act && x.t.loop1.act)) reads
      [.ctl (.loop count reg (BitVec.ofNat 14 (x.pc.toNat + disp)))] true
  match f with
  | .imm c d => go (c.toNat + 1) false d.toNat []
  | .reg ds d => go (x.t.rd ds.toNat).toNat true d.toNat [dName x.t ds.toNat]

/-- REP (R95, R96): with I = 0 a register count above 1,024 is illegal. -/
def opRep (_ : Site) (f : RepF) (x : IssueCtx) : OpOut :=
  match f with
  | .imm c i => { cOut true [] [.ctl (.rep (c.toNat + 1) i)] true with isRep := true }
  | .reg ds i =>
    let n := (x.t.rd ds.toNat).toNat
    { cOut (i || decide (n ≤ 1024)) [dName x.t ds.toNat] [.ctl (.rep n i)] true with isRep := true }

/-- BARP #b (R83). -/
def opBarp (_ : Site) (b : Bool) (_ : IssueCtx) : OpOut := { cOut true [] [.ctl (.barp b)] true with later := [.sys 0] }
/-- FLUSHP (R83). -/
def opFlushp (_ : Site) (_ : IssueCtx) : OpOut := cOut true [] [.ctl .flushp] true
/-- SIGNAL #u3: C[5:3] are reserved (R230, R275). -/
def opSignal (_ : Site) (c : BitVec 6) (_ : IssueCtx) : OpOut :=
  cOut (decide (c.toNat < 8)) [] [.signal (c.truncate 3)] false
/-- WAITE: illegal at level L2, a double fault at level L3 (R126, R135). -/
def opWaite (_ : Site) (x : IssueCtx) : OpOut :=
  cOut (x.c.kind != .signal || decide (x.tid < 2)) [] [.ctl .waite] false

/-- A task instruction that names context c in its C field (R233, R236). -/
def taskOut (x : IssueCtx) (c : BitVec 6) (reads : List WName) (k : Ctl) : OpOut :=
  cOut (x.lornerS && decide (c.toNat < ctxCount x.c.kind)) reads [.ctl k] false

/-- TSTART c, Ds (R236). -/
def opTstart (_ : Site) (ds : BitVec 5) (c : BitVec 6) (x : IssueCtx) : OpOut :=
  taskOut x c [dName x.t ds.toNat] (.tstart c.toNat (x.t.rd ds.toNat))
/-- TRESUME c (R236). -/
def opTresume (_ : Site) (c : BitVec 6) (x : IssueCtx) : OpOut := taskOut x c [] (.tresume c.toNat)
/-- TSTOP c (R236). -/
def opTstop (_ : Site) (c : BitVec 6) (x : IssueCtx) : OpOut := taskOut x c [] (.tstop c.toNat)
/-- TSET Dc, Ds: Dc[5:0] names the context, Ds[1:0] is the priority (R236). -/
def opTset (_ : Site) (f : R3) (x : IssueCtx) : OpOut :=
  cOut (x.lornerS && okZero f.x && okZero f.b) [dName x.t f.y.toNat, dName x.t f.z.toNat]
    [.ctl (.tset ((x.t.rd f.y.toNat).toNat % 64) ((x.t.rd f.z.toNat).truncate 2))] false

end Sys2Proof.Machine
end

