-- ==== Sys2Proof/Machine/OpsF.lean ====
section
/-! DEFINITION. The floating-point class (R209, R229): what each F operation reads, writes and sets, with the FSTAT
flags, the traps of R216 and the record of R217. Each definition is the operation's answer at its issue. -/

namespace Sys2Proof.Machine
open Sys2Proof

/-- The answer of an F-slot operation that is legal when `ok` holds (R136, R209). -/
def fOut (ok : Bool) (reads : List WName) (acts : List Act) : OpOut :=
  whenLegal ok [.f] { slots := [.f], reads := reads, acts := acts, fuse := true }

/-- The record of R217 for operation `opc`; OPC 0, which makes no trap due, at level L3 (R216). -/
def fRecord (x : IssueCtx) (opc dest : Nat) (a b c : DWord) : FRec :=
  let signal := x.c.kind == .signal
  if signal && x.tid == 3 then {}
  else
    { fxpc := x.pc
      fxop := BitVec.ofNat 14 ((if signal then x.tid else 0) * 512 + dest * 16 + opc)
      fxa := a, fxb := b, fxc := c }

/-- FSTAT flags and a due subnormal trap of a result (R206, R215, R216). -/
def fFlagW (t : Thread) (r : FOut) (rec : FRec) : List RegW :=
  let sub := r.sub && !t.fsub
  if r.bits = 0 ∧ sub = false then [] else [.fflags r.bits sub rec]

/-- Fd := result, with its flags. -/
def fRes (x : IssueCtx) (d : Nat) (r : FOut) (rec : FRec) (lat : Nat) : List Act :=
  (.f d r.val :: fFlagW x.t r rec).map (fun w => .wr w lat)

/-- As `fOut`, for an operation that may set flags of FSTAT, which it then writes (R215, R234). -/
def fFlagOut (ok : Bool) (reads : List WName) (acts : List Act) : OpOut := { fOut ok reads acts with later := [.sys 2] }

/-- Fd := s op t. -/
def f3 (f : R3) (x : IssueCtx) (opc lat : Nat) (op : DWord → DWord → FOut) : OpOut :=
  let s := x.rf f.y.toNat
  let t := x.rf f.z.toNat
  fFlagOut (okZero f.b && ok16 f.x && ok16 f.y && ok16 f.z) [.f f.y.toNat, .f f.z.toNat]
    (fRes x f.x.toNat (op s t) (fRecord x opc f.x.toNat s t 0) lat)

/-- FADD (R209). -/
def opFadd (_ : Site) (f : R3) (x : IssueCtx) : OpOut := f3 f x 1 3 (fun s t => fAdd x.t.frm s t)
/-- FSUB (R209). -/
def opFsub (_ : Site) (f : R3) (x : IssueCtx) : OpOut := f3 f x 2 3 (fun s t => fAdd x.t.frm s (fNegate t))
/-- FMUL (R209). -/
def opFmul (_ : Site) (f : R3) (x : IssueCtx) : OpOut := f3 f x 3 3 (fun s t => fMul x.t.frm s t)

/-- FMA: Fd is read at issue (R209). -/
def opFma (_ : Site) (f : R3) (x : IssueCtx) : OpOut :=
  let s := x.rf f.y.toNat
  let t := x.rf f.z.toNat
  let d := x.rf f.x.toNat
  fFlagOut (okZero f.b && ok16 f.x && ok16 f.y && ok16 f.z) [.f f.x.toNat, .f f.y.toNat, .f f.z.toNat]
    (fRes x f.x.toNat (fMa x.t.frm s t d) (fRecord x 4 f.x.toNat s t d) 3)

/-- FDIV: the divide and square-root unit lands it (R68, R213). -/
def opFdiv (_ : Site) (f : R3) (x : IssueCtx) : OpOut :=
  let s := x.rf f.y.toNat
  let t := x.rf f.z.toNat
  let r := fDiv x.t.frm s t
  fFlagOut (okZero f.b && ok16 f.x && ok16 f.y && ok16 f.z) [.f f.y.toNat, .f f.z.toNat]
    [.unit true (fLatency x.t.ct (fDivSpecial s t))
      (.f f.x.toNat r.val :: fFlagW x.t r (fRecord x 5 f.x.toNat s t 0))]

/-- FSQRT (R68, R213). -/
def opFsqrt (_ : Site) (f : R3) (x : IssueCtx) : OpOut :=
  let s := x.rf f.y.toNat
  let r := fSqrt x.t.frm s
  fFlagOut (okZero f.b && okZero f.z && ok16 f.x && ok16 f.y) [.f f.y.toNat]
    [.unit true (fLatency x.t.ct (fSqrtSpecial s))
      (.f f.x.toNat r.val :: fFlagW x.t r (fRecord x 6 f.x.toNat s 0 0))]

/-- FMIN (R209). -/
def opFmin (_ : Site) (f : R3) (x : IssueCtx) : OpOut := f3 f x 12 1 (fun s t => fMinMax false s t)
/-- FMAX (R209). -/
def opFmax (_ : Site) (f : R3) (x : IssueCtx) : OpOut := f3 f x 12 1 (fun s t => fMinMax true s t)

/-- FCMP and FCMPE: N, Z, C, V of STAT (R211). -/
def fcmpOut (quietInvalid : Bool) (f : R3) (x : IssueCtx) : OpOut :=
  let s := x.rf f.y.toNat
  let t := x.rf f.z.toNat
  let r := fCompare quietInvalid s t
  { fFlagOut (okZero f.x && okZero f.b && ok16 f.y && ok16 f.z) [.f f.y.toNat, .f f.z.toNat]
      (wrNZCV r.1.1 r.1.2.1 r.1.2.2.1 r.1.2.2.2 1 ++
        (fFlagW x.t r.2 (fRecord x 11 0 s t 0)).map (fun w => .wr w 1)) with wflags := true }

/-- FCMP (R211). -/
def opFcmp (_ : Site) (f : R3) (x : IssueCtx) : OpOut := fcmpOut false f x
/-- FCMPE (R211). -/
def opFcmpe (_ : Site) (f : R3) (x : IssueCtx) : OpOut := fcmpOut true f x

/-- FCVT.F.D Fd, Ds, #u5: exact (R209). -/
def opFcvtFD (_ : Site) (f : RI5) (x : IssueCtx) : OpOut :=
  let s := x.t.rd f.y.toNat
  fFlagOut (okZero f.b && ok16 f.x) [dName x.t f.y.toNat]
    (fRes x f.x.toNat (fFromInt x.t.frm s.toInt f.u.toNat) (fRecord x 7 f.x.toNat (s.setWidth 28) 0 0) 3)
/-- FCVT.F.DD Fd, Dk, #u5 (R209). -/
def opFcvtFDD (_ : Site) (f : RI5) (x : IssueCtx) : OpOut :=
  let s := x.t.rdd f.y.toNat
  fFlagOut (okZero f.b && ok16 f.x && okEven f.y) (ddName x.t f.y.toNat)
    (fRes x f.x.toNat (fFromInt x.t.frm s.toInt f.u.toNat) (fRecord x 8 f.x.toNat s 0 0) 3)
/-- FCVT.D.F Dd, Fs, #u5 (R212). -/
def opFcvtDF (_ : Site) (f : RI5) (x : IssueCtx) : OpOut :=
  let s := x.rf f.y.toNat
  let r := fToInt x.t.frm 14 f.u.toNat s
  fFlagOut (okZero f.b && ok16 f.y) [.f f.y.toNat]
    (wrD x.t f.x.toNat (BitVec.ofInt 14 r.1) 3 ::
      (fFlagW x.t r.2 (fRecord x 9 f.x.toNat s 0 0)).map (fun w => .wr w 3))
/-- FCVT.DD.F Dk, Fs, #u5 (R212). -/
def opFcvtDDF (_ : Site) (f : RI5) (x : IssueCtx) : OpOut :=
  let s := x.rf f.y.toNat
  let r := fToInt x.t.frm 28 f.u.toNat s
  fFlagOut (okZero f.b && ok16 f.y && okEven f.x) [.f f.y.toNat]
    (wrDD x.t f.x.toNat (BitVec.ofInt 28 r.1) 3 ++
      (fFlagW x.t r.2 (fRecord x 10 f.x.toNat s 0 0)).map (fun w => .wr w 3))

/-- A bit-group move Fd, Fs (R209). -/
def fBits (f : R3) (x : IssueCtx) (op : DWord → DWord) : OpOut :=
  fOut (okZero f.b && okZero f.z && ok16 f.x && ok16 f.y) [.f f.y.toNat]
    [.wr (.f f.x.toNat (op (x.rf f.y.toNat))) 1]

/-- FMOV (R209). -/
def opFmov (_ : Site) (f : R3) (x : IssueCtx) : OpOut := fBits f x (fun s => s)
/-- FNEG inverts S (R209). -/
def opFneg (_ : Site) (f : R3) (x : IssueCtx) : OpOut := fBits f x (fun s => s ^^^ 0x8000000)
/-- FABS clears S (R209). -/
def opFabs (_ : Site) (f : R3) (x : IssueCtx) : OpOut := fBits f x (fun s => s &&& 0x7FFFFFF)
/-- FMVF Fd, Dk (R209). -/
def opFmvf (_ : Site) (f : R3) (x : IssueCtx) : OpOut :=
  fOut (okZero f.b && okZero f.z && ok16 f.x && okEven f.y) (ddName x.t f.y.toNat)
    [.wr (.f f.x.toNat (x.t.rdd f.y.toNat)) 1]
/-- FMVD Dk, Fs (R209). -/
def opFmvd (_ : Site) (f : R3) (x : IssueCtx) : OpOut :=
  fOut (okZero f.b && okZero f.z && okEven f.x && ok16 f.y) [.f f.y.toNat]
    (wrDD x.t f.x.toNat (x.rf f.y.toNat) 1)
/-- FKIND Dd, Fs (R209). -/
def opFkind (_ : Site) (f : R3) (x : IssueCtx) : OpOut :=
  fOut (okZero f.b && okZero f.z && ok16 f.y) [.f f.y.toNat]
    [wrD x.t f.x.toNat (fKind (x.rf f.y.toNat)) 1]
/-- FBAR lands at p + 3 and waits for the divide and square-root unit (R219). -/
def opFbar (_ : Site) (_ : IssueCtx) : OpOut :=
  { slots := [.f], acts := [.wr .nothing 3], fuse := true, fwait := true }

end Sys2Proof.Machine
end

