-- ==== Sys2Proof/Machine/OpsV.lean ====
section
/-! DEFINITION. The V family (R228): element operations and permutes (R184), multiply-accumulate (R186–R188), moves
and block exponents (R190), extremum searches (R191, R192) and SETVL (R179), with the element views and lengths of
R177 and R180. Each definition is the operation's answer at its issue. -/

namespace Sys2Proof.Machine
open Sys2Proof

/-- The answer of a V-family operation that is legal when `ok` holds (R110, R182). -/
def vOut (x : IssueCtx) (ok : Bool) (reads : List WName) (acts : List Act) : OpOut :=
  whenLegal (ok && x.vecLevel) [.v] { slots := [.v], reads := reads, acts := acts, vec := true }

/-- As `vOut`, for an operation that may set STAT.AV (R186, R234). -/
def vMacOut (x : IssueCtx) (ok : Bool) (reads : List WName) (acts : List Act) : OpOut :=
  { vOut x ok reads acts with wflags := true }

/-- The word elements that VL lets an operation process, and the pairs or wide elements (R180). -/
def wordEls (t : Thread) : List Nat := List.range t.vl.toNat
def pairEls (t : Thread) : List Nat := List.range (t.vl.toNat / 2)

/-- The write of the processed word elements of Vd. -/
def vW (t : Thread) (d : Nat) (e : Nat → Word) (lat : Nat) : Act :=
  .wr (.v d ((wordEls t).map (fun k => (k, e k)))) lat

/-- The write of the processed pairs of Vd. -/
def vP (t : Thread) (d : Nat) (e : Nat → Word × Word) (lat : Nat) : Act :=
  .wr (.v d ((pairEls t).flatMap (fun k => [(2 * k, (e k).1), (2 * k + 1, (e k).2)]))) lat

/-- fit to a word under MODE.SAT. -/
def fitW (t : Thread) (v : Int) : Word := BitVec.ofInt 14 (fit t.sat v 14).1

/-- Vd, Vs, Vt by words. -/
def vv (f : R3) (x : IssueCtx) (lat : Nat) (e : Word → Word → Word) : OpOut :=
  vOut x (okZero f.b && ok16 f.x && ok16 f.y && ok16 f.z) []
    [vW x.t f.x.toNat (fun k => e (x.t.rv f.y.toNat k) (x.t.rv f.z.toNat k)) lat]

/-- Vd, Vs, Dt by words. -/
def vs (f : R3) (x : IssueCtx) (e : Word → Word → Word) : OpOut :=
  vOut x (okZero f.b && ok16 f.x && ok16 f.y) [dName x.t f.z.toNat]
    [vW x.t f.x.toNat (fun k => e (x.t.rv f.y.toNat k) (x.t.rd f.z.toNat)) 1]

/-- Vd, Vs by words. -/
def v1 (f : R3) (x : IssueCtx) (e : Word → Word) : OpOut :=
  vOut x (okZero f.b && okZero f.z && ok16 f.x && ok16 f.y) []
    [vW x.t f.x.toNat (fun k => e (x.t.rv f.y.toNat k)) 1]

/-- Vd, Vs by pairs. -/
def vc1 (f : R3) (x : IssueCtx) (e : Word × Word → Word × Word) : OpOut :=
  vOut x (okZero f.b && okZero f.z && ok16 f.x && ok16 f.y) []
    [vP x.t f.x.toNat (fun k => e (x.t.rv f.y.toNat (2 * k), x.t.rv f.y.toNat (2 * k + 1))) 1]

/-- VADD (R184). -/
def opVadd (_ : Site) (f : R3) (x : IssueCtx) : OpOut := vv f x 1 (fun s t => fitW x.t (s.toInt + t.toInt))
/-- VSUB (R184). -/
def opVsub (_ : Site) (f : R3) (x : IssueCtx) : OpOut := vv f x 1 (fun s t => fitW x.t (s.toInt - t.toInt))
/-- VADDS (R184). -/
def opVadds (_ : Site) (f : R3) (x : IssueCtx) : OpOut := vs f x (fun s t => fitW x.t (s.toInt + t.toInt))
/-- VSUBS (R184). -/
def opVsubs (_ : Site) (f : R3) (x : IssueCtx) : OpOut := vs f x (fun s t => fitW x.t (s.toInt - t.toInt))
/-- VADDH (R184). -/
def opVaddh (_ : Site) (f : R3) (x : IssueCtx) : OpOut := vv f x 1 (fun s t => fitW x.t (rnd (s.toInt + t.toInt) 1))
/-- VSUBH (R184). -/
def opVsubh (_ : Site) (f : R3) (x : IssueCtx) : OpOut := vv f x 1 (fun s t => fitW x.t (rnd (s.toInt - t.toInt) 1))
/-- VNEG (R184). -/
def opVneg (_ : Site) (f : R3) (x : IssueCtx) : OpOut := v1 f x (fun s => fitW x.t (-s.toInt))
/-- VABS (R184). -/
def opVabs (_ : Site) (f : R3) (x : IssueCtx) : OpOut := v1 f x (fun s => fitW x.t |s.toInt|)
/-- VMIN (R184). -/
def opVmin (_ : Site) (f : R3) (x : IssueCtx) : OpOut := vv f x 1 (fun s t => if t.toInt < s.toInt then t else s)
/-- VMAX (R184). -/
def opVmax (_ : Site) (f : R3) (x : IssueCtx) : OpOut := vv f x 1 (fun s t => if s.toInt < t.toInt then t else s)
/-- VAND (R184). -/
def opVand (_ : Site) (f : R3) (x : IssueCtx) : OpOut := vv f x 1 (fun s t => s &&& t)
/-- VOR (R184). -/
def opVor (_ : Site) (f : R3) (x : IssueCtx) : OpOut := vv f x 1 (fun s t => s ||| t)
/-- VXOR (R184). -/
def opVxor (_ : Site) (f : R3) (x : IssueCtx) : OpOut := vv f x 1 (fun s t => s ^^^ t)
/-- VANDN: s and not t (R184). -/
def opVandn (_ : Site) (f : R3) (x : IssueCtx) : OpOut := vv f x 1 (fun s t => s &&& ~~~t)
/-- VLSH (R152, R184). -/
def opVlsh (_ : Site) (f : R3) (x : IssueCtx) : OpOut := vs f x (fun s t => (shiftW false s (regCount t)).r)
/-- VASH (R152, R184). -/
def opVash (_ : Site) (f : R3) (x : IssueCtx) : OpOut := vs f x (fun s t => (shiftW true s (regCount t)).r)

/-- The immediate vector shifts. -/
def vshi (arith : Bool) (f : RI6) (x : IssueCtx) : OpOut :=
  vOut x (ok16 f.x && ok16 f.y) []
    [vW x.t f.x.toNat (fun k => (shiftW arith (x.t.rv f.y.toNat k) f.i.toInt).r) 1]

/-- VLSL (R184). -/
def opVlsl (_ : Site) (f : RI6) (x : IssueCtx) : OpOut := vshi false f x
/-- VLSR (R184). -/
def opVlsr (_ : Site) (f : RI6) (x : IssueCtx) : OpOut := vshi false f x
/-- VASL (R184). -/
def opVasl (_ : Site) (f : RI6) (x : IssueCtx) : OpOut := vshi true f x
/-- VASR (R184). -/
def opVasr (_ : Site) (f : RI6) (x : IssueCtx) : OpOut := vshi true f x

/-- VMULF: illegal in wide mode (R184, R188). -/
def opVmulf (_ : Site) (f : R3) (x : IssueCtx) : OpOut :=
  vOut x (okZero f.b && ok16 f.x && ok16 f.y && ok16 f.z && !x.t.wide) []
    [vW x.t f.x.toNat (fun k => fitW x.t (rnd ((x.t.rv f.y.toNat k).toInt * (x.t.rv f.z.toNat k).toInt) 13)) 3]

/-- VCMULF and VCMULJF (R184). -/
def vcmulf (conj : Bool) (f : R3) (x : IssueCtx) : OpOut :=
  let a := fun k => (x.t.rv f.y.toNat (2 * k)).toInt
  let b := fun k => (x.t.rv f.y.toNat (2 * k + 1)).toInt
  let c := fun k => (x.t.rv f.z.toNat (2 * k)).toInt
  let d := fun k => (x.t.rv f.z.toNat (2 * k + 1)).toInt
  vOut x (okZero f.b && ok16 f.x && ok16 f.y && ok16 f.z) []
    [vP x.t f.x.toNat (fun k =>
      (fitW x.t (rnd (cmulRe conj (a k) (b k) (c k) (d k)) 13),
       fitW x.t (rnd (cmulIm conj (a k) (b k) (c k) (d k)) 13))) 3]

/-- VCMULF (R184). -/
def opVcmulf (_ : Site) (f : R3) (x : IssueCtx) : OpOut := vcmulf false f x
/-- VCMULJF (R184). -/
def opVcmuljf (_ : Site) (f : R3) (x : IssueCtx) : OpOut := vcmulf true f x
/-- VCONJ (R184). -/
def opVconj (_ : Site) (f : R3) (x : IssueCtx) : OpOut := vc1 f x (fun p => (p.1, fitW x.t (-p.2.toInt)))
/-- VMULJ (R184). -/
def opVmulj (_ : Site) (f : R3) (x : IssueCtx) : OpOut := vc1 f x (fun p => (fitW x.t (-p.2.toInt), p.1))
/-- VSWRI (R184). -/
def opVswri (_ : Site) (f : R3) (x : IssueCtx) : OpOut := vc1 f x (fun p => (p.2, p.1))
/-- VMOV (R184). -/
def opVmov (_ : Site) (f : R3) (x : IssueCtx) : OpOut := v1 f x (fun s => s)

/-- VBCAST Vd, Ds (R184). -/
def opVbcast (_ : Site) (f : R3) (x : IssueCtx) : OpOut :=
  vOut x (okZero f.b && okZero f.z && ok16 f.x) [dName x.t f.y.toNat]
    [vW x.t f.x.toNat (fun _ => x.t.rd f.y.toNat) 1]
/-- VBCASTC Vd, Dk (R184). -/
def opVbcastc (_ : Site) (f : R3) (x : IssueCtx) : OpOut :=
  vOut x (okZero f.b && okZero f.z && ok16 f.x && okEven f.y) (ddName x.t f.y.toNat)
    [vP x.t f.x.toNat (fun _ => (x.t.rd f.y.toNat, x.t.rd (f.y.toNat + 1))) 1]

/-- Vd by words from whole sources (R180, R184). -/
def vperm (f : R3) (x : IssueCtx) (e : Nat → Word) : OpOut :=
  vOut x (okZero f.b && ok16 f.x && ok16 f.y && ok16 f.z) [] [vW x.t f.x.toNat e 1]

/-- VPERM: offsets are the low five bits (R184). -/
def opVperm (_ : Site) (f : R3) (x : IssueCtx) : OpOut :=
  vperm f x (fun i => x.t.rv f.y.toNat ((x.t.rv f.z.toNat i).toNat % 32))

/-- Word i of the 64-word sequence s[0…31], t[0…31] (R184). -/
def seq64 (t : Thread) (s u i : Nat) : Word := if i < 32 then t.rv s i else t.rv u (i - 32)

/-- VSLIDE (R184, format VS). -/
def opVslide (_ : Site) (vd vs vt : BitVec 4) (u : BitVec 5) (x : IssueCtx) : OpOut :=
  vOut x true [] [vW x.t vd.toNat (fun i => seq64 x.t vs.toNat vt.toNat (i + u.toNat)) 1]
/-- VZIP (R184). -/
def opVzip (_ : Site) (f : R3) (x : IssueCtx) : OpOut :=
  vperm f x (fun i => if i % 2 = 0 then x.t.rv f.y.toNat (i / 2) else x.t.rv f.z.toNat (i / 2))
/-- VUNZ (R184). -/
def opVunz (_ : Site) (f : R3) (x : IssueCtx) : OpOut :=
  vperm f x (fun i => seq64 x.t f.y.toNat f.z.toNat (2 * i))

/-- VEXT Dd, Vs, #u5 (R184). -/
def opVext (_ : Site) (f : RI5) (x : IssueCtx) : OpOut :=
  vOut x (okZero f.b && ok16 f.y) [] [wrD x.t f.x.toNat (x.t.rv f.y.toNat f.u.toNat) 1]
/-- VINS Vd, #u5, Ds (R184). -/
def opVins (_ : Site) (f : RI5) (x : IssueCtx) : OpOut :=
  vOut x (okZero f.b && ok16 f.x) [dName x.t f.y.toNat]
    [.wr (.v f.x.toNat [(f.u.toNat, x.t.rd f.y.toNat)]) 1]

/-! ### Multiply-accumulate (R186–R188) -/

/-- The effect of a vector MAC on VAa: to each listed element its exact product is added, after the element was
cleared or kept, at p + 2, and the result lands at p + 3 (R187). A MAC that replaces is a write of its products. -/
def vmacAct (t : Thread) (a : Nat) (accumulate : Bool) (ps : List (Nat × Int)) : List Act :=
  if accumulate then [.wr (.vmac a ps t.wide t.sat) 3]
  else
    let rs := ps.map (fun p => (p.1, accOp t.sat t.wide p.2))
    .wr (.va a (rs.map (fun r => (r.1, r.2.acc)))) 3 :: wrSticky .av (rs.any (fun r => r.2.v)) 3

/-- Real products by word, or by wide element into the even accumulator elements (R186, R188). -/
def realProducts (t : Thread) (s u : Nat) (sign : Int) : List (Nat × Int) :=
  if t.wide then (pairEls t).map (fun k => (2 * k, sign * (wideRead (t.rvw s k) * wideRead (t.rvw u k))))
  else (wordEls t).map (fun k => (k, sign * ((t.rv s k).toInt * (t.rv u k).toInt)))

/-- VMPY, VMAC and VMSU. -/
def vmacOut (f : R3) (x : IssueCtx) (accumulate : Bool) (sign : Int) : OpOut :=
  vMacOut x (okZero f.b && ok4 f.x && ok16 f.y && ok16 f.z) []
    (vmacAct x.t f.x.toNat accumulate (realProducts x.t f.y.toNat f.z.toNat sign))

/-- VMPY (R186). -/
def opVmpy (_ : Site) (f : R3) (x : IssueCtx) : OpOut := vmacOut f x false 1
/-- VMAC (R186). -/
def opVmac (_ : Site) (f : R3) (x : IssueCtx) : OpOut := vmacOut f x true 1
/-- VMSU (R186). -/
def opVmsu (_ : Site) (f : R3) (x : IssueCtx) : OpOut := vmacOut f x true (-1)

/-- VMACS: Dt a word, or a wide datum of a pair in wide mode (R186, R188). -/
def opVmacs (_ : Site) (f : R3) (x : IssueCtx) : OpOut :=
  let t := x.t
  let ps := if t.wide then
      (pairEls t).map (fun k => (2 * k, wideRead (t.rvw f.y.toNat k) * wideRead (t.rdd f.z.toNat)))
    else (wordEls t).map (fun k => (k, (t.rv f.y.toNat k).toInt * (t.rd f.z.toNat).toInt))
  vMacOut x (okZero f.b && ok4 f.x && ok16 f.y && (!t.wide || okEven f.z))
    (if t.wide then ddName t f.z.toNat else [dName t f.z.toNat])
    (vmacAct t f.x.toNat true ps)

/-- VMPYP and VMACP: p[i] × q[i] into VAa, p[i] × q[i xor 1] into VAa+1 (R156, R186); illegal in wide mode. -/
def vmacp (f : R3) (x : IssueCtx) (accumulate : Bool) : OpOut :=
  let t := x.t
  let p := fun k => (t.rv f.y.toNat k).toInt
  let q := fun k => (t.rv f.z.toNat k).toInt
  let sw := fun k => if k % 2 = 0 then k + 1 else k - 1
  vMacOut x (okZero f.b && ok4 f.x && okEven f.x && ok16 f.y && ok16 f.z && !t.wide) []
    (vmacAct t f.x.toNat accumulate ((wordEls t).map (fun k => (k, p k * q k))) ++
     vmacAct t (f.x.toNat + 1) accumulate ((wordEls t).map (fun k => (k, p k * q (sw k)))))

/-- VMPYP (R186). -/
def opVmpyp (_ : Site) (f : R3) (x : IssueCtx) : OpOut := vmacp f x false
/-- VMACP (R186). -/
def opVmacp (_ : Site) (f : R3) (x : IssueCtx) : OpOut := vmacp f x true

/-- Complex products by pair against (c, d) of pair k. -/
def pairProducts (t : Thread) (s : Nat) (conj : Bool) (u : Nat → Int × Int) : List (Nat × Int) :=
  (pairEls t).flatMap (fun k =>
    let a := (t.rv s (2 * k)).toInt
    let b := (t.rv s (2 * k + 1)).toInt
    [(2 * k, cmulRe conj a b (u k).1 (u k).2), (2 * k + 1, cmulIm conj a b (u k).1 (u k).2)])

/-- VCMPY, VCMAC and VCMACJ: illegal in wide mode (R186, R188). -/
def vcmacOut (f : R3) (x : IssueCtx) (accumulate conj : Bool) : OpOut :=
  vMacOut x (okZero f.b && ok4 f.x && ok16 f.y && ok16 f.z && !x.t.wide) []
    (vmacAct x.t f.x.toNat accumulate (pairProducts x.t f.y.toNat conj
      (fun k => ((x.t.rv f.z.toNat (2 * k)).toInt, (x.t.rv f.z.toNat (2 * k + 1)).toInt))))

/-- VCMPY (R186). -/
def opVcmpy (_ : Site) (f : R3) (x : IssueCtx) : OpOut := vcmacOut f x false false
/-- VCMAC (R186). -/
def opVcmac (_ : Site) (f : R3) (x : IssueCtx) : OpOut := vcmacOut f x true false
/-- VCMACJ (R186). -/
def opVcmacj (_ : Site) (f : R3) (x : IssueCtx) : OpOut := vcmacOut f x true true
/-- VCMACS: the pair is Dk, Dk+1 (R186). -/
def opVcmacs (_ : Site) (f : R3) (x : IssueCtx) : OpOut :=
  vMacOut x (okZero f.b && ok4 f.x && ok16 f.y && okEven f.z && !x.t.wide) (ddName x.t f.z.toNat)
    (vmacAct x.t f.x.toNat true (pairProducts x.t f.y.toNat false
      (fun _ => ((x.t.rd f.z.toNat).toInt, (x.t.rd (f.z.toNat + 1)).toInt))))
/-- VCLRA: every element, whatever VL; latency 1 (R186). -/
def opVclra (_ : Site) (f : R3) (x : IssueCtx) : OpOut :=
  vOut x (okZero f.b && okZero f.y && okZero f.z && ok4 f.x) []
    [.wr (.va f.x.toNat ((List.range 32).map (fun k => (k, 0)))) 1]

/-! ### Moves and exponents (R190) -/

/-- VMVR and VMVI with base b. -/
def vmove (f : R3) (x : IssueCtx) (base : Nat) : OpOut :=
  let t := x.t
  let mv := fun k => scaleMove (accRead t.wide (t.rva f.y.toNat k)) base (sclNow t)
  vOut x (okZero f.b && okZero f.z && ok16 f.x && ok4 f.y) (sclReads t)
    [if t.wide then
      vP t f.x.toNat (fun k =>
        let w := wideWrite (fit t.sat (mv (2 * k)) 24).1
        (w.truncate 14, (w >>> 14).truncate 14)) 1
     else vW t f.x.toNat (fun k => fitW t (mv k)) 1]

/-- VMVR (R190). -/
def opVmvr (_ : Site) (f : R3) (x : IssueCtx) : OpOut := vmove f x (if x.t.wide then 23 else 13)
/-- VMVI (R190). -/
def opVmvi (_ : Site) (f : R3) (x : IssueCtx) : OpOut := vmove f x 0

/-- The elements of VAn that VEXPD measures (R190). -/
def accEls (t : Thread) : List Nat := if t.wide then (pairEls t).map (fun k => 2 * k) else wordEls t

/-- The largest block exponent over the processed elements of VAn; 0 if none (R190). -/
def vexp (t : Thread) (n : Nat) : Nat :=
  ((accEls t).map (fun k => blockExp t.wide (accRead t.wide (t.rva n k)))).foldl Nat.max 0

/-- VEXPD (R190). -/
def opVexpd (_ : Site) (f : R3) (x : IssueCtx) : OpOut :=
  vOut x (okZero f.x && okZero f.z && okZero f.b && ok4 f.y) [dName x.t 7]
    [wrD x.t 7 (BitVec.ofNat 14 (Nat.max (x.t.rd 7).toNat (vexp x.t f.y.toNat))) 3]
/-- VEXPD.S (R190): B is 1 in its encoding. -/
def opVexpdS (_ : Site) (f : R3) (x : IssueCtx) : OpOut :=
  vOut x (okZero f.x && okZero f.z && f.b == 1 && ok4 f.y) []
    [wrD x.t 7 (BitVec.ofNat 14 (vexp x.t f.y.toNat)) 3]

/-! ### Extremum searches (R191, R192) -/

/-- The extreme value of a list with its index: ties keep the earlier entry (R192). -/
def extreme (isMax : Bool) : List (Nat × Int) → Option (Int × Nat)
  | [] => none
  | (k, v) :: ps =>
    match extreme isMax ps with
    | none => some (v, k)
    | some (u, j) => if (if isMax then v < u else u < v) then some (u, j) else some (v, k)

/-- VMAXI and VMINI: with no processed element, 0x2000 or 0x1FFF and index 0x3FFF (R191, R193). -/
def vextreme (isMax : Bool) (f : R3) (x : IssueCtx) : OpOut :=
  let r := match extreme isMax ((wordEls x.t).map (fun k => (k, (x.t.rv f.y.toNat k).toInt))) with
    | some (v, k) => (BitVec.ofInt 14 v, BitVec.ofNat 14 k)
    | none => (if isMax then 0x2000 else 0x1FFF, 0x3FFF)
  vOut x (okZero f.z && okZero f.b && okEven f.x && ok16 f.y) []
    [wrD x.t f.x.toNat r.1 3, wrD x.t (f.x.toNat + 1) r.2 3]

/-- VMAXI (R191). -/
def opVmaxi (_ : Site) (f : R3) (x : IssueCtx) : OpOut := vextreme true f x
/-- VMINI (R191). -/
def opVmini (_ : Site) (f : R3) (x : IssueCtx) : OpOut := vextreme false f x

/-- The candidate with its global index b + index, 28 bits. -/
def candidate (t : Thread) (isMax : Bool) (m : Nat) (els : List (Nat × Int)) : Option (Int × Nat) :=
  (extreme isMax els).map (fun p => (p.1, ((t.rdd m).toNat + p.2) % 2 ^ 28))

/-- A running search: start forms replace the pair, other forms compare at p + 2 (R187, R191). -/
def runSearch (isMax start ok : Bool) (f : R3) (x : IssueCtx) (els : List (Nat × Int)) : OpOut :=
  let c := candidate x.t isMax f.z.toNat els
  let w := accW x.t.wide
  let acts := if start then
      (match c with
       | some (v, k) =>
         [.wr (.ac f.x.toNat (accWrite x.t.wide v)) 3, .wr (.ac (f.x.toNat + 1) (BitVec.ofNat 56 k)) 3]
       | none =>
         [.wr (.ac f.x.toNat (accWrite x.t.wide (if isMax then sMin w else sMax w))) 3,
          .wr (.ac (f.x.toNat + 1) 0xFFFFFFF) 3])
    else [.wr (.ext f.x.toNat c isMax x.t.wide) 3]
  vOut x (ok && ok8 f.x && okEven f.x && okEven f.z) (ddName x.t f.z.toNat) acts

/-- The processed word elements of Vs, and the processed elements of VAb, as integers. -/
def vsEls (t : Thread) (n : Nat) : List (Nat × Int) := (wordEls t).map (fun k => (k, (t.rv n k).toInt))
def vaEls (t : Thread) (n : Nat) : List (Nat × Int) :=
  (wordEls t).map (fun k => (k, accRead t.wide (t.rva n k)))

/-- VMAXIR (R191). -/
def opVmaxir (_ : Site) (f : R3) (x : IssueCtx) : OpOut :=
  runSearch true false (okZero f.b && ok16 f.y) f x (vsEls x.t f.y.toNat)
/-- VMINIR (R191). -/
def opVminir (_ : Site) (f : R3) (x : IssueCtx) : OpOut :=
  runSearch false false (okZero f.b && ok16 f.y) f x (vsEls x.t f.y.toNat)
/-- VMAXIR.S (R191): B is 1 in the encoding of a start form. -/
def opVmaxirS (_ : Site) (f : R3) (x : IssueCtx) : OpOut :=
  runSearch true true (f.b == 1 && ok16 f.y) f x (vsEls x.t f.y.toNat)
/-- VMINIR.S (R191). -/
def opVminirS (_ : Site) (f : R3) (x : IssueCtx) : OpOut :=
  runSearch false true (f.b == 1 && ok16 f.y) f x (vsEls x.t f.y.toNat)
/-- VMAXIA (R191). -/
def opVmaxia (_ : Site) (f : R3) (x : IssueCtx) : OpOut :=
  runSearch true false (okZero f.b && ok4 f.y) f x (vaEls x.t f.y.toNat)
/-- VMINIA (R191). -/
def opVminia (_ : Site) (f : R3) (x : IssueCtx) : OpOut :=
  runSearch false false (okZero f.b && ok4 f.y) f x (vaEls x.t f.y.toNat)
/-- VMAXIA.S (R191). -/
def opVmaxiaS (_ : Site) (f : R3) (x : IssueCtx) : OpOut :=
  runSearch true true (f.b == 1 && ok4 f.y) f x (vaEls x.t f.y.toNat)
/-- VMINIA.S (R191). -/
def opVminiaS (_ : Site) (f : R3) (x : IssueCtx) : OpOut :=
  runSearch false true (f.b == 1 && ok4 f.y) f x (vaEls x.t f.y.toNat)

/-! ### SETVL (R179) -/

/-- SETVL Dd, Ds: it does not need the vector unit. -/
def opSetvl (_ : Site) (f : R3) (x : IssueCtx) : OpOut :=
  let r := (x.t.rd f.y.toNat).toNat
  let v := Nat.min r 32
  whenLegal (okZero f.z && okZero f.b && x.vecLevel) [.v]
    { slots := [.v], reads := [dName x.t f.y.toNat]
      acts := [.wr (.vl (BitVec.ofNat 6 v)) 1, wrD x.t f.x.toNat (BitVec.ofNat 14 (r - v)) 1] }

/-- SETVL #u6: I is read as unsigned; 33–63 are reserved. -/
def opSetvlImmediate (_ : Site) (f : RI6) (x : IssueCtx) : OpOut :=
  whenLegal (okZero f.x && okZero f.y && decide (f.i.toNat ≤ 32) && x.vecLevel) [.v]
    { slots := [.v], acts := [.wr (.vl f.i) 1] }

end Sys2Proof.Machine
end

