-- ==== Sys2Proof/Machine/OpTable.lean ====
section
/-! DEFINITION. Which answer belongs to which operation of a Lorner core, and the user decode operation (R240–R242),
whose micro-operations are operations of the same table. A bundle reads the answers of its operations here when it
issues. -/

namespace Sys2Proof.Machine
open Sys2Proof

/-- The site and the answer of every base operation; none for a command that no core issues. -/
def opBase : Instr → Option (Site × (IssueCtx → OpOut))
  | .ld i f => some (i, opLd i f)
  | .ldD i f => some (i, opLdD i f)
  | .st i f => some (i, opSt i f)
  | .stD i f => some (i, opStD i f)
  | .vld i f => some (i, opVld i f)
  | .vst i f => some (i, opVst i f)
  | .vlds i f => some (i, opVlds i f)
  | .vsts i f => some (i, opVsts i f)
  | .vldx i f => some (i, opVldx i f)
  | .vstx i f => some (i, opVstx i f)
  | .aadd i f => some (i, opAadd i f)
  | .aaddi i slot an imm => some (i, opAaddi i slot an imm)
  | .amv i slot rd rs => some (i, opAmv i slot rd rs)
  | .amovl i slot r imm => some (i, opAmovl i slot r imm)
  | .amovh i slot r imm => some (i, opAmovh i slot r imm)
  | .palloc i f => some (i, opPalloc i f)
  | .pfree i f => some (i, opPfree i f)
  | .add i f => some (i, opAdd i f)
  | .adc i f => some (i, opAdc i f)
  | .sub i f => some (i, opSub i f)
  | .sbc i f => some (i, opSbc i f)
  | .cmp i f => some (i, opCmp i f)
  | .neg i f => some (i, opNeg i f)
  | .abs i f => some (i, opAbs i f)
  | .min i f => some (i, opMin i f)
  | .max i f => some (i, opMax i f)
  | .minu i f => some (i, opMinu i f)
  | .maxu i f => some (i, opMaxu i f)
  | .and i f => some (i, opAnd i f)
  | .or i f => some (i, opOr i f)
  | .xor i f => some (i, opXor i f)
  | .andn i f => some (i, opAndn i f)
  | .not i f => some (i, opNot i f)
  | .mov i f => some (i, opMov i f)
  | .movi i x imm => some (i, opMovi i x imm)
  | .addD i f => some (i, opAddD i f)
  | .adcD i f => some (i, opAdcD i f)
  | .subD i f => some (i, opSubD i f)
  | .sbcD i f => some (i, opSbcD i f)
  | .cmpD i f => some (i, opCmpD i f)
  | .negD i f => some (i, opNegD i f)
  | .movD i f => some (i, opMovD i f)
  | .mvad i f => some (i, opMvad i f)
  | .lsh i f => some (i, opLsh i f)
  | .ash i f => some (i, opAsh i f)
  | .lsl i f => some (i, opLsl i f)
  | .lsr i f => some (i, opLsr i f)
  | .asl i f => some (i, opAsl i f)
  | .asr i f => some (i, opAsr i f)
  | .lshD i f => some (i, opLshD i f)
  | .ashD i f => some (i, opAshD i f)
  | .mpy i f => some (i, opMpy i f)
  | .mac i f => some (i, opMac i f)
  | .msu i f => some (i, opMsu i f)
  | .cmpy i f => some (i, opCmpy i f)
  | .cmac i f => some (i, opCmac i f)
  | .cmacj i f => some (i, opCmacj i f)
  | .adda i f => some (i, opAdda i f)
  | .suba i f => some (i, opSuba i f)
  | .nega i f => some (i, opNega i f)
  | .asha i f => some (i, opAsha i f)
  | .clra i f => some (i, opClra i f)
  | .mvp i f => some (i, opMvp i f)
  | .mulf i f => some (i, opMulf i f)
  | .mulD i f => some (i, opMulD i f)
  | .mvr i f => some (i, opMvr i f)
  | .mvi i f => some (i, opMvi i f)
  | .expd i f => some (i, opExpd i f)
  | .expdS i f => some (i, opExpdS i f)
  | .div i f => some (i, opDiv i f)
  | .divu i f => some (i, opDivu i f)
  | .dadd i f => some (i, opDadd i f)
  | .dsub i f => some (i, opDsub i f)
  | .daj i f => some (i, opDaj i f)
  | .mvs i x sys dir => some (i, opMvs i x sys dir)
  | .tget i f => some (i, opTget i f)
  | .vadd i f => some (i, opVadd i f)
  | .vsub i f => some (i, opVsub i f)
  | .vadds i f => some (i, opVadds i f)
  | .vsubs i f => some (i, opVsubs i f)
  | .vaddh i f => some (i, opVaddh i f)
  | .vsubh i f => some (i, opVsubh i f)
  | .vneg i f => some (i, opVneg i f)
  | .vabs i f => some (i, opVabs i f)
  | .vmin i f => some (i, opVmin i f)
  | .vmax i f => some (i, opVmax i f)
  | .vand i f => some (i, opVand i f)
  | .vor i f => some (i, opVor i f)
  | .vxor i f => some (i, opVxor i f)
  | .vandn i f => some (i, opVandn i f)
  | .vlsh i f => some (i, opVlsh i f)
  | .vash i f => some (i, opVash i f)
  | .vlsl i f => some (i, opVlsl i f)
  | .vlsr i f => some (i, opVlsr i f)
  | .vasl i f => some (i, opVasl i f)
  | .vasr i f => some (i, opVasr i f)
  | .vmulf i f => some (i, opVmulf i f)
  | .vcmulf i f => some (i, opVcmulf i f)
  | .vcmuljf i f => some (i, opVcmuljf i f)
  | .vconj i f => some (i, opVconj i f)
  | .vmulj i f => some (i, opVmulj i f)
  | .vswri i f => some (i, opVswri i f)
  | .vmov i f => some (i, opVmov i f)
  | .vbcast i f => some (i, opVbcast i f)
  | .vbcastc i f => some (i, opVbcastc i f)
  | .vperm i f => some (i, opVperm i f)
  | .vslide i vd vs vt u => some (i, opVslide i vd vs vt u)
  | .vzip i f => some (i, opVzip i f)
  | .vunz i f => some (i, opVunz i f)
  | .vext i f => some (i, opVext i f)
  | .vins i f => some (i, opVins i f)
  | .vmpy i f => some (i, opVmpy i f)
  | .vmac i f => some (i, opVmac i f)
  | .vmsu i f => some (i, opVmsu i f)
  | .vmacs i f => some (i, opVmacs i f)
  | .vmpyp i f => some (i, opVmpyp i f)
  | .vmacp i f => some (i, opVmacp i f)
  | .vcmpy i f => some (i, opVcmpy i f)
  | .vcmac i f => some (i, opVcmac i f)
  | .vcmacj i f => some (i, opVcmacj i f)
  | .vcmacs i f => some (i, opVcmacs i f)
  | .vclra i f => some (i, opVclra i f)
  | .vmvr i f => some (i, opVmvr i f)
  | .vmvi i f => some (i, opVmvi i f)
  | .vexpd i f => some (i, opVexpd i f)
  | .vexpdS i f => some (i, opVexpdS i f)
  | .vmaxi i f => some (i, opVmaxi i f)
  | .vmini i f => some (i, opVmini i f)
  | .vmaxir i f => some (i, opVmaxir i f)
  | .vminir i f => some (i, opVminir i f)
  | .vmaxirS i f => some (i, opVmaxirS i f)
  | .vminirS i f => some (i, opVminirS i f)
  | .vmaxia i f => some (i, opVmaxia i f)
  | .vminia i f => some (i, opVminia i f)
  | .vmaxiaS i f => some (i, opVmaxiaS i f)
  | .vminiaS i f => some (i, opVminiaS i f)
  | .setvl i f => some (i, opSetvl i f)
  | .setvlImmediate i f => some (i, opSetvlImmediate i f)
  | .fadd i f => some (i, opFadd i f)
  | .fsub i f => some (i, opFsub i f)
  | .fmul i f => some (i, opFmul i f)
  | .fma i f => some (i, opFma i f)
  | .fdiv i f => some (i, opFdiv i f)
  | .fsqrt i f => some (i, opFsqrt i f)
  | .fmin i f => some (i, opFmin i f)
  | .fmax i f => some (i, opFmax i f)
  | .fcmp i f => some (i, opFcmp i f)
  | .fcmpe i f => some (i, opFcmpe i f)
  | .fcvtFD i f => some (i, opFcvtFD i f)
  | .fcvtFDD i f => some (i, opFcvtFDD i f)
  | .fcvtDF i f => some (i, opFcvtDF i f)
  | .fcvtDDF i f => some (i, opFcvtDDF i f)
  | .fmov i f => some (i, opFmov i f)
  | .fneg i f => some (i, opFneg i f)
  | .fabs i f => some (i, opFabs i f)
  | .fmvf i f => some (i, opFmvf i f)
  | .fmvd i f => some (i, opFmvd i f)
  | .fkind i f => some (i, opFkind i f)
  | .fbar i => some (i, opFbar i)
  | .nop i => some (i, opNop i)
  | .bCc i cc a disp => some (i, opBCc i cc a disp)
  | .bra i a disp => some (i, opBra i a disp)
  | .call i a disp => some (i, opCall i a disp)
  | .callo i a disp => some (i, opCallo i a disp)
  | .jmp i a an => some (i, opJmp i a an)
  | .callAn i a an => some (i, opCallAn i a an)
  | .calloAn i a an => some (i, opCalloAn i a an)
  | .ret i a => some (i, opRet i a)
  | .reto i a => some (i, opReto i a)
  | .rte i => some (i, opRte i)
  | .loop i f => some (i, opLoop i f)
  | .rep i f => some (i, opRep i f)
  | .barp i b => some (i, opBarp i b)
  | .flushp i => some (i, opFlushp i)
  | .signal i c => some (i, opSignal i c)
  | .waite i => some (i, opWaite i)
  | .tstart i ds c => some (i, opTstart i ds c)
  | .tresume i c => some (i, opTresume i c)
  | .tstop i c => some (i, opTstop i c)
  | .tset i f => some (i, opTset i f)
  | _ => none

/-! ### User decode operations (R240–R242) -/

/-- Replace the five bits of `w` from bit `lo` as substitution code `k` says (R241). -/
def substAt (w lo k : Nat) (p : List Nat) : Nat :=
  if k = 0 then w
  else w - (w / 2 ^ lo % 32) * 2 ^ lo + ((p.getD (k - 1) 0) % 32) * 2 ^ lo

/-- Micro-operation i of entry u with its substitutions applied, as the 26 bits of a long operation. -/
def microWord (udt : SMap 14) (u i : Nat) (p : List Nat) : Nat :=
  let b := 26 * u + 2 + 3 * i
  let w := (smGet udt b).toNat + (smGet udt (b + 1)).toNat * 2 ^ 14
  let s := (smGet udt (b + 2)).toNat
  substAt (substAt (substAt w 12 (s / 64 % 8) p) 7 (s / 8 % 8) p) 2 (s % 8) p

/-- Header fields of entry u (R241): V, N. -/
def udtValid (udt : SMap 14) (u : Nat) : Bool := bitOf (smGet udt (26 * u)) 13
def udtLen (udt : SMap 14) (u : Nat) : Nat := (smGet udt (26 * u)).toNat / 2 ^ 10 % 8 + 1

/-- The micro-operations of an entry with the parameters of one use; none where one is undefined (R242). -/
def microOps (i : Site) (udt : SMap 14) (u : Nat) (p : List Nat) : List (Option Instr) :=
  (List.range (udtLen udt u)).map (fun k =>
    decodeLong { i with short := false, fin := .more, rsv := false } (microWord udt u k p))

/-- A V-family operation needs the vector unit, SETVL apart, and so does every vector access (R182). -/
def needsVec (op : Instr) (o : OpOut) : Bool :=
  match op with
  | .setvl _ _ => false
  | .setvlImmediate _ _ => false
  | .vld _ _ => true
  | .vst _ _ => true
  | .vlds _ _ => true
  | .vsts _ _ => true
  | .vldx _ _ => true
  | .vstx _ _ => true
  | _ => o.slots.contains .v

/-- An operation that raises illegal operation at its issue has waited for the vector unit if it needs it (R182, R183). -/
def withUnit (op : Instr) (o : OpOut) : OpOut :=
  if o.excs.isEmpty then o else { o with vec := o.vec || needsVec op o }

/-- The answer of a micro-operation: illegal where it is undefined or holds a reserved bit. -/
def microOut (x : IssueCtx) (m : Option Instr) : OpOut :=
  match m with
  | none => illegalOp []
  | some op =>
    match opBase op with
    | some (s, f) => withUnit op (if s.rsv then illegalOp (f x).slots else f x)
    | none => illegalOp []

/-- The words of entry u that a use reads: its header and its micro-operations (R241, R271). -/
def udtLook (udt : SMap 14) (u : Nat) : List (EccMem × Nat) :=
  (.udt, 26 * u) :: (List.range (3 * udtLen udt u)).map (fun k => (.udt, 26 * u + 2 + k))

/-- User decode operation (R242): every substituted field is checked and every page translated at the bundle's issue;
micro-operation 0 issues with the bundle, the others follow one by one. -/
def opUserDecode (i : Site) (uidx : BitVec 4) (p0 p1 p2 : BitVec 5) (p3 : BitVec 4) (x : IssueCtx) : OpOut :=
  let u := uidx.toNat
  let ms := microOps i x.c.udt u [p0.toNat, p1.toNat, p2.toNat, p3.toNat]
  let os := ms.map (microOut x)
  let first := os.headD {}
  let rest := os.drop 1
  if x.c.kind != .signal then illegalOp []
  else if !udtValid x.c.udt u then { illegalOp [] with look := [(.udt, 26 * u)] }
  else
    { slots := (os.flatMap (fun o => o.slots)).dedup
      excs := (if os.any (fun o => o.excs.any (fun e => e.code == 1)) then [⟨1, 0⟩]
               else (os.flatMap (fun o => o.excs)).take 1)
      reads := first.reads
      acts := first.acts ++
        (if rest.isEmpty then [] else [.micros ((ms.drop 1).filterMap (fun m => m))])
      vec := os.any (fun o => o.vec)
      fuse := os.any (fun o => o.fuse)
      wflags := os.any (fun o => o.wflags)
      touch := first.touch
      look := udtLook x.c.udt u ++ (os.flatMap (fun o => o.look)).dedup
      udo := !rest.isEmpty
      later := first.later ++ (rest.flatMap (fun o => o.acts)).flatMap actNames ++ rest.flatMap (fun o => o.later) }

/-- The answer of every operation that issues on a Lorner core. -/
def opMeaning : Instr → Option (Site × (IssueCtx → OpOut))
  | .userDecodeOperation i u p0 p1 p2 p3 => some (i, opUserDecode i u p0 p1 p2 p3)
  | op => opBase op

end Sys2Proof.Machine
end

