-- ==== Sys2Proof/Machine/Issue.lean ====
section
/-! DEFINITION. The issue of a bundle (R55–R71): its operations' answers read together, the stalls that hold it in
RD (R67), the exceptions that it raises (R134, R233, R234), and its effects, as one function of the core. What
leaves the core (requests to the fabric and to the page allocator) is answered beside it. -/

namespace Sys2Proof.Machine
open Sys2Proof

/-! ### Which operations have a short form (R232) -/

/-- A 3-bit register field of a short operation. -/
def lowReg (x : BitVec 5) : Bool := decide (x.toNat < 8)

/-- The operands of a short two-operand form: Dd := Dd op Ds. -/
def shortR3 (f : R3) : Bool := lowReg f.x && f.y == f.x && lowReg f.z && okZero f.b

/-- The operands of a short form that reads Y alone. -/
def shortR2 (f : R3) : Bool := lowReg f.x && lowReg f.y && okZero f.z && okZero f.b

/-- LD and ST in modes (An)+ and (An) with A0–A3. -/
def shortAM (f : AMF) : Bool := lowReg f.x && decide (f.an.toNat < 4) && decide (f.am.toNat < 2) && okZero f.mm

/-- The operation has a short form with these operands. -/
def shortForm : Instr → Bool
  | .ld _ f => shortAM f
  | .st _ f => shortAM f
  | .add _ (.reg f) => shortR3 f
  | .sub _ (.reg f) => shortR3 f
  | .cmp _ (.reg f) => okZero f.x && lowReg f.y && lowReg f.z && okZero f.b
  | .and _ f => shortR3 f
  | .or _ f => shortR3 f
  | .xor _ f => shortR3 f
  | .mov _ f => shortR2 f
  | .neg _ f => shortR2 f
  | .min _ f => shortR3 f
  | .max _ f => shortR3 f
  | .vadd _ f => shortR3 f
  | .vsub _ f => shortR3 f
  | .vaddh _ f => shortR3 f
  | .vsubh _ f => shortR3 f
  | .vmov _ f => shortR2 f
  | .vmulj _ f => shortR2 f
  | .vconj _ f => shortR2 f
  | .fadd _ f => shortR3 f
  | .fsub _ f => shortR3 f
  | .fmul _ f => shortR3 f
  | .fmov _ f => shortR2 f
  | .fneg _ f => shortR2 f
  | .fabs _ f => shortR2 f
  | .fbar _ => true
  | .nop _ => true
  | .waite _ => true
  | .signal _ _ => true
  | .barp _ _ => true
  | .flushp _ => true
  | .rte _ => true
  | .ret _ a => !a
  | .reto _ a => !a
  | _ => false

/-! ### Answers -/

/-- The answer of one operation of a bundle. -/
def opOut (x : IssueCtx) (op : Instr) : OpOut :=
  match opMeaning op with
  | none => {}
  | some (i, f) =>
    let o := f x
    withUnit op (if i.rsv || (i.short && !shortForm op) then illegalOp o.slots else o)

/-- The C-slot operation's control flow. -/
def ctlOf (os : List OpOut) : Option Ctl :=
  (os.flatMap (fun o => o.acts)).findSome? (fun a => match a with | .ctl k => some k | _ => none)

/-- Registers an operation's effects write, its later micro-operations included. -/
def OpOut.writes (o : OpOut) : List WName := (o.acts.flatMap actNames ++ o.later).filter (· != .flags)

/-- Two operations of the bundle write one register (R234). -/
def writeClash : List OpOut → Bool
  | [] => false
  | o :: os => os.any (fun p => o.writes.any (fun n => p.writes.contains n)) || writeClash os

/-- An MVS write of STAT beside a flag-writing operation (R234). -/
def statClash (os : List OpOut) : Bool :=
  os.any (fun o => o.writes.contains (.sys 0)) &&
    os.any (fun o => (o.wflags || o.acts.any (fun a => (actNames a).contains .flags)) && !o.writes.contains (.sys 0))

/-- An effect that starts the integer divider (R168). -/
def isDiv : Act → Bool
  | .unit false _ _ => true
  | _ => false

/-- Operations of the bundle in a slot. -/
def slotUse (os : List OpOut) (k : SlotK) : Nat := (os.filter (fun o => o.slots.contains k)).length

/-- The composition and placement rules of R234: the bundle is illegal. -/
def badBundle (t : Thread) (pc : IAddr) (size : Nat) (ended : Bool) (os : List OpOut) : Bool :=
  let confined := t.dslot.isSome || isTail t pc || t.rep.isSome
  !ended || t.past || decide (0x4000 < pc.toNat + size) ||
  decide (1 < slotUse os .a0) || decide (1 < slotUse os .a1) || decide (2 < slotUse os .d) ||
  decide (2 < slotUse os .v) || decide (1 < slotUse os .f) || decide (1 < slotUse os .c) ||
  writeClash os || statClash os ||
  decide (1 < (os.filter (fun o => o.acts.any isDiv)).length) || decide (1 < (os.filter (fun o => o.vx)).length) ||
  (os.any (fun o => o.isRep) && (decide (1 < os.length) || size != 1)) ||
  (confined && os.any (fun o => o.excl || o.isRte || o.udo))

/-- The order of R134: illegal operation, page fault, window empty, spill limit. -/
def excRank (e : Exc) : Nat :=
  match e.code.toNat with
  | 1 => 0
  | 2 => 1
  | 4 => 2
  | _ => 3

/-- The exception that the bundle raises: the first by R134, among equals by R61. -/
def firstExc (es : List Exc) : Option Exc :=
  es.foldl (fun m e => match m with
    | none => some e
    | some b => if excRank e < excRank b then some e else some b) none

/-! ### What leaves the core -/

/-- The outcome of an issue: the core, its requests to the fabric and the allocator, free values used, whether an
off-plan access occurred (R259), and the place of an uncorrectable error (R472: A and B of MEM_UNCORR). -/
structure Issued where
  core    : Core
  reqs    : List MemReq := []
  greqs   : List MemReq := []
  pages   : List PageReq := []
  used    : Nat := 0
  offPlan : Bool := false
  ecc     : Option (Nat × Nat) := none
deriving DecidableEq, Repr

/-- Requests of an issue that wait at the geode: the core's waiting ones in number, and its requester name. -/
structure Outside where
  waiting : Nat
  me      : Requester
  idx     : Nat
  free    : Nat
deriving DecidableEq, Repr

/-- The distinct rows of a list of places, in the order of first touch (R254, R256, R273). -/
def rowsOf {α : Type} (f : α → Bool × Nat) (l : List α) : List (Bool × Nat) :=
  l.foldl (fun rs a => let r := ((f a).1, (f a).2 / 32); if rs.contains r then rs else rs ++ [r]) []

/-- One request per row touched, in element order (R256). -/
def loadReqs (me : Requester) (tid rid : Nat) (offs : List (Nat × Bool × Nat)) : List (Bool × MemReq) :=
  let rs := rowsOf (fun (p : Nat × Bool × Nat) => p.2) offs
  (rs.zip (List.range rs.length)).map (fun r =>
    (r.1.1,
      { id := rid + r.2, by_ := me, tid := tid, rid := rid
        offs := (offs.filter (fun p => (p.2.1, p.2.2 / 32) == r.1)).map (fun p => (p.1, p.2.2)) }))

/-- One store-buffer entry per row touched, in element order (R273). -/
def storeEntries (id : Nat) (ws : List (Bool × Nat × Word)) : List SbEntry :=
  let rs := rowsOf (fun (p : Bool × Nat × Word) => (p.1, p.2.1)) ws
  (rs.zip (List.range rs.length)).map (fun r =>
    let mine := (ws.filter (fun p => (p.1, p.2.1 / 32) == r.1)).map (fun p => p.2)
    ⟨id + r.2, if r.1.1 then .glb mine else .shm mine⟩)

/-- Rows of the shared window that a vector access touches beyond its first (R195). -/
def farRows (as : List Act) : Nat :=
  let beyond := fun (rs : List (Bool × Nat)) => (rs.filter (fun r => !r.1)).length - 1
  (as.map (fun a => match a with
    | .load offs (.v _) => beyond (rowsOf (fun (p : Nat × Bool × Nat) => p.2) offs)
    | .load offs (.kept _) => beyond (rowsOf (fun (p : Nat × Bool × Nat) => p.2) offs)
    | .put _ ws => beyond (rowsOf (fun (p : Bool × Nat × Word) => (p.1, p.2.1)) ws)
    | _ => 0)).sum

/-- Those of the vector accesses of a bundle. -/
def bundleRows (os : List OpOut) : Nat := ((os.filter (fun o => o.vec)).map (fun o => farRows o.acts)).sum

/-- The destination of a window load: one of a vector register by several rows is counted already (R195). -/
def loadDst (as : Act) : LoadDst → LoadDst
  | .v n => if farRows [as] = 0 then .v n else .rows n
  | d => d

/-- Accesses to a window that effects make. -/
def accessCount (stores : Bool) (as : List Act) : Nat :=
  (as.filter (fun a => match a with
    | .load _ _ => !stores
    | .put _ _ => stores
    | _ => false)).length

/-- Window requests and store-buffer entries that effects need (R256, R273). -/
def reqCount (as : List Act) : Nat :=
  (as.map (fun a => match a with
    | .load offs _ => (rowsOf (fun (p : Nat × Bool × Nat) => p.2) offs).length
    | _ => 0)).sum
def sbCount (as : List Act) : Nat :=
  (as.map (fun a => match a with
    | .put _ ws => (rowsOf (fun (p : Bool × Nat × Word) => (p.1, p.2.1)) ws).length
    | .signal _ => 1
    | _ => 0)).sum

/-! ### Effects -/

/-- Add a landing of the bundle under issue. -/
def addPend (c : Core) (tid : Nat) (p : Pend) : Core := onThread c tid (fun t => { t with flight := t.flight ++ [p] })

/-- The order in which effects of one bundle leave the core: loads, stores of A0, stores of A1, the SIGNAL marker
(R273, R274). -/
def actRank : Act → Nat
  | .load _ _ => 0
  | .put false _ => 1
  | .put true _ => 2
  | .signal _ => 3
  | _ => 0

/-- Effects in that order. -/
def ordered (as : List Act) : List Act :=
  (List.range 4).flatMap (fun k => as.filter (fun a => actRank a == k))

/-- One effect of a bundle of thread `tid` that issues at advancing cycle `adv` as number `seq` (R65). `now` holds for
what a faulting gather keeps (R197): VSTART and the elements that are at hand are written at once, and the elements land
again before every write of a later bundle. -/
def applyAct (o : Outside) (tid adv seq : Nat) (now : Bool) (r : Issued) : Act → Issued
  | .wr w lat =>
    { r with core := match now, w with
        | true, .vstart v => onThread r.core tid (fun t => { t with vstart := v })
        | true, _ => addPend (landOne r.core tid w) tid ⟨adv, seq, w⟩
        | false, _ => addPend r.core tid ⟨adv + lat, seq, w⟩ }
  | .store y a v =>
    { r with core := if y then { r.core with y := r.core.y.write a v } else { r.core with x := r.core.x.write a v } }
  | .load offs dst =>
    let rid := r.core.nextId
    let ms := loadReqs o.me tid rid offs
    let c1 := addPend r.core tid ⟨if now then adv else adv + 16, seq, .load rid offs.length (loadDst (.load offs dst) dst)⟩
    { r with
      core := { c1 with nextId := rid + ms.length + 1 }
      reqs := r.reqs ++ (ms.filter (fun m => !m.1)).map (fun m => m.2)
      greqs := r.greqs ++ (ms.filter (fun m => m.1)).map (fun m => m.2) }
  | .put _ ws =>
    let es := storeEntries r.core.nextId ws
    { r with core := { r.core with sb := r.core.sb ++ es, nextId := r.core.nextId + es.length } }
  | .signal u =>
    { r with core := { r.core with sb := r.core.sb ++ [⟨r.core.nextId, .signal u⟩], nextId := r.core.nextId + 1 } }
  | .page alloc a1 tbl v =>
    let id := r.core.nextId
    { r with
      core := { addPend r.core tid ⟨adv + 16, seq, .page id tbl v⟩ with nextId := id + 1 }
      pages := r.pages ++ [⟨id, o.idx, tbl, a1, alloc, v⟩] }
  | .unit fdiv lat ws =>
    let u : UnitPend := ⟨tid, seq, lat, ws⟩
    { r with core := if fdiv then { r.core with fdivu := some u } else { r.core with divu := some u } }
  | .ctl _ => r
  | .micros _ => r

/-- The effects of a bundle. -/
def applyActs (o : Outside) (tid adv seq : Nat) (now : Bool) (r : Issued) (as : List Act) : Issued :=
  (ordered as).foldl (applyAct o tid adv seq now) r

/-! ### Stalls (R67) -/

/-- Registers that a pending result of a unit writes. -/
def UnitPend.names (u : UnitPend) : List WName := (u.ws.flatMap regNames).filter (· != .flags)

/-- The interlock of R68 for one unit: the bundle reads or writes the pending destination of its own thread, or issues
to the busy unit. -/
def interlocked (u : Option UnitPend) (tid : Nat) (os : List OpOut) (toUnit : Bool) : Bool :=
  match u with
  | none => false
  | some p =>
    toUnit || (p.tid == tid && os.any (fun o => p.names.any (fun n => o.reads.contains n || o.writes.contains n)))

/-- An effect that starts the divide and square-root unit. -/
def isFdiv : Act → Bool
  | .unit true _ _ => true
  | _ => false

/-- A stall begins: an off-plan one is counted with its accesses and a length that the model leaves free (R259). -/
def stallNow (o : Outside) (c : Core) (k : Stall) (accesses : Nat) : Issued :=
  let again := c.stall == some k
  let off := (k == .loadData || k == .requests || k == .storeBuffer) && !again
  { core :=
      { c with
        stall := some k
        offAcc := if off then ctrAdd 48 c.offAcc accesses else c.offAcc
        offStall := if off then ctrAdd 48 c.offStall (Config.freeValue o.free + 1) else c.offStall }
    used := if off then 1 else 0
    offPlan := off }

/-- A load that holds the level is counted with its stall (R258, R259), unless its rows were counted at its issue (R195,
log entry 137). -/
def RegW.countsLate : RegW → Bool
  | .load _ _ (.rows _) => false
  | .load _ _ _ => true
  | _ => false

/-- Loads that hold the level because their data is missing (R258). -/
def missingLoads (c : Core) (t : Thread) (n : Nat) : Nat :=
  (t.flight.filter (fun p => decide (p.due ≤ n) && !p.w.ready c t && p.w.countsLate)).length

/-- The room that the requests and store-buffer entries of a bundle of thread `tid` need (R256, R273): none, or the
stall. What a bundle sends beyond eight requests or four entries holds the next bundle of its own level until the last of
it has left; of another level only a bundle that needs room itself. -/
def roomStall (o : Outside) (c : Core) (tid : Nat) (as : List Act) : Option Stall :=
  let n := reqCount as
  let m := sbCount as
  let w := o.waiting + c.lateReqs.length
  if c.lateReqs.any (fun q => q.2.tid == tid) ∨ (8 < n ∧ w ≠ 0) ∨ (0 < n ∧ n ≤ 8 ∧ 8 < w + n) then some .requests
  else if (4 < c.sb.length ∧ c.sbTid = tid) ∨ (4 < m ∧ c.sb.length ≠ 0) ∨ (0 < m ∧ m ≤ 4 ∧ 4 < c.sb.length + m) then
    some .storeBuffer
  else none

/-- The accesses that such a stall makes off-plan (R259). -/
def roomAccesses (k : Stall) (as : List Act) : Nat := accessCount (k == .storeBuffer) as

/-- What a bundle of thread `tid` sends beyond its eighth request stays with the core, in the order of issue, and entries
beyond the fourth are known for the thread's (R256, R273). -/
def keepLate (tid : Nat) (r : Issued) : Issued :=
  let r1 := if 4 < r.core.sb.length then { r with core := { r.core with sbTid := tid } } else r
  if r1.reqs.length + r1.greqs.length ≤ 8 then r1
  else
    let l := (r1.reqs.map (fun q => (false, q)) ++ r1.greqs.map (fun q => (true, q))).mergeSort
      (fun p q => decide (p.2.id ≤ q.2.id))
    { r1 with
      reqs := ((l.take 8).filter (fun p => !p.1)).map (fun p => p.2)
      greqs := ((l.take 8).filter (fun p => p.1)).map (fun p => p.2)
      core := { r1.core with lateReqs := r1.core.lateReqs ++ l.drop 8 } }

/-- Off-plan accesses are counted at issue (R195, R259). -/
def countFar (n : Nat) (r : Issued) : Issued :=
  if n = 0 then r else { r with core := { r.core with offAcc := ctrAdd 48 r.core.offAcc n }, offPlan := true }

/-- The wake of the vector unit begins unless one is under way (R183). -/
def startWake (c : Core) : Core :=
  if c.vwaking then c else { c with vwaking := true, vwakes := ctrAdd 48 c.vwakes 1 }

/-- The F state that a use needs is the level's own (R136): FAV becomes 1 where the file already holds it. -/
def claimF (c : Core) (tid : Nat) : Option Core :=
  match c.kind with
  | .signal =>
    match c.threads[tid]? with
    | none => none
    | some t =>
      if bitOf t.stat 12 && fOwned c tid then some c
      else if fOwned c tid then some (onThread c tid (fun u => { u with stat := setBit u.stat 12 true }))
      else none
  | _ => some c

/-! ### Errors in the words that a bundle reads (R270, R271) -/

/-- The errors marked in one of a core's data memories and tables (R269). -/
def Core.marks (c : Core) : EccMem → EccMarks
  | .x => ⟨c.x.corr, c.x.unc⟩
  | .y => ⟨c.y.corr, c.y.unc⟩
  | .tbl => c.tblE
  | .udt => c.udtE

/-- A of MEM_UNCORR for it (R472). -/
def eccCode : EccMem → Nat
  | .x => 0
  | .y => 1
  | .tbl => 5
  | .udt => 5

/-- The word that a read corrects is written back (R270). -/
def correctWord (c : Core) (p : EccMem × Nat) : Core :=
  match p.1 with
  | .x => { c with x := c.x.corrected p.2 }
  | .y => { c with y := c.y.corrected p.2 }
  | .tbl => { c with tblE := c.tblE.corrected p.2 }
  | .udt => { c with udtE := c.udtE.corrected p.2 }

/-- The first uncorrectable word of the bundle's syllables or of the words that it reads: A and B of MEM_UNCORR. -/
def eccBad (c : Core) (pc size : Nat) (touch : List (EccMem × Nat)) : Option (Nat × Nat) :=
  match (List.range size).find? (fun k => c.imem.unc.contains (pc + k)) with
  | some k => some (2, pc + k)
  | none => (touch.find? (fun p => (c.marks p.1).unc.contains p.2)).map (fun p => (eccCode p.1, p.2))

/-- Single-bit errors of those words are corrected, counted and written back. -/
def eccClean (c : Core) (pc size : Nat) (touch : List (EccMem × Nat)) : Core :=
  let i := (List.range size).filter (fun k => c.imem.corr.contains (pc + k))
  let ws := touch.filter (fun p => (c.marks p.1).corr.contains p.2)
  let d := ws.foldl correctWord c
  { d with
    imem := i.foldl (fun m k => m.corrected (pc + k)) c.imem
    eccCorr := ctrAdd 16 c.eccCorr (i.length + ws.length) }

/-- An uncorrectable word stops the core before the bundle takes effect (R271), at level L3 as a double fault (R135); a
Lorner-S core halts (R143). -/
def eccStop (c : Core) (place : Nat × Nat) : Issued :=
  let c1 := { c with eccUnc := ctrAdd 16 c.eccUnc 1 }
  { core := match c.kind with
      | .signal => { stopCore c1 .ecc with attn := true, df := c.df || c.l3act }
      | _ => stopCore c1 .halted
    ecc := some place }

/-! ### Micro-operations (R242) -/

/-- A memory micro-operation. -/
def isMemOp : Instr → Bool
  | .ld _ _ => true
  | .ldD _ _ => true
  | .st _ _ => true
  | .stD _ _ => true
  | .vld _ _ => true
  | .vst _ _ => true
  | .vlds _ _ => true
  | .vsts _ _ => true
  | _ => false

/-- What a micro-operation reads: registers as landed; a memory address is formed from the address registers, and
translated, as at the bundle's issue. -/
def microCtx (c : Core) (tid : Nat) (t : Thread) (m : MicroSt) (op : Instr) : IssueCtx :=
  { c := { c with tbl := m.tbl }
    tid := tid
    t := if isMemOp op then { t with a := m.a, m := m.m, b := m.b, l := m.l } else t
    pc := m.pc
    size := bundleSize c.imem.cells m.pc.toNat }

/-- The next micro-operation issues, or stalls. Answers whether it issued. -/
def microOne (o : Outside) (r : Issued) (tid : Nat) : Issued × Bool :=
  match r.core.threads[tid]? with
  | none => (r, false)
  | some t =>
    match t.micro with
    | none => (r, false)
    | some m =>
      match m.ops with
      | [] => ({ r with core := { onThread r.core tid (fun u => { u with micro := none }) with stall := none } }, false)
      | op :: rest =>
        let joined := fun (q : Issued) =>
          ({ r with core := q.core, used := r.used + q.used, offPlan := r.offPlan || q.offPlan, ecc := q.ecc }, false)
        let stalled := fun (k : Stall) (n : Nat) => joined (stallNow o r.core k n)
        if loadMissing r.core t t.adv then stalled .loadData (missingLoads r.core t t.adv)
        else
          let c1 := landUpTo r.core tid t.adv
          let v := c1.threads.getD tid t
          let out := opOut (microCtx c1 tid v m op) op
          if interlocked r.core.divu tid [out] false then stalled .divider 0
          else if interlocked r.core.fdivu tid [out] out.fwait then stalled .fdivider 0
          else match roomStall { o with waiting := o.waiting + r.reqs.length + r.greqs.length } r.core tid out.acts with
            | some k => stalled k (roomAccesses k out.acts)
            | none =>
              match eccBad c1 0 0 out.touch with
              | some place => joined (eccStop r.core place)
              | none =>
                let q := countFar (bundleRows [out])
                  (applyActs o tid t.adv v.seq false { r with core := { eccClean c1 0 0 out.touch with stall := none } }
                    out.acts)
                let c2 := onThread q.core tid (fun u =>
                  { u with
                    adv := u.adv + 1
                    micro := if rest.isEmpty then none else some { m with ops := rest } })
                ({ q with core := (landUpTo c2 tid t.adv).spend 1 }, true)

/-- Micro-operations issue one by one until one stalls or none is left; at most `n`. -/
def microRun (o : Outside) (tid : Nat) : Nat → Issued → Issued
  | 0, r => r
  | n + 1, r =>
    let q := microOne o r tid
    if q.2 then microRun o tid n q.1 else q.1

/-! ### The bundle -/

/-- The core that a bundle or an annulled slot leaves in RD. -/
def Core.leaveRd (c : Core) : Core := { c with asm := [], stall := none, fresh := false, brkPass := false }

/-- The bundle issues: its effects, its control flow, its advancing cycles, and what lands in them. -/
def commit (o : Outside) (c : Core) (tid : Nat) (t : Thread) (size : Nat) (os : List OpOut) : Issued :=
  let as := os.flatMap (fun p => p.acts)
  let k := ctlOf os
  let pc := t.pc
  let c0 := { c.leaveRd with issued := ctrAdd 48 c.issued 1 }
  let c1 := onThread c0 tid (fun u => { u with seq := u.seq + 1 })
  let r := countFar (bundleRows os) (applyActs o tid t.adv t.seq false { core := c1 } as)
  let f := flow r.core tid t pc size k
  let ms := as.findSome? (fun a => match a with | .micros is => some is | _ => none)
  let c2 := onThread f.1 tid (fun u =>
    { u with
      adv := t.adv + 1 + f.2.1
      micro := ms.map (fun is =>
        { ops := is, pc := pc, a := t.a, m := t.m, b := t.b, l := t.l, tbl := c.tbl }) })
  let c3 := landUpTo (c2.spend (1 + f.2.1 + f.2.2)) tid (t.adv + f.2.1)
  let q := keepLate tid (microRun o tid 8 { r with core := c3 })
  { q with core := countStep (afterBundle (doCtl q.core tid k) tid) }

/-- An annulled delay slot: a bubble in its issue cycle (R75). Its bundle has been in DC, where it took its DC actions
(R81); UNVERIFIED: a redirect that they make is not followed (log entry 138). -/
def annulled (c : Core) (tid : Nat) (t : Thread) (size : Nat) : Issued :=
  let late := (t.dslot.bind (fun s => s.flush)).isSome
  let c0 := if late then c.leaveRd else passDc c.leaveRd tid t t.pc.toNat
  let f := flow c0 tid t t.pc size none
  let c1 := onThread f.1 tid (fun u => { u with adv := t.adv + 1 + f.2.1 })
  { core := afterBundle (landUpTo (c1.spend (1 + f.2.1)) tid (t.adv + f.2.1)) tid }

/-- The words that a faulting bundle has read: table entries, and the elements that a faulting gather keeps (R197,
R270). -/
def faultTouch (os : List OpOut) (e : Exc) : List (EccMem × Nat) :=
  os.flatMap (fun p => p.look ++ (if p.vx && e.code == 2 then p.touch else []))

/-- The bundle faults: only what R197 keeps of it happens, and the exception is taken; errors in the words that were read
are corrected (R100, R270). DESIGN CHOICE: a page-faulting gather or scatter keeps its elements and writes VSTART also
where the page fault that XADDR reports is that of another operation (log entry 95). -/
def faulted (o : Outside) (c : Core) (tid : Nat) (t : Thread) (size : Nat) (os : List OpOut) (e : Exc) : Issued :=
  let ks := if e.code = 2 then os.flatMap (fun p => p.keep) else []
  let c1 := eccClean { c with asm := [], ghost := [], stall := none } t.pc.toNat size (faultTouch os e)
  let r := keepLate tid (countFar (farRows ks) (applyActs o tid t.adv t.seq true { core := c1 } ks))
  { r with core := takeExc r.core tid e size 1 }

/-- The stored breakpoints match the bundle (R485). -/
def breakHere (c : Core) (pc : IAddr) : Bool := !c.brkPass && (c.brk0 == some pc || c.brk1 == some pc)

/-- The bundle in `asm`: whether it ends, and its size in syllables. -/
def bundleEnded (c : Core) : Bool := (c.asm.getLast?.bind (fun op => (opMeaning op).map (fun p => p.1.fin))) != some .unended
def asmSize (c : Core) : Nat :=
  match c.asm.getLast?.bind opMeaning with
  | some (i, _) => i.syl.toNat + 1
  | none => 1

/-- What the operations of the bundle in `asm` answer, on a core with every due result landed (R65). -/
def bundleOuts (c c1 : Core) (tid : Nat) (v : Thread) (pc : IAddr) : List OpOut :=
  c.asm.map (opOut { c := c1, tid := tid, t := v, pc := pc, size := asmSize c })

/-- The precise exception that the bundle raises (R134, R233, R234). -/
def bundleExc (c : Core) (v : Thread) (pc : IAddr) (os : List OpOut) : Option Exc :=
  if badBundle v pc (asmSize c) (bundleEnded c) os then some ⟨1, 0⟩ else firstExc (os.flatMap (fun p => p.excs))

/-- What holds the bundle in RD besides missing data (R67), with the accesses that it makes off-plan. -/
def bundleStall (o : Outside) (c : Core) (tid : Nat) (os : List OpOut) : Option (Stall × Nat) :=
  let as := os.flatMap (fun p => p.acts)
  if interlocked c.divu tid os (os.any (fun p => p.acts.any isDiv)) then some (.divider, 0)
  else if interlocked c.fdivu tid os (os.any (fun p => p.fwait || p.acts.any isFdiv)) then some (.fdivider, 0)
  else if os.any (fun p => p.vec) && !c.vpow then some (.vectorWake, 0)
  else (roomStall o c tid as).map (fun k => (k, roomAccesses k as))

/-- The words of data and tables that the bundle reads (R270, R271). -/
def bundleTouch (os : List OpOut) : Option Exc → List (EccMem × Nat)
  | none => os.flatMap (fun p => p.look ++ p.touch)
  | some e => faultTouch os e

/-- The bundle is an annulled delay slot (R75). -/
def isAnnulled (t : Thread) : Bool := (t.dslot.map (fun s => s.annul)).getD false

/-- The bundle in `asm` of the running thread issues, stalls, faults or halts the core. -/
def issueBundle (o : Outside) (c : Core) (tid : Nat) (t : Thread) : Issued :=
  if breakHere c t.pc then { core := haltCore c }
  else if loadMissing c t t.adv then stallNow o c .loadData (missingLoads c t t.adv)
  else if isAnnulled t then annulled c tid t (asmSize c)
  else
    let c1 := landUpTo c tid t.adv
    let v := c1.threads.getD tid t
    let os := bundleOuts c c1 tid v t.pc
    let exc := bundleExc c v t.pc os
    match bundleStall o c tid os with
    | some (k, n) => stallNow o (if k = .vectorWake then startWake c else c) k n
    | none =>
      match eccBad c1 t.pc.toNat (asmSize c) (bundleTouch os exc) with
      | some place => eccStop c place
      | none =>
        match exc with
        | some e => faulted o c tid t (asmSize c) os e
        | none =>
          match (if os.any (fun p => p.fuse) then claimF c1 tid else some c1) with
          | none => stallNow o c .lazyF 0
          | some c2 =>
            commit o (eccClean c2 t.pc.toNat (asmSize c) (bundleTouch os none)) tid (c2.threads.getD tid v) (asmSize c) os

/-- The exception that the bundle in `asm` raises in this cycle: nothing stalls it, and no uncorrectable word stops it. -/
def raisesNow (o : Outside) (c : Core) (tid : Nat) (t : Thread) : Bool :=
  let c1 := landUpTo c tid t.adv
  let v := c1.threads.getD tid t
  let os := bundleOuts c c1 tid v t.pc
  let exc := bundleExc c v t.pc os
  !breakHere c t.pc && !loadMissing c t t.adv && !isAnnulled t && (bundleStall o c tid os).isNone &&
    (eccBad c1 t.pc.toNat (asmSize c) (bundleTouch os exc)).isNone && exc.isSome

/-- The waiting bundle, or the micro-operations under way, of the running thread go on where they can. -/
def tryIssue (o : Outside) (c : Core) : Issued :=
  match c.run with
  | .idle => { core := c }
  | .lvl tid =>
    match c.threads[tid]? with
    | none => { core := c }
    | some t =>
      match t.micro with
      | some _ =>
        let r := microRun o tid 8 { core := c }
        if r.core.stall.isSome then r else { r with core := afterBundle r.core tid }
      | none => if c.asm.isEmpty then { core := { c with stall := none } } else issueBundle o c tid t

/-- A core takes an operation: it runs, nothing holds it, and no dispatch is due where the bundle would begin. -/
def takes (c : Core) : Bool :=
  c.live && c.stall.isNone && c.run != .idle && !(c.asm.isEmpty && atDispatchPoint c && dispatchDue c)

/-- An event dispatch alone is due where the bundle would begin: no trap (R218) and no TSTOP. -/
def behindEvent (c : Core) : Bool :=
  c.live && c.asm.isEmpty && atDispatchPoint c && dispatchDue c &&
    (match c.run with
     | .idle => false
     | .lvl k => match c.threads[k]? with
       | some t => t.trapDue.isNone && !t.stopReq
       | none => false)

/-- An operation of a bundle behind a due dispatch: with the last one the bundle raises its precise exception, if it has
one, and the event remains pending; otherwise the bundle is not issued (R72). -/
def offerBehind (o : Outside) (c : Core) (op : Instr) (fin : BundleEnd) : Issued :=
  let c1 := { c with ghost := c.ghost ++ [op] }
  match fin, c.run with
  | .more, _ => { core := c1 }
  | _, .lvl k =>
    let c2 := { c with asm := c1.ghost, ghost := [] }
    match c.threads[k]? with
    | some t => if raisesNow o c2 k t then issueBundle o c2 k t else { core := { c with ghost := [] } }
    | none => { core := c }
  | _, .idle => { core := c }

/-- An operation reaches the core: it joins the bundle, and the last one issues it. -/
def offer (o : Outside) (c : Core) (op : Instr) (fin : BundleEnd) : Issued :=
  if !takes c then (if behindEvent c then offerBehind o c op fin else { core := c })
  else
    let c1 := { c with asm := c.ghost ++ c.asm ++ [op], ghost := [] }
    match fin with
    | .more => { core := c1 }
    | _ => tryIssue o c1

end Sys2Proof.Machine
end

