-- ==== Sys2Proof/Machine/Ops.lean ====
section
/-! DEFINITION. The operations over the whole device's state that the meanings share: its parts by number, free
values, event lines, the error log (R470), host bytes (R8, R431), reply-ring entries (R434–R437) and MSI-X (R429), the
fabric register block (R261, R378), the memories behind the windows (R246, R271), and the issue of an operation on a
core of the device. -/

namespace Sys2Proof.Machine
open Sys2Proof

/-! ### Parts of the device -/

/-- The place of a core in `State.cores` (R22). -/
def coreIdx : CoreRef → Nat
  | .sig g c => 9 * g.val + c.val
  | .sup g => 72 + g.val
  | .hub => 80

/-- The geode of a core; none for the hub. -/
def coreGeode : CoreRef → Option Nat
  | .sig g _ => some g.val
  | .sup g => some g.val
  | .hub => none

/-- The index that page requests, the master copy and `Requester` use: 0–8, the supervisor 9 (R266). -/
def coreNum : CoreRef → Nat
  | .sig _ c => c.val
  | .sup _ => 9
  | .hub => 10

/-- The requester name of a core (R255). -/
def requesterOf : CoreRef → Requester
  | .sig _ c => .core c.val
  | _ => .sup

def State.coreAt (s : State) (n : Nat) : Core := s.cores.getD n Core.signalReset
def State.core (s : State) (r : CoreRef) : Core := s.coreAt (coreIdx r)
def State.geode (s : State) (g : Nat) : Geode := s.geodes.getD g Geode.reset
def State.pos (s : State) (p : Nat) : Pos := s.poss.getD p {}
def State.quad (s : State) (q : Nat) : Quad := s.quads.getD q {}
def State.fn (s : State) (f : Nat) : Fn := s.fns.getD f {}

def State.onCoreAt (s : State) (n : Nat) (f : Core → Core) : State := { s with cores := modAt s.cores n f }
def State.onCore (s : State) (r : CoreRef) (f : Core → Core) : State := s.onCoreAt (coreIdx r) f
def State.onGeode (s : State) (g : Nat) (f : Geode → Geode) : State := { s with geodes := modAt s.geodes g f }
def State.onPos (s : State) (p : Nat) (f : Pos → Pos) : State := { s with poss := modAt s.poss p f }
def State.onQuad (s : State) (q : Nat) (f : Quad → Quad) : State := { s with quads := modAt s.quads q f }
def State.onFn (s : State) (n : Nat) (f : Fn → Fn) : State := { s with fns := modAt s.fns n f }
def State.onHub (s : State) (f : Hub → Hub) : State := { s with hub := f s.hub }
def State.onAon (s : State) (f : Aon → Aon) : State := { s with aon := f s.aon }
def State.onLink (s : State) (f : Link → Link) : State := { s with link := f s.link }
def State.onMon (s : State) (f : Mon → Mon) : State := { s with mon := f s.mon }

/-- Something leaves the device. -/
def State.emit (s : State) (o : Out) : State := { s with out := o :: s.out }

/-- The next free value (log entry 3), and the state that has used it. -/
def State.fresh (s : State) : Nat × State := (Config.freeValue s.free, { s with free := s.free + 1 })

/-- Change every element with its index. -/
def mapIdxFrom {α : Type} (f : Nat → α → α) : Nat → List α → List α
  | _, [] => []
  | n, x :: xs => f n x :: mapIdxFrom f (n + 1) xs

/-! ### Event lines -/

/-- A line of a core becomes pending. -/
def State.raise (s : State) (r : CoreRef) (n : Nat) : State := s.onCore r (fun c => raiseLine c n)
def State.raiseSup (s : State) (g n : Nat) : State := s.onCoreAt (72 + g) (fun c => raiseLine c n)
def State.raiseHub (s : State) (n : Nat) : State := s.onCoreAt 80 (fun c => raiseLine c n)

/-- A source outside the hub raises a line of it (R142); a hub that is off or in reset sees none. -/
def State.hubLine (s : State) (n : Nat) : State := if s.aon.islandsOff || s.aon.inReset then s else s.raiseHub n

/-- The same change for a run of places in a list. -/
def modRange {α : Type} (l : List α) (i n : Nat) (f : α → α) : List α :=
  mapIdxFrom (fun k x => if i ≤ k ∧ k < i + n then f x else x) 0 l

/-- A line of every signal core of a geode becomes pending (R275). -/
def State.raiseCores (s : State) (g n : Nat) : State :=
  { s with cores := modRange s.cores (9 * g) 9 (fun c => raiseLine c n) }

/-! ### The error log (R470–R472) -/

/-- What an entry of the log says; FN, GEODE and UNIT 0xFF and JOB 0 name none. -/
structure LogReq where
  kind  : Nat
  fn    : Byte := 0xFF
  job   : U16 := 0
  geode : Byte := 0xFF
  unit  : Byte := 0xFF
  a     : U32 := 0
  b     : U32 := 0
deriving DecidableEq, Repr

/-- Kinds whose B is a number of occurrences (R472): INPUT_OVERRATE, INPUT_LATE, LANE_UNCORR, RESULT_GAP's frames. -/
def sumsB (kind : Nat) : Bool := kind == 0x18 || kind == 0x19 || kind == 0x1A || kind == 0x1B

/-- The occurrence joins an entry of the running beacon period (R53, R470). -/
def LogEntry.joins (e : LogEntry) (r : LogReq) : Bool :=
  !e.readable && e.kind.toNat == r.kind && e.fn == r.fn && e.job == r.job &&
    (r.job != 0 || (e.geode == r.geode && e.unit == r.unit))

/-- One more occurrence. -/
def LogEntry.again (e : LogEntry) (r : LogReq) : LogEntry :=
  { e with count := Nat.min 0xFFFF (e.count + 1), b := if sumsB r.kind then e.b + r.b else e.b }

/-- The last beacon that the hub knows. -/
def State.beaconNow (s : State) : U32 :=
  match s.hub.beacon with
  | some n => n
  | none => s.aon.lastBeacon.getD 0

/-- Write an entry: the 4,096 most recent are kept (R470). A hub that has halted or is switched off writes none. -/
def State.log (s : State) (r : LogReq) : State :=
  if s.hub.halted || s.aon.islandsOff then s
  else if s.hub.log.any (fun e => e.joins r) then
    s.onHub (fun h => { h with log := h.log.map (fun e => if e.joins r then e.again r else e) })
  else
    let e : LogEntry :=
      { seq := s.hub.logSeq, kind := BitVec.ofNat 16 r.kind, fn := r.fn, job := r.job, geode := r.geode, unit := r.unit
        count := 1, beacon := s.beaconNow, a := r.a, b := r.b, time := s.aon.time, readable := false }
    s.onHub (fun h =>
      { h with
        log := (if 4096 ≤ h.log.length then h.log.drop 1 else h.log) ++ [e]
        logSeq := h.logSeq + 1 })

/-- A performance counter outside the signal cores has just come to its limit (R473, R476): block and index of R475. -/
def State.counterStuck (s : State) (block idx old new : Nat) : State :=
  if new = 2 ^ 48 - 1 ∧ old ≠ 2 ^ 48 - 1 then
    s.log { kind := 0x28, a := BitVec.ofNat 32 block, b := BitVec.ofNat 32 idx }
  else s

/-- Numbers as 32-bit fields, and as bytes. -/
def u32 (n : Nat) : U32 := BitVec.ofNat 32 n
def byteOf (n : Nat) : Byte := BitVec.ofNat 8 n

/-- The class of a kind (R472). -/
def logClass (kind : Nat) : Nat :=
  match kind with
  | 0x05 => 5 | 0x06 => 5 | 0x07 => 5
  | 0x08 => 4 | 0x09 => 4 | 0x0A => 4 | 0x0C => 4 | 0x0F => 4 | 0x11 => 4
  | 0x0D => 3 | 0x10 => 3 | 0x1C => 3 | 0x25 => 3 | 0x26 => 3
  | 0x13 => 1
  | 0x12 => 2 | 0x14 => 2 | 0x16 => 2 | 0x17 => 2 | 0x18 => 2 | 0x19 => 2 | 0x1A => 2 | 0x1B => 2 | 0x1D => 2
  | 0x1E => 2 | 0x1F => 2 | 0x20 => 2 | 0x21 => 2 | 0x22 => 2 | 0x23 => 2 | 0x24 => 2
  | _ => 0

/-! ### Host bytes (R8, R11, R431) -/

/-- A number as n bytes, the least significant first. -/
def leBytes : Nat → Nat → List Byte
  | 0, _ => []
  | n + 1, v => byteOf v :: leBytes n (v / 256)

/-- The number that bytes spell, the least significant first. -/
def leNat : List Byte → Nat
  | [] => 0
  | b :: bs => b.toNat + 256 * leNat bs

/-- Bytes `o` to `o + n − 1` as a number. -/
def leAt (bs : List Byte) (o n : Nat) : Nat := leNat ((bs.drop o).take n)

/-- Device time in the 16-byte layout of R11: seconds, and the fraction in units of 2⁻⁵⁶ s shifted left by 8. -/
def timeBytes (t : DTime) : List Byte :=
  leBytes 8 (t.toNat / 2 ^ 80) ++ leBytes 8 ((t.toNat / 2 ^ 24 % 2 ^ 56) * 2 ^ 8)

/-- One step of the reflected Castagnoli CRC, and one byte. -/
def crcBit (v : Nat) : Nat := if v % 2 = 1 then (v / 2) ^^^ 0x82F63B78 else v / 2
def crcByte (v b : Nat) : Nat := crcBit (crcBit (crcBit (crcBit (crcBit (crcBit (crcBit (crcBit (v ^^^ b))))))))

/-- CRC-32C (R431). -/
def crc32c (bs : List Byte) : U32 := u32 (bs.foldl (fun v b => crcByte v b.toNat) 0xFFFFFFFF ^^^ 0xFFFFFFFF)

/-- The CRC field of a packet or entry: 0 for an empty payload (R431). -/
def crcField (bs : List Byte) : U32 := if bs.isEmpty then 0 else crc32c bs

/-! ### MSI-X (R426, R429) -/

/-- Word i of the MSI-X table and PBA as it reads. -/
def msixWord (f : Fn) (i : Nat) : U32 :=
  let v := smGet f.msix i
  if i < 256 ∧ i % 4 = 3 then v ^^^ 1 else v

/-- A message of vector v of function f: sent, or kept pending where the vector is masked; none in D3hot (R423). -/
def State.sendMsix (s : State) (f v : Nat) : State :=
  let x := s.fn f
  if x.d3 then s
  else if bitOf (msixWord x (4 * v + 3)) 0 then
    let w := 512 + v / 32
    s.onFn f (fun y => { y with msix := smPut y.msix w (smGet y.msix w ||| (1#32 <<< (v % 32))) })
  else s.emit (.msix f v)

/-- Vector 1 of one function, and of every function (R429, R450). -/
def State.notify (s : State) (f : Nat) : State := s.sendMsix f 1
def State.notifyAll (s : State) : State := (List.range 8).foldl State.notify s

/-- DEVSTATE changes (R450). -/
def State.setDev (s : State) (d : DevState) : State :=
  if s.aon.devstate = d then s else (s.onAon (fun a => { a with devstate := d })).notifyAll

/-- The code of DEVSTATE (R427). -/
def devCode : DevState → Nat
  | .starting => 1
  | .ready => 2
  | .leaving => 3
  | .dusk => 4
  | .waking => 5
  | .fault => 6

/-! ### The reply ring (R434–R437) -/

def ringSize (log2 : BitVec 5) : Nat := 2 ^ log2.toNat

/-- Bytes of an entry with a payload of n bytes. -/
def entryLen (n : Nat) : Nat := 16 + (n + 15) / 16 * 16

/-- Free bytes of the reply ring (R436). -/
def ringFree (f : Fn) : Nat :=
  let z := ringSize f.rrlog2
  z - (f.rrtail.toNat + z - f.rrhead.toNat % z) % z

/-- Bytes that an entry and its pad take (R434, R436). -/
def entryNeed (f : Fn) (n : Nat) : Nat :=
  let room := ringSize f.rrlog2 - f.rrtail.toNat
  if room < entryLen n then room + entryLen n else entryLen n

/-- The entry can be written now (R436); a ring that is not enabled, or D3hot, holds it as a full ring does (R423,
R428). -/
def entryFits (f : Fn) (n : Nat) : Bool := f.rren && !f.d3 && decide (entryNeed f n + 16 ≤ ringFree f)

/-- The records not yet signalled of vector v. -/
def unsigOf (f : Fn) (v : Nat) : Nat :=
  match f.unsig.find? (fun p => p.1 == v) with
  | some p => p.2
  | none => 0

/-- One record of vector v has been written: a message once COUNT are due (R429). -/
def State.signalEntry (s : State) (f v : Nat) : State :=
  let n := unsigOf (s.fn f) v + 1
  let rest := (s.fn f).unsig.filter (fun p => p.1 != v)
  if (s.fn f).irqCount.toNat ≤ n then (s.onFn f (fun x => { x with unsig := rest })).sendMsix f v
  else s.onFn f (fun x => { x with unsig := rest ++ [(v, n)] })

/-- Write an entry that fits, with a pad entry before it where it does not fit before the ring end (R434, R435). -/
def State.writeEntry (s : State) (f : Nat) (e : Entry) : State :=
  let x := s.fn f
  let z := ringSize x.rrlog2
  let len := entryLen e.payload.length
  let padded := decide (z - x.rrtail.toNat < len)
  let at_ := if padded then 0 else x.rrtail.toNat
  let next := (at_ + len) % z
  let s1 := if padded then (s.emit (.terminator f 0)).emit (.pad f x.rrtail.toNat (z - x.rrtail.toNat - 16)) else s
  let s2 := (s1.emit (.terminator f next)).emit (.entry f at_ e (crcField e.payload))
  (s2.onFn f (fun y => { y with rrtail := BitVec.ofNat 24 next })).signalEntry f e.vec.toNat

/-- A record is on its way into the function's reply ring, TLP by TLP: entries that fall due wait behind it (R345, R436). -/
def State.ringBusy (s : State) (f : Nat) : Bool := s.hub.jobs.any (fun j => j.fn == f && j.post.isSome)

/-- Entries that wait are written in order while they fit; RRFULL shows whether the next lacks space (R436). -/
def State.flushRing (s : State) (f : Nat) : Nat → State
  | 0 => s
  | n + 1 =>
    if s.ringBusy f then s else
    match (s.fn f).waitq with
    | [] => s.onFn f (fun x => { x with rrfull := false })
    | e :: rest =>
      if entryFits (s.fn f) e.payload.length then
        ((s.writeEntry f e).onFn f (fun x => { x with waitq := rest })).flushRing f n
      else if (s.fn f).rren && !(s.fn f).d3 && !(s.fn f).rrfull then
        (s.onFn f (fun x => { x with rrfull := true })).notify f
      else s

/-- An entry falls due: it is written, or waits behind the first one that does not fit (R436). -/
def State.postEntry (s : State) (f : Nat) (e : Entry) : State :=
  (s.onFn f (fun x => { x with waitq := x.waitq ++ [e] })).flushRing f ((s.fn f).waitq.length + 2)

/-- A command's reply (R434, R441): none where NR is set and the status is 0x0000 (R440). -/
def State.reply (s : State) (h : CmdHdr) (status : U16) (payload : List Byte) : State :=
  if status = 0 && h.nr then s
  else s.postEntry h.fn.val { status := status, tag := h.tag, job := h.job, type := 0, payload := payload, vec := 0 }

/-- A record of a job (R434, R438). -/
def State.record (s : State) (f : Nat) (vec : Byte) (kind job : U16) (payload : List Byte) : State :=
  s.postEntry f { status := 0, tag := kind, job := job, type := 2, payload := payload, vec := vec }

/-! ### The fabric register block (R261, R378) -/

/-- LCFG, LSTAT, QCTL and QSTAT as they read (R378). -/
def lcfgWord (p : Pos) : Word := BitVec.ofNat 14 (p.rmax.toNat * 2 ^ 12 + b2n p.lr * 2 ^ 11 + b2n p.en * 2 ^ 10)
def lstatWord (p : Pos) : Word :=
  BitVec.ofNat 14 (p.rate.toNat * 2 ^ 12 + p.lstate.toNat * 2 ^ 9 + p.bond.toNat * 2 ^ 7 + b2n p.early * 64 +
    b2n p.rxsig * 32)
def qctlWord (q : Quad) : Word := BitVec.ofNat 14 (b2n q.dlink * 2 ^ 13)
def qstatWord (q : Quad) : Word :=
  BitVec.ofNat 14 (b2n q.cfgerr * 2 ^ 13 + b2n q.alert * 2 ^ 12 + b2n q.i2cf * 2 ^ 11 + b2n q.dlup * 2 ^ 10)

/-- SHMSTAT (R261): ZBUSY while a page whose markers have all arrived is being zeroed. -/
def shmstatWord (g : Geode) : Word :=
  BitVec.ofNat 14 (b2n g.cfgerr * 2 ^ 13 + b2n g.unc * 2 ^ 12 + b2n g.offp * 2 ^ 11 +
    b2n (g.zeroing.any (fun k => !g.owed.contains k)) * 2 ^ 10 + g.pool.length % 1024)

/-- A BST or BSTN entry (R261). -/
def bstAt (t : SMap 4) (i : Nat) : BitVec 4 := smGet t i ^^^ 0xF#4

/-- A fabric register reads. -/
def State.fabricRead (s : State) (g off : Nat) : Word :=
  let x := s.geode g
  if off = 0 then shmstatWord x
  else if 0x100 ≤ off ∧ off < 0x200 then (bstAt x.bst (off - 0x100)).setWidth 14
  else if 0x200 ≤ off ∧ off < 0x300 then (bstAt x.bstn (off - 0x200)).setWidth 14
  else if off = 0x300 then qctlWord (s.quad g)
  else if off = 0x301 then qstatWord (s.quad g)
  else if 0x310 ≤ off ∧ off < 0x314 then lcfgWord (s.pos (4 * g + (off - 0x310)))
  else if 0x318 ≤ off ∧ off < 0x31C then lstatWord (s.pos (4 * g + (off - 0x318)))
  else 0

/-- A job binds the quad (R378). -/
def State.quadBound (s : State) (q : Nat) : Bool :=
  (List.range 4).any (fun l => (s.pos (4 * q + l)).stream.isSome) || (s.quad q).streams.any (fun x => x.isSome)

/-- Write LCFG: RMAX = 11 is reserved (R16, R378). -/
def State.writeLcfg (s : State) (p : Nat) (v : Word) : State :=
  let r := v.toNat / 2 ^ 12
  let s1 := s.onPos p (fun x => { x with rmax := if r = 3 then x.rmax else BitVec.ofNat 2 r, lr := bitOf v 11, en := bitOf v 10 })
  if r = 3 then s1.onQuad (p / 4) (fun q => { q with cfgerr := true }) else s1

/-- Write QCTL (R378). -/
def State.writeQctl (s : State) (q : Nat) (v : Word) : State :=
  if s.quadBound q && bitOf v 13 != (s.quad q).dlink then s.onQuad q (fun x => { x with cfgerr := true })
  else s.onQuad q (fun x => { x with dlink := bitOf v 13 })

/-- A fabric register is written (R12, R15, R16, R261, R378). -/
def State.fabricWrite (s : State) (g off : Nat) (v : Word) : State :=
  if off = 0 then
    s.onGeode g (fun x =>
      { x with cfgerr := x.cfgerr && !bitOf v 13, unc := x.unc && !bitOf v 12, offp := x.offp && !bitOf v 11 })
  else if 0x200 ≤ off ∧ off < 0x300 then
    let o := v.toNat % 16
    if 0xC ≤ o ∧ o ≤ 0xE then s.onGeode g (fun x => { x with cfgerr := true })
    else s.onGeode g (fun x =>
      { x with bstn := smPut x.bstn (off - 0x200) (BitVec.ofNat 4 o ^^^ 0xF#4), bstE := x.bstE.written (off - 0x100) })
  else if off = 0x300 then s.writeQctl g v
  else if off = 0x301 then
    s.onQuad g (fun q => { q with cfgerr := q.cfgerr && !bitOf v 13, i2cf := q.i2cf && !bitOf v 11 })
  else if 0x310 ≤ off ∧ off < 0x314 then s.writeLcfg (4 * g + (off - 0x310)) v
  else if 0x318 ≤ off ∧ off < 0x31C then
    s.onPos (4 * g + (off - 0x318)) (fun p => { p with early := p.early && !bitOf v 6 })
  else s

/-! ### Device time and the beacon train (R27, R30, R364, R504) -/

/-- Device time as it is read (R504, R11): in units of 2⁻⁵⁶ s. -/
def now56 (a : Aon) : Nat := a.time.toNat / 2 ^ 24

/-- a − b as a signed frame-class difference (R27, R473). -/
def frameDiff (a b : U32) : Int := (a - b).toInt

/-- t(n) in units of 2⁻⁵⁶ s (R27). -/
def beaconTime (a : Aon) (n : U32) : Int :=
  (now56 { a with time := a.t0 } : Int) + (frameDiff n a.n0 * a.f * 2 ^ 56) / (Nat.max 1 a.fs)

/-- The beacon whose period holds a time (R30). -/
def beaconAt (a : Aon) (t : Int) : U32 :=
  let k := ((t - (now56 { a with time := a.t0 } : Int)) * Nat.max 1 a.fs) / (Nat.max 1 a.f * 2 ^ 56)
  let n := a.n0 + BitVec.ofInt 32 k
  if beaconTime a (n + 1) ≤ t then n + 1 else n

/-- a ÷ b to the nearest whole number, ties away from zero. -/
def roundDiv (a : Int) (b : Nat) : Int :=
  let d := Nat.max 1 b
  if 0 ≤ a then (2 * a + d) / (2 * d) else -((2 * (-a) + d) / (2 * d))

/-- k samples at RATE in units of 2⁻⁵⁶ s, to the nearest (R364). -/
def samplesTime (k : Int) (rate : Nat) : Int := roundDiv (k * 2 ^ 56) rate

/-! ### Memories behind the windows -/

/-- Physical pages of a stream's ring on its geode (R331, R360): lode page indices RPAGE to RPAGE + RCOUNT − 1. -/
def ringPages (g : Geode) (b : Binding) : List Nat :=
  (g.statics.drop (b.rpage.toNat - 1)).take b.rcount.toNat

/-- The stream of the geode, of a lane or of the device link, that has its samples in a page, and the page's place in its
ring (R271). -/
def State.pageStream (s : State) (g page : Nat) : Option (Stream × Nat) :=
  let at_ := fun (m : Option Stream) =>
    m.bind (fun x =>
      let ps := ringPages (s.geode g) x.bind
      if ps.contains page then some (x, ps.idxOf page) else none)
  match (List.range 4).findSome? (fun l => at_ (s.pos (4 * g + l)).stream) with
  | some r => some r
  | none => (s.quad g).streams.findSome? at_

/-- RATE of a stream. -/
def streamRate (st : Stream) : Nat := Nat.max 1 st.bind.rate.toNat


/-- A job by its id, the job that holds a geode until the geode's release, and the function of a job for the log. -/
def State.jobOf (s : State) (id : U16) : Option Job := s.hub.jobs.find? (fun j => j.id == id)
def State.jobOn (s : State) (g : Nat) : Option Job :=
  s.hub.jobs.find? (fun j => j.geodes.contains g && !j.done.contains g)
def State.jobFn (s : State) (id : U16) : Byte :=
  match s.jobOf id with
  | some j => byteOf j.fn
  | none => 0xFF

/-- Change one job. -/
def State.onJob (s : State) (id : U16) (f : Job → Job) : State :=
  s.onHub (fun h => { h with jobs := h.jobs.map (fun j => if j.id == id then f j else j) })

/-- The frame that a beacon belongs to: the last beacon at or before it whose number is a multiple of K (R29). -/
def frameAt (k : Nat) (n : U32) : U32 := BitVec.ofNat 32 (n.toNat - n.toNat % Nat.max 1 k)

/-- The frame of a job that is running now. -/
def State.frameNow (s : State) (id : U16) : U32 :=
  match s.jobOf id with
  | some j => frameAt j.k s.beaconNow
  | none => 0

/-- A frame of a job gets marks (R50, R53). -/
def State.markFrame (s : State) (id : U16) (frame : U32) (geode : Nat) (bidx : Option Nat) (bits : Byte) : State :=
  s.onJob id (fun j =>
    let m : FrameMark := { frame := frame, geode := geode, bidx := bidx, bits := bits }
    if j.marks.contains m then j else { j with marks := j.marks ++ [m] })

/-- The frame that a time lies in (R30), for the stream's job. -/
def State.frameOfTime (s : State) (job : U16) (t : Int) : U32 :=
  match s.jobOf job with
  | some j => frameAt j.k (beaconAt s.aon t)
  | none => beaconAt s.aon t

/-- The device time in the seven words of a ring slot, in units of 2⁻⁵⁶ s (R360). -/
def slotTime (m : SMap 14) (a : Nat) : Nat :=
  let w := fun (k n : Nat) => ((List.range n).map (fun i => (smGet m (a + k + i)).toNat * 2 ^ (14 * i))).sum
  w 360 3 * 2 ^ 56 + w 363 4

/-- The frame of the word at `off` of a page of samples (R30): of its own sample; a word that is no sample counts with the
first of its slot, and one that lies in no slot with the frame that runs. -/
def State.sampleFrame (s : State) (g page off : Nat) (st : Stream) : U32 :=
  if 3840 ≤ off then s.frameNow st.job
  else
    let i := off % 384
    let t := slotTime (s.geode g).mem.cells (4096 * page + off - i)
    s.frameOfTime st.job ((t : Int) + samplesTime (if i < 360 then i else 0) (streamRate st))

/-- An uncorrectable word of shared memory has been read (R271): the frame whose sample or result it is gets the mark
DEGRADED; any other word tells the supervisor. `res` is the job and the frame of a result word. -/
def State.shmBadOf (s : State) (res : Option (U16 × U32)) (g a : Nat) : State :=
  let s1 := s.onGeode g (fun x => { x with unc := true, eccUnc := ctrAdd 16 x.eccUnc 1 })
  let of_ := fun (job : U16) (f : U32) =>
    (s1.log { kind := 0x10, fn := s1.jobFn job, job := job, geode := byteOf g, a := 3, b := u32 a }).markFrame job f g none 1
  match s1.pageStream g (a / 4096) with
  | some (st, _) => of_ st.job (s1.sampleFrame g (a / 4096) (a % 4096) st)
  | none =>
    match res with
    | some (job, f) => of_ job f
    | none => (s1.log { kind := 0x10, geode := byteOf g, a := 3, b := u32 a }).raiseSup g 30
def State.shmBad (s : State) (g a : Nat) : State := s.shmBadOf none g a

/-- A word of shared memory is read (R270, R271): what an error does, and the word as corrected or as stored. -/
def State.shmReadOf (s : State) (res : Option (U16 × U32)) (g a : Nat) : State × Word :=
  let m := (s.geode g).mem
  let v := smGet m.cells a
  if m.corr.contains a then
    (s.onGeode g (fun x => { x with mem := x.mem.corrected a, eccCorr := ctrAdd 16 x.eccCorr 1 }), v)
  else if m.unc.contains a then (s.shmBadOf res g a, v)
  else (s, v)
def State.shmRead (s : State) (g a : Nat) : State × Word := s.shmReadOf none g a

/-- A word of hub memory is in the result staging area (R338). -/
def isStaging (a : Nat) : Bool := decide (0x40000 ≤ a) && decide (a < 0x78000)

/-- The slot of a frame in its job's staging rings (R346): frames of K beacons are counted, so that DS of them fit (log
entry 152). -/
def frameSlot (j : Job) (f : U32) : Nat := f.toNat / Nat.max 1 j.k % Nat.max 1 j.ds

/-- The job, its geode and the frame whose results a staging word holds (R346): the frame in the word's slot that is
staged and not yet posted, else the one that runs. -/
def State.stagedAt (s : State) (a : Nat) : Option (U16 × Nat × U32) :=
  s.hub.jobs.findSome? (fun j =>
    (j.stage.zip j.geodes).findSome? (fun p =>
      let base := p.1.1
      let size := p.1.2
      if base ≤ a ∧ a < base + j.ds * size then
        let slot := (a - base) / Nat.max 1 size
        let here := fun (f : U32) => frameSlot j f == slot
        match (j.frames.map (fun f => f.num)).find? here with
        | some f => some (j.id, p.2, f)
        | none => if here (s.frameNow j.id) then some (j.id, p.2, s.frameNow j.id) else none
      else none))

/-- A word of hub memory is read (R270, R271): an uncorrectable word outside staging halts the hub's core, unless a DMA
beat reads it (R310); a staging word marks the result that holds it. -/
def State.hubReadBy (s : State) (dma : Bool) (a : Nat) : State × Word :=
  let m := s.hub.mem
  let v := smGet m.cells a
  if m.corr.contains a then
    (s.onHub (fun h => { h with mem := h.mem.corrected a, eccCorr := ctrAdd 16 h.eccCorr 1 }), v)
  else if m.unc.contains a then
    let s1 := s.onHub (fun h => { h with eccUnc := ctrAdd 16 h.eccUnc 1 })
    let s2 := s1.log { kind := 0x10, a := 4, b := u32 a }
    if isStaging a then
      match s2.stagedAt a with
      | some (job, g, f) => (s2.markFrame job f g none 1, v)
      | none => (s2, v)
    else if dma then (s2, v)
    else (s2.onCoreAt 80 (fun c => stopCore c .halted), v)
  else (s, v)

/-- A word of hub memory is read by a core. -/
def State.hubRead (s : State) (a : Nat) : State × Word := s.hubReadBy false a

/-- The record queue is full (R300). -/
def queueFull (c : Chan) : Bool := (c.cqtail.toNat + 1) % Nat.max 1 c.cqlen.toNat == c.cqhead.toNat

/-- The engine reads CQHEAD whenever it is written (R283): a blocked channel that finds space goes on (R300). -/
def headWritten (c : Chan) (v : Word) : Chan :=
  let d := { c with cqhead := v }
  if d.state = .blocked && !queueFull d then { d with state := .running } else d

/-- CQHEAD of channel `n` of a list of channels, whose control blocks begin at `base`, has been written: the channels, and
the memory with the STATE that this changes. -/
def headStore (m : EMem 14) (cs : List Chan) (base n : Nat) (v : Word) : EMem 14 × List Chan :=
  match cs[n]? with
  | none => (m, cs)
  | some c =>
    let d := headWritten c v
    (if d.state = c.state then m else m.write (base + 32 * n + 24) 1, cs.set n d)

/-- A store into shared memory, and into hub memory: a word 10 of a control block is a channel's CQHEAD (R282, R283). -/
def Geode.store (x : Geode) (a : Nat) (v : Word) : Geode :=
  let m := x.mem.write a v
  if a < 0x200 ∧ a % 32 = 10 then
    let r := headStore m x.chans 0 (a / 32) v
    { x with mem := r.1, chans := r.2 }
  else { x with mem := m }
def Hub.store (h : Hub) (a : Nat) (v : Word) : Hub :=
  let m := h.mem.write a v
  if 0x7F000 ≤ a ∧ a < 0x7F400 ∧ a % 32 = 10 then
    let r := headStore m h.chans 0x7F000 ((a - 0x7F000) / 32) v
    { h with mem := r.1, chans := r.2 }
  else { h with mem := m }
def State.shmWrite (s : State) (g a : Nat) (v : Word) : State := s.onGeode g (fun x => x.store (a % 0x200000) v)
def State.hubWrite (s : State) (a : Nat) (v : Word) : State := s.onHub (fun h => h.store (a % 0x80000) v)

/-- A word of the bank-slot tables is read (R269, R270): BST at 0–255, BSTN at 256–511. What an uncorrectable one does
beyond its count and its log entry, R271 does not say (log entry 140). -/
def State.bstRead (s : State) (g i : Nat) : State :=
  let m := (s.geode g).bstE
  if m.corr.contains i then
    s.onGeode g (fun x => { x with bstE := x.bstE.corrected i, eccCorr := ctrAdd 16 x.eccCorr 1 })
  else if m.unc.contains i then
    (s.onGeode g (fun x => { x with eccUnc := ctrAdd 16 x.eccUnc 1 })).log { kind := 0x10, geode := byteOf g, a := 5, b := u32 i }
  else s

/-- A fabric register is read, with the check of a table's word. -/
def State.fabricReadE (s : State) (g off : Nat) : State × Word :=
  (if 0x100 ≤ off ∧ off < 0x300 then s.bstRead g (off - 0x100) else s, s.fabricRead g off)

/-- BSTN is copied into BST (R261), as it stands. -/
def State.copyTable (s : State) (g : Nat) : State :=
  let s1 := (List.range 256).foldl (fun t i => t.bstRead g (256 + i)) s
  s1.onGeode g (fun x =>
    let high := fun (l : List Nat) => l.filter (fun i => decide (256 ≤ i))
    { x with bst := x.bstn, bstE := { corr := high x.bstE.corr, unc := high x.bstE.unc } })

/-- A device-global address (R246): hub memory, or a fabric register block. -/
def State.glbRead (s : State) (a : Nat) : State × Word :=
  if a < 0x880000 then s.hubRead (a - 0x800000)
  else s.fabricReadE ((a - 0x880000) / 0x1000 % 8) (a % 0x1000)
def State.glbWrite (s : State) (a : Nat) (v : Word) : State :=
  if a < 0x880000 then s.hubWrite (a - 0x800000) v
  else s.fabricWrite ((a - 0x880000) / 0x1000 % 8) (a % 0x1000) v

/-- What a core's store buffer holds for a place, of entries before number `id`: the youngest word (R274). -/
def sbLook (sb : List SbEntry) (id : Nat) (glb : Bool) (a : Nat) : Option Word :=
  sb.foldl (fun m e =>
    if e.id < id then
      match e.kind with
      | .shm ws => if glb then m else (ws.foldl (fun n p => if p.1 = a then some p.2 else n) m)
      | .glb ws => if glb then (ws.foldl (fun n p => if p.1 = a then some p.2 else n) m) else m
      | .signal _ => m
    else m) none

/-- The words that a request reads, its core's own earlier stores first (R274). -/
def State.readReq (s : State) (core : Nat) (g : Nat) (glb : Bool) (q : MemReq) : State × List (Nat × Nat × Nat × Word) :=
  q.offs.foldl (fun acc p =>
    match sbLook (s.coreAt core).sb q.id glb p.2 with
    | some w => (acc.1, acc.2 ++ [(q.tid, q.rid, p.1, w)])
    | none =>
      let r := if glb then acc.1.glbRead p.2 else acc.1.shmRead g p.2
      (r.1, acc.2 ++ [(q.tid, q.rid, p.1, r.2)])) (s, [])

/-- A data word of a core: X, then Y. -/
def writeData (c : Core) (a : Nat) (v : Word) : Core :=
  if a < 0x10000 then { c with x := c.x.write a v } else { c with y := c.y.write (a - 0x10000) v }

/-- A register of the whole core, not of a level or context. -/
def coreLevelReg (k : CoreKind) : RegName → Bool
  | .f _ => k == .signal
  | .sys n =>
    let v := n.toNat
    match k with
    | .signal => v == 2 || decide (0x20 ≤ v)
    | _ => v == 0x23 || (decide (0x40 ≤ v) && decide (v ≤ 0x49)) || v == 0x51 || decide (0x80 ≤ v)
  | _ => false

/-- The level or context holds the register (R103, R108, R139). -/
def regHeld (k : CoreKind) (tid : Nat) : RegName → Bool
  | .v _ => k != .signal || decide (tid < 2)
  | .va _ => k != .signal || decide (tid < 2)
  | .sys n => (sysDefined k n.toNat).isSome && sysHeld k tid n.toNat
  | _ => true

/-- A register is written: only the fields that may be written change (R12, R483); a vector
register takes a number of all its elements, element 0 in the low bits (log entry 116). -/
def regWrite (c : Core) (tid v : Nat) : RegName → Core
  | .a n => onThread c tid (fun t => { t with a := smPut t.a n.val (BitVec.ofNat 24 v) })
  | .m n => onThread c tid (fun t => { t with m := smPut t.m n.val (BitVec.ofNat 24 v) })
  | .b n => onThread c tid (fun t => { t with b := smPut t.b n.val (BitVec.ofNat 24 v) })
  | .l n => onThread c tid (fun t => { t with l := smPut t.l n.val (BitVec.ofNat 24 v) })
  | .d n => onThread c tid (fun t => { t with d := smPut t.d (dPhys t.wpos n.val) (BitVec.ofNat 14 v) })
  | .ac n => onThread c tid (fun t => { t with ac := smPut t.ac n.val (BitVec.ofNat 56 v) })
  | .f n =>
    if c.kind == .signal then { c with f := smPut c.f n.val (BitVec.ofNat 28 v) }
    else onThread c tid (fun t => { t with f := smPut t.f n.val (BitVec.ofNat 28 v) })
  | .sys n => sysWrite false c tid n.toNat (BitVec.ofNat 28 v)
  | .v n => onThread c tid (fun t => { t with v := (List.range 32).foldl (fun m k =>
      smPut m (32 * n.val + k) (BitVec.ofNat 14 (v / 2 ^ (14 * k)))) t.v })
  | .va n => onThread c tid (fun t => { t with va := (List.range 32).foldl (fun m k =>
      smPut m (32 * n.val + k) (BitVec.ofNat 56 (v / 2 ^ (56 * k)))) t.va })

/-! ### The issue of an operation on a core of the device -/

/-- Requests of a core that wait at its geode (R256). -/
def waitingOf (g : Geode) (me : Requester) : Nat :=
  (g.reqs.filter (fun q => q.by_ == me)).length + (g.greqs.filter (fun q => q.by_ == me)).length

/-- What the fabric tells a core at issue. -/
def State.outside (s : State) (r : CoreRef) : Outside :=
  { waiting := match coreGeode r with
      | some g => waitingOf (s.geode g) (requesterOf r)
      | none => 0
    me := requesterOf r
    idx := coreNum r
    free := s.free }

/-- The hub's own window loads are served at once (R260, log entry 26). -/
def State.serveHub (s : State) (qs : List MemReq) : State :=
  qs.foldl (fun st q =>
    let r := st.readReq 80 0 true q
    r.1.onCoreAt 80 (fun c => onThread c q.tid (fun t =>
      { t with retbuf := t.retbuf ++ r.2.map (fun w => (w.2.1, w.2.2.1, w.2.2.2)) }))) s

/-- A performance counter of a signal core has come to its maximum (R473). -/
def atMax (n : Nat) : Bool := n == 2 ^ 48 - 1
def counterFull (old new : Core) : Bool :=
  (atMax new.issued && !atMax old.issued) || (atMax new.flushed && !atMax old.flushed) ||
  (atMax new.vwakes && !atMax old.vwakes) || (atMax new.offAcc && !atMax old.offAcc) ||
  (atMax new.offStall && !atMax old.offStall)

/-- A context of the hub that has just faulted. -/
def newFault (old new : Core) : Option Nat :=
  (List.range new.threads.length).find? (fun k =>
    match old.threads[k]?, new.threads[k]? with
    | some a, some b => a.tstate != .faulted && b.tstate == .faulted
    | _, _ => false)

/-- A fault of a hub context (R467): it is logged; the command that it was executing, which the spec does not tie to a
context, is left free (log entry 25) and is abandoned with status 0x0502; the context starts again at its entry. -/
def State.hubCtxFault (s : State) (k : Nat) : State :=
  let t := (s.coreAt 80).threads.getD k {}
  let cmds := (List.range 8).flatMap (fun f => (s.fn f).fetched.map (fun c => (f, c)))
  let r := s.fresh
  let pickd := cmds[r.1 % (cmds.length + 1)]?
  let s1 := r.2.log
    { kind := 0x09, unit := byteOf k, a := u32 (t.xcause.toNat % 64)
      b := match pickd with | some p => p.2.opcode.setWidth 32 | none => 0 }
  let s2 := match pickd with
    | some p => (s1.onFn p.1 (fun x => { x with fetched := x.fetched.filter (· != p.2) })).reply p.2.hdr 0x0502 []
    | none => s1
  s2.onCoreAt 80 (fun c => onThread c k (fun u =>
    { goTo u u.entry with tstate := .ready, dslot := none, rep := none, micro := none }))

/-- What a change of a core raises outside it: its attention line (R135, R271), line 3 of a full counter (R473), the
halt of a supervisor (R143), a fault of a hub context (R467). -/
def State.settle (s : State) (r : CoreRef) (old : Core) : State :=
  let new := s.core r
  match r with
  | .sig g c =>
    let s1 := if counterFull old new then s.raise r 3 else s
    if new.attn && !old.attn then s1.raiseSup g.val (1 + c.val) else s1
  | .sup g =>
    if new.stop.isSome && old.stop.isNone then
      (s.onGeode g.val (fun x => { x with supHalted := true })).raiseHub (1 + g.val)
    else s
  | .hub =>
    if new.stop.isSome then s
    else match newFault old new with
      | some k => s.hubCtxFault k
      | none => s

/-- An uncorrectable word read by a core out of service is logged (R271). -/
def State.eccLog (s : State) (r : CoreRef) (e : Option (Nat × Nat)) : State :=
  match e, r with
  | some (a, b), .sig g c =>
    if (s.core r).svc then s
    else s.log { kind := 0x10, geode := byteOf g.val, unit := byteOf c.val, a := u32 a, b := u32 b }
  | _, _ => s

/-- What an issue leaves at the device. -/
def State.take (s : State) (r : CoreRef) (i : Issued) : State :=
  let old := s.core r
  let s1 := { s.onCore r (fun _ => { i.core with markOut := [] }) with free := s.free + i.used }
  let s2 := match coreGeode r with
    | some g => s1.onGeode g (fun x =>
        { x with
          reqs := x.reqs ++ i.reqs
          greqs := x.greqs ++ i.greqs
          pageReqs := x.pageReqs ++ i.pages
          markers := x.markers ++ i.core.markOut.map (fun p => Marker.mk (coreNum r) p i.core.nextId)
          offp := x.offp || i.offPlan })
    | none => s1.serveHub i.greqs
  (s2.eccLog r i.ecc).settle r old

/-- The core's waiting bundle goes on where it can. -/
def State.retry (s : State) (r : CoreRef) : State := s.take r (tryIssue (s.outside r) (s.core r))

/-- The core's waiting bundle goes on where the reason of its stall was `k`. -/
def State.retryIf (s : State) (r : CoreRef) (k : Stall) : State :=
  if (s.core r).stall = some k && (s.core r).live then s.retry r else s

/-- An operation reaches its core. -/
def issueOp (i : Site) (op : Instr) (s : State) : State :=
  if takes (s.core i.core) then s.take i.core (offer (s.outside i.core) (s.core i.core) op i.fin) else s

end Sys2Proof.Machine
end

