-- ==== Sys2Proof/Machine/Codewords.lean ====
section
/-! DEFINITION. The payloads of lane codewords (R353, R354, R365–R367, R384): where their fields stand. Bit 10s + i of a
payload is bit i of data symbol s (R353). What the line carries below the payload (parity symbols, Gray code, precoding of
R351) is seen only by the partner on the lane (log entry 147). -/

namespace Sys2Proof.Machine
open Sys2Proof

/-- `w` bits of a payload from bit `lo`. -/
def payBits (p : BitVec 5140) (lo w : Nat) : Nat := p.toNat / 2 ^ lo % 2 ^ w

/-- A payload from its fields: first bit and value; every other bit is 0. -/
def payOf (fs : List (Nat × Nat)) : BitVec 5140 := BitVec.ofNat 5140 (fs.map (fun f => f.2 * 2 ^ f.1)).sum

/-- What a module's codeword holds (R353); a device link's has the same layout (R384). -/
structure CwFields where
  type    : BitVec 2
  blane   : BitVec 2
  ovr     : Bool
  inj     : Bool
  seq     : BitVec 14
  samples : List Word
  anc     : BitVec 80
deriving DecidableEq, Repr

/-- Header in bits 19:0, sample k from bit 20 + 14k, ancillary bits from bit 5,060 (R353). -/
def cwFields (p : BitVec 5140) : CwFields :=
  { type := BitVec.ofNat 2 (payBits p 18 2), blane := BitVec.ofNat 2 (payBits p 16 2), ovr := payBits p 15 1 == 1
    inj := payBits p 14 1 == 1, seq := BitVec.ofNat 14 (payBits p 0 14)
    samples := (List.range 360).map (fun k => BitVec.ofNat 14 (payBits p (20 + 14 * k) 14))
    anc := BitVec.ofNat 80 (payBits p 5060 80) }

/-- The payload of fields. -/
def cwPayload (f : CwFields) : BitVec 5140 :=
  payOf ([(18, f.type.toNat), (16, f.blane.toNat), (15, b2n f.ovr), (14, b2n f.inj), (0, f.seq.toNat), (5060, f.anc.toNat)] ++
    (f.samples.take 360).zipIdx.map (fun w => (20 + 14 * w.2, w.1.toNat)))

/-- The fields of a data codeword's ancillary bits (R354). -/
structure Anc where
  mark  : Byte
  offs  : Nat
  tsel  : BitVec 4
  tval  : BitVec 12
  calv  : Bool
  calph : Nat
  rsv   : Bool
deriving DecidableEq, Repr

/-- Read them. -/
def ancOf (a : BitVec 80) : Anc :=
  let n := a.toNat
  { mark := byteOf (n / 2 ^ 72), offs := n / 2 ^ 48 % 2 ^ 24, tsel := BitVec.ofNat 4 (n / 2 ^ 44)
    tval := BitVec.ofNat 12 (n / 2 ^ 32), calv := bitOf a 31, calph := n / 2 ^ 8 % 2 ^ 23, rsv := n % 256 != 0 }

/-- The fields of a device-link codeword's ancillary bits (R384): LCH, NVALID, BCN. -/
def dlAnc (a : BitVec 80) : Nat × Nat × U32 :=
  (a.toNat / 2 ^ 76, a.toNat / 2 ^ 67 % 512, BitVec.ofNat 32 (a.toNat / 2 ^ 32))

/-- A device link's data codeword (R384): lane, SEQ, LCH, NVALID, BCN and the words. -/
def dlPayload (blane : Nat) (seq : BitVec 14) (ch nvalid : Nat) (bcn : U32) (ws : List Word) : BitVec 5140 :=
  cwPayload { type := 0, blane := BitVec.ofNat 2 blane, ovr := false, inj := false, seq := seq
              samples := (ws ++ List.replicate (360 - ws.length) 0).take 360
              anc := BitVec.ofNat 80 (ch % 16 * 2 ^ 76 + nvalid % 512 * 2 ^ 67 + bcn.toNat * 2 ^ 32) }

/-- Chips as bits, the first lowest. -/
def chipBits (cs : List Bool) : Nat := cs.foldr (fun c n => b2n c + 2 * n) 0

/-- An outbound codeword that carries stimulus chips (R365): span lane, INJ, phase of chip 0, chips. -/
def stimPayload (blane : Nat) (inj : Bool) (oph : BitVec 23) (cs : List Bool) : BitVec 5140 :=
  payOf [(16, blane % 4), (15, b2n inj), (20, chipBits (cs.take 360)), (380, oph.toNat)]

/-- An outbound codeword that carries a message and no chips, FILL = 1 (R365): MTYPE, bits 415:408 and the body. -/
def msgPayload (blane : Nat) (inj : Bool) (mtype ident : Nat) (body : List (Nat × Nat)) : BitVec 5140 :=
  payOf ([(18, 1), (16, blane % 4), (15, b2n inj), (404, mtype % 16), (408, ident % 256)] ++ body)

/-- A time mark (R365, R366): TXT's seconds and 56 bits of its fraction. -/
def markPayload (blane : Nat) (inj : Bool) (ident : Byte) (txt : DTime) : BitVec 5140 :=
  msgPayload blane inj 1 ident.toNat [(416, txt.toNat / 2 ^ 80), (458, txt.toNat / 2 ^ 24 % 2 ^ 56)]

/-- A control message (R365, R367): CSEQ, CMD and ARG. -/
def ctlPayload (blane : Nat) (inj : Bool) (cseq : BitVec 12) (cmd : Byte) (arg : U16) : BitVec 5140 :=
  msgPayload blane inj 2 cseq.toNat [(416, cseq.toNat / 256), (420, cmd.toNat), (428, arg.toNat)]

end Sys2Proof.Machine
end

