-- ==== Sys2Proof/Machine/TimeOps.lean ====
section
/-! DEFINITION. Device time as bytes (R11), frame-class comparison (R473), suspended frames (R459) and free words. -/

namespace Sys2Proof.Machine
open Sys2Proof

/-- A time in units of 2⁻⁵⁶ s as the time unit keeps it. -/
def dtOf56 (t : Nat) : DTime := BitVec.ofNat 122 (t * 2 ^ 24)

/-- a is at or after b (R473). -/
def atOrAfter (a b : U32) : Bool := decide (0 ≤ frameDiff a b)

/-- The job's frames are suspended at beacon n (R459–R461). -/
def suspendedAt (j : Job) (n : U32) : Bool :=
  match j.suspendAt with
  | none => false
  | some d => atOrAfter n d && (match j.resumeAt with | some r => !atOrAfter n r | none => true)

/-- Frame f of the job is processed and gives records: from its first frame up to its last, unless it is suspended (R330,
R332, R459). -/
def frameRuns (j : Job) (f : U32) : Bool :=
  atOrAfter f j.first && (j.openEnd && j.releaseAt.isNone || !atOrAfter f j.last) && !suspendedAt j f && !j.discard

/-- A time of 2⁻⁵⁶ s units as the 16 bytes of R11. -/
def time56Bytes (t : Int) : List Byte := timeBytes (dtOf56 t.toNat)

/-- `n` free words (log entry 3). -/
def State.freshWords (s : State) : Nat → List Nat × State
  | 0 => ([], s)
  | n + 1 =>
    let r := s.fresh
    let q := r.2.freshWords n
    (r.1 :: q.1, q.2)

end Sys2Proof.Machine
end

