-- ==== Sys2Proof/Machine/LaneOps.lean ====
section
/-! DEFINITION. Lanes, modules and streams: the assay record (R376, R377), module and lane states (R373, R519), control
messages (R367, R368), the calibration area (R397, R398), holds (R408), the ingest ring (R360–R362) and lane eclipses
(R379, R380). -/

namespace Sys2Proof.Machine
open Sys2Proof

/-! ### The assay record (R376) -/

def recLanes (r : List Byte) : Nat := leAt r 10 1
def recRates (r : List Byte) : Nat := leAt r 12 1
def recInjCap (r : List Byte) : Bool := leAt r 13 1 % 2 == 1
def recInjHi (r : List Byte) : Nat := leAt r 14 1
def recInjLo (r : List Byte) : Nat := leAt r 15 1
def recFsMin (r : List Byte) : Nat := leAt r 16 8
def recFsMax (r : List Byte) : Nat := leAt r 24 8

/-- Samples per second of one lane at a rate code (R352). -/
def laneCap : Nat → Nat
  | 0 => 7411764705
  | 1 => 3705882352
  | 2 => 1852941176
  | _ => 0

/-- The highest rate that RATES names. -/
def topRate (rates : Nat) : Nat :=
  if rates % 2 = 1 then 0 else if rates / 2 % 2 = 1 then 1 else if rates / 4 % 2 = 1 then 2 else 3

/-- Rates that RATES and RMAX allow, the highest first (R370). -/
def allowedRates (rates rmax : Nat) : List Nat :=
  (List.range 3).filter (fun k => decide (rmax ≤ k) && rates / 2 ^ k % 2 == 1)

/-- Every byte of a run is 0. -/
def zeroBytes (r : List Byte) (o n : Nat) : Bool := ((r.drop o).take n).all (fun b => b == 0)

/-- A field of the record is out of range, or a reserved field is not 0 (R377 reason 0x04). SERIAL is ASCII padded with
zeros. -/
def recordBad (r : List Byte) : Bool :=
  let lanes := recLanes r
  let res := leAt r 11 1
  let serial := (r.drop 32).take 16
  let text := serial.takeWhile (fun b => b != 0)
  !(lanes == 1 || lanes == 2 || lanes == 4) || decide (res < 8) || decide (14 < res) || recRates r == 0 ||
    decide (8 ≤ recRates r) || decide (2 ≤ leAt r 13 1) || decide (recInjHi r < 50) || decide (72 < recInjHi r) ||
    decide (recInjLo r < recInjHi r) || decide (72 < recInjLo r) || decide (recFsMax r < recFsMin r) ||
    !((serial.drop text.length).all (fun b => b == 0)) || text.any (fun b => decide (128 ≤ b.toNat)) ||
    !zeroBytes r 52 12 || !zeroBytes r 320 60

/-- The first reason for which a record that was read is refused (R377); 0: none. -/
def recordReason (s : State) (p : Nat) (r : List Byte) : Nat :=
  let lanes := recLanes r
  if leAt r 0 4 ≠ 0x59415341 ∨ leAt r 4 2 ≠ 1 ∨ leAt r 6 2 ≠ 384 then 2
  else if leAt r 380 4 ≠ (crc32c (r.take 380)).toNat then 3
  else if recordBad r then 4
  else if p % lanes ≠ 0 then 5
  else if (List.range (lanes - 1)).any (fun k => (s.pos (p + 1 + k)).present) then 6
  else if lanes * laneCap (topRate (recRates r)) < recFsMax r then 7
  else if (List.range lanes).any (fun k => (allowedRates (recRates r) (s.pos (p + k)).rmax.toNat).isEmpty) then 8
  else 0

/-! ### Modules and their lanes (R356, R373, R519) -/

/-- A module that its record has let in. -/
def modIn (p : Pos) : Bool :=
  match p.mod with
  | .waiting | .training | .live | .eclipsed | .retraining => true
  | _ => false

/-- Lanes of the module at a position. -/
def modLanes (p : Pos) : Nat := if modIn p then recLanes p.record else 1

/-- The lanes of the module at position b. -/
def State.span (s : State) (b : Nat) : List Nat := (List.range (modLanes (s.pos b))).map (fun k => b + k)

/-- The position whose module covers a lane. -/
def State.owner (s : State) (p : Nat) : Option Nat :=
  [p, p - p % 2, p - p % 4].find? (fun b => modIn (s.pos b) && decide (p < b + modLanes (s.pos b)))

/-- LSTAT.STATE changes: supervisor line 27 (R378). Without the lane reference every lane shows 110 (R468). -/
def State.setLane (s : State) (p : Nat) (v : BitVec 3) : State :=
  let code := if s.aon.noLaneRef then 6 else v
  if (s.pos p).lstate = code then s else (s.onPos p (fun x => { x with lstate := code })).raiseSup (p / 4) 27

/-- What a lane of a module shows outside a window (R519). -/
def modCode : ModState → BitVec 3
  | .absent | .reading | .refused => 6
  | .waiting => 1
  | .training => 2
  | .live => 3
  | .eclipsed => 4
  | .retraining => 5

/-- A module changes its state, and its lanes show it; a lane that is off stays off. -/
def State.setMod (s : State) (b : Nat) (m : ModState) : State :=
  let lanes := ((s.span b) ++ ((s.onPos b (fun x => { x with mod := m })).span b)).eraseDups
  lanes.foldl (fun st p =>
    if !(st.pos p).en && (st.pos p).lstate == 0 then st else st.setLane p (modCode m)) (s.onPos b (fun x => { x with mod := m }))

/-- A window is requested for a quad (R369). -/
def State.wantWindow (s : State) (q : Nat) : State :=
  if s.hub.windowQ.contains q then s else s.onHub (fun h => { h with windowQ := h.windowQ ++ [q] })

/-! ### Control messages (R367, R368) -/

/-- A control message leaves in a codeword of its own on the module's lowest lane, behind every time mark that has left
(R365, R367, log entry 148). -/
def State.emitCtl (s : State) (b : Nat) (m : CtlMsg) : State :=
  s.emit (.codeword b (ctlPayload 0 (s.pos b).inject m.cseq m.cmd m.arg))

/-- The next queued message goes out. -/
def State.nextCtl (s : State) (b : Nat) : State :=
  match (s.pos b).ctl, (s.pos b).ctlQ with
  | none, m :: rest =>
    (s.emitCtl b m).onPos b (fun x => { x with ctl := some { m with sent := 1 }, ctlQ := rest })
  | _, _ => s

/-- A new control message for the module at a position. -/
def State.sendCtl (s : State) (b : Nat) (cmd arg : Nat) : State :=
  (s.onPos b (fun x =>
    let n := x.cseq + 1
    { x with
      cseq := n
      ctlQ := x.ctlQ ++ [{ cseq := n, cmd := byteOf cmd, arg := BitVec.ofNat 16 arg, sent := 0 }] })).nextCtl b

/-- INJECT (R391): its level, and whether injection is enabled from here on. -/
def State.sendInject (s : State) (b : Nat) (on : Bool) : State :=
  let l := (s.pos b).level.toNat
  (s.onPos b (fun x => { x with inject := on })).sendCtl b 3 (l + 256 * b2n on)

/-! ### The calibration area (R397–R400) -/

/-- The size of a set (R400). -/
def setSize (st : Stream) : Nat :=
  match st.form with
  | 1 => 32 + 2 * st.nb
  | 2 => 48
  | _ => 32

/-- The physical address of logical word w of a stream's calibration area. -/
def calAddr (g : Geode) (st : Stream) (w : Nat) : Option Nat :=
  let b := st.bind
  if b.cpage = 0 then
    (g.statics[b.rpage.toNat - 1 + w / 256]?).map (fun p => 4096 * p + 3840 + w % 256)
  else (g.statics[b.cpage.toNat - 1 + w / 4096]?).map (fun p => 4096 * p + w % 4096)

/-- A word of the area is written, and read. -/
def State.calWrite (s : State) (g : Nat) (st : Stream) (w : Nat) (v : Word) : State :=
  match calAddr (s.geode g) st w with
  | some a => s.shmWrite g a v
  | none => s
def State.calPeek (s : State) (g : Nat) (st : Stream) (w : Nat) : Word :=
  match calAddr (s.geode g) st w with
  | some a => smGet (s.geode g).mem.cells a
  | none => 0

/-- Word 0 of set A or set B. -/
def setBase (st : Stream) (b : Bool) : Nat := if b then 16 + setSize st else 16

/-- VALID of a set becomes 0. -/
def State.clearValid (s : State) (g : Nat) (st : Stream) (b : Bool) : State :=
  s.calWrite g st (setBase st b) (s.calPeek g st (setBase st b) &&& 0x1FFF)

/-- Injection is asked for by the binding (R357). -/
def injects (st : Stream) : Bool := bitOf st.bind.flags 0

/-- CALHDR (R399). -/
def calHdr (st : Stream) (inj : Bool) : Word :=
  BitVec.ofNat 14 (b2n st.lit * 2 ^ 13 + b2n st.held * 2 ^ 12 + b2n st.stale * 2 ^ 11 +
    (if st.held then st.cause.toNat else 0) * 2 ^ 8 + b2n inj * 128)

/-- Change the stream bound at a position. -/
def State.onStream (s : State) (b : Nat) (f : Stream → Stream) : State :=
  s.onPos b (fun p => { p with stream := p.stream.map f })

/-- A hold begins, or its cause changes (R407, R408, R418). -/
def State.hold (s : State) (b : Nat) (cause : BitVec 3) : State :=
  match (s.pos b).stream with
  | none => s
  | some st =>
    if !injects st then s
    else
      let on := st.held || st.holdDue.isSome
      let s1 := s.clearValid (b / 4) st (!st.lit)
      let s2 := s1.onStream b (fun x =>
        { x with valid := false, holdDue := some cause, avg := 0, fill := 0, rejects := 0, lowPnr := 0, noCalv := 0
                 cleared := cause != 3 && cause != 5 })
      let s3 := s2.markFrame st.job (s2.frameNow st.job) (b / 4) (some st.bidx) 2
      if on then s3
      else (s3.onStream b (fun x => { x with staleLog := false })).log
        { kind := 0x25, fn := s3.jobFn st.job, job := st.job, geode := byteOf (b / 4), unit := byteOf b
          a := cause.setWidth 32, b := u32 st.bidx }

/-! ### Streams: blocks, gaps and the ring (R359–R362) -/

/-- Lanes of a stream. -/
def streamN (st : Stream) : Nat := Nat.max 1 st.bind.width.toNat
/-- Where a stream is kept: at a position, or as a logical channel of a device link. -/
inductive StreamAt where
  | lane (b : Nat)
  | link (q ch : Nat)
deriving DecidableEq, Repr

def State.streamOf (s : State) : StreamAt → Option Stream
  | .lane b => (s.pos b).stream
  | .link q ch => ((s.quad q).streams[ch]?).join
def State.onStreamAt (s : State) (x : StreamAt) (f : Stream → Stream) : State :=
  match x with
  | .lane b => s.onStream b f
  | .link q ch => s.onQuad q (fun y => { y with streams := modAt y.streams ch (fun m => m.map f) })
def streamGeode : StreamAt → Nat
  | .lane b => b / 4
  | .link q _ => q
/-- UNIT of a stream's log entries. -/
def streamUnit : StreamAt → Nat
  | .lane b => b
  | .link q _ => 4 * q

/-- The physical address of word 0 of slot k of a stream's ring (R360). -/
def slotAddr (g : Geode) (st : Stream) (k : Nat) : Option Nat :=
  (g.statics[st.bind.rpage.toNat - 1 + k / 10]?).map (fun p => 4096 * p + 384 * (k % 10))

/-- The seven words of a device time in units of 2⁻⁵⁶ s (R360). -/
def timeWords (t : Int) : List Word :=
  let v := t.toNat
  let s := v / 2 ^ 56
  let f := v % 2 ^ 56
  (List.range 3).map (fun k => BitVec.ofNat 14 (s / 2 ^ (14 * k))) ++
    (List.range 4).map (fun k => BitVec.ofNat 14 (f / 2 ^ (14 * k)))

/-- The 384 words of a slot (R360). -/
def slotWords (samples : List Word) (t : Int) (calph : Nat) (calv miss ovr inj : Bool) (blane nvalid : Nat) : List Word :=
  (if miss then List.replicate 360 0 else (samples ++ List.replicate 360 0).take 360) ++ timeWords t ++
    [BitVec.ofNat 14 calph, BitVec.ofNat 14 (b2n calv * 2 ^ 13 + calph / 2 ^ 14 % 512),
     BitVec.ofNat 14 (b2n miss * 2 ^ 13 + b2n ovr * 2 ^ 12 + b2n inj * 2 ^ 11 + blane % 4 * 2 ^ 9),
     BitVec.ofNat 14 nvalid] ++ List.replicate 13 0

/-- INGEST_SLOT_WRITE (R360): block j goes to slot j mod 10 · RCOUNT. -/
def State.writeSlot (s : State) (x : StreamAt) (j : Nat) (ws : List Word) : State :=
  match s.streamOf x with
  | none => s
  | some st =>
    let g := streamGeode x
    match slotAddr (s.geode g) st (j % Nat.max 1 (10 * st.bind.rcount.toNat)) with
    | none => s
    | some a => (ws.zip (List.range ws.length)).foldl (fun t p => t.shmWrite g (a + p.2) p.1) s

/-- The timestamp of sample k of block j (R364): TXT(MARK) + (OFFS + k) ÷ RATE of the block that gives the times, and of
the blocks that follow or precede it at RATE. -/
def sampleTime (st : Stream) (j k : Nat) : Int :=
  let a := st.anchor.getD (0, 0, 0)
  a.2.1 + samplesTime ((a.2.2 : Int) + 360 * ((j : Int) - a.1) + k) (streamRate st)

/-- Samples k and on of block j by the frames that they lie in (R30, R364). -/
def State.frameSplit (s : State) (st : Stream) (j from_ : Nat) : List MissRun :=
  let at_ := fun (k : Nat) => s.frameOfTime st.job (sampleTime st j k)
  if at_ from_ = at_ 359 then [{ frame := at_ from_, first := from_, count := 360 - from_ }]
  else
    ((List.range 360).drop from_).foldl (fun l k =>
      match l.getLast? with
      | some r => if r.frame = at_ k then l.dropLast ++ [{ r with count := r.count + 1 }]
                  else l ++ [{ frame := at_ k, first := k, count := 1 }]
      | none => [{ frame := at_ k, first := k, count := 1 }]) []

/-- The run of missing samples ends and is reported to the hub (R362). -/
def State.flushGap (s : State) (x : StreamAt) : State :=
  match s.streamOf x with
  | none => s
  | some st =>
    match st.gap with
    | none => s
    | some (f, cause, first, count) =>
      (s.onStreamAt x (fun y => { y with gap := none })).onJob st.job (fun j =>
        { j with inputGaps := j.inputGaps ++
            [{ frame := f, cause := cause, bidx := st.bidx, geode := streamGeode x, first := first, count := count }] })

/-- Samples of block j join the run of missing samples, which a frame boundary splits (log entry 60); a frame that is not
processed has no record. -/
def State.joinGap (s : State) (x : StreamAt) (j : Nat) (cause : Byte) (r : MissRun) : State :=
  match s.streamOf x with
  | none => s
  | some st =>
    let runs := match s.jobOf st.job with | some k => frameRuns k r.frame | none => false
    let a := 360 * j + r.first - st.off0
    if !runs then s
    else match st.gap with
      | some (f, _, first, count) =>
        if f = r.frame ∧ first + count = a then
          s.onStreamAt x (fun y => { y with gap := y.gap.map (fun g => (g.1, g.2.1, g.2.2.1, g.2.2.2 + r.count)) })
        else (s.flushGap x).onStreamAt x (fun y => { y with gap := some (r.frame, cause, a, r.count) })
      | none => s.onStreamAt x (fun y => { y with gap := some (r.frame, cause, a, r.count) })

/-- Blocks of which it is known whether they are missing are accounted for in sample order (R362): a block that is there
ends the run of missing samples. -/
def State.settleBlocks (x : StreamAt) : Nat → State → State
  | 0, s => s
  | n + 1, s =>
    match s.streamOf x with
    | none => s
    | some st =>
      match st.known.find? (fun k => k.1 == st.base) with
      | none => s
      | some (j, what) =>
        let s1 := match what with
          | none => s.flushGap x
          | some m => m.2.foldl (fun t r => t.joinGap x j m.1 r) s
        settleBlocks x n (s1.onStreamAt x (fun y =>
          { y with base := j + 1, known := y.known.filter (fun k => decide (j < k.1)) }))

/-- It is known of block j whether it is missing. -/
def State.noteBlock (s : State) (x : StreamAt) (j : Nat) (what : Option (Byte × List MissRun)) : State :=
  match s.streamOf x with
  | none => s
  | some st =>
    if j < st.base || st.known.any (fun k => k.1 == j) then s
    else (s.onStreamAt x (fun y => { y with known := y.known ++ [(j, what)] })).settleBlocks x (st.known.length + 1)

/-- Block j is missing (R360, R362): its slot says so, the frames that its samples lie in carry INPUT_GAP, and the samples
join a run of missing ones. -/
def State.missBlock (s : State) (x : StreamAt) (j : Nat) (cause : Byte) : State :=
  match s.streamOf x with
  | none => s
  | some st =>
    let t := sampleTime st j 0
    let at_ := match x with | .lane _ => t | .link _ _ => beaconTime s.aon (beaconAt s.aon t)
    let rs := s.frameSplit st j (if j = 0 then st.off0 else 0)
    let s1 := s.writeSlot x j (slotWords [] at_ 0 false true false false ((st.lane0 + j) % streamN st) 0)
    let s2 := rs.foldl (fun u r => u.markFrame st.job r.frame (streamGeode x) (some st.bidx) 0x10) s1
    s2.noteBlock x j (some (cause, rs))

/-- The blocks from a lane's next one up to, not with, block j are missing; a gap longer than the ring writes at most one
ring of slots (R360). -/
def State.missUpTo (s : State) (x : StreamAt) (lane j : Nat) (cause : Byte) : State :=
  match s.streamOf x with
  | none => s
  | some st =>
    let n := match x with | .lane _ => streamN st | .link _ _ => 1
    let from_ := st.nextJ.getD lane 0
    let k := (j - from_ + n - 1) / n
    let blocks := ((List.range k).map (fun i => from_ + i * n)).filter (fun b => !st.known.any (fun e => e.1 == b))
    let s1 := blocks.foldl (fun t b => t.missBlock x b cause) s
    s1.onStreamAt x (fun y => { y with nextJ := modAt y.nextJ lane (fun _ => from_ + k * n) })

/-- The next block of each lane of the span from block `from_` on, with block 0 on lane `lane0` (R356). -/
def nextBlocks (n lane0 from_ : Nat) : List Nat :=
  (List.range 4).map (fun l => from_ + (l % n + n - (lane0 + from_) % n) % n)

/-- The over-rate credit of a lane (R359): brought up to now, and whether a codeword may use 1 of it. -/
def creditNow (st : Stream) (lane now : Nat) : Nat :=
  let n := streamN st
  let full := 8 * n * 3600000 * 2 ^ 80
  match st.credits[lane]? with
  | some (c, at_) => Nat.min full (c + (now - at_) * streamRate st * 10002)
  | none => full
def creditUnit (st : Stream) : Nat := streamN st * 3600000 * 2 ^ 80

/-- A codeword of a lane takes a credit if there is one. -/
def State.takeCredit (s : State) (x : StreamAt) (lane : Nat) : State × Bool :=
  match s.streamOf x with
  | none => (s, true)
  | some st =>
    if st.credits.isEmpty then (s, true)
    else
      let now := s.aon.time.toNat
      let c := creditNow st lane now
      let ok := decide (creditUnit st ≤ c)
      (s.onStreamAt x (fun y =>
        { y with credits := modAt y.credits lane (fun _ => (if ok then c - creditUnit st else c, now)) }), ok)

/-- Bits of a counter of a lane (R475): FEC_CORR, DATA_CW and FILL_CW are performance counters. -/
def State.laneCtr (s : State) (p k n : Nat) : State :=
  let w := if k < 3 then 48 else 16
  let old := (s.pos p).ctrs.getD k 0
  let s1 := s.onPos p (fun x => { x with ctrs := modAt x.ctrs k (fun c => ctrAdd w c n) })
  if k < 3 then s1.counterStuck (2 + p / 4) (6 + 12 * (p % 4) + k) old (ctrAdd w old n) else s1

/-- A log entry about a stream, or about its module where no job is involved (R379). -/
def State.laneLog (s : State) (p kind a b : Nat) : State :=
  let job := match s.owner p with
    | some o => match (s.pos o).stream with | some st => st.job | none => 0
    | none => 0
  s.log { kind := kind, fn := if job = 0 then 0xFF else s.jobFn job, job := job, geode := byteOf (p / 4)
          unit := byteOf p, a := u32 a, b := u32 b }

/-! ### Lane eclipses (R379–R381) -/

/-- Code of an eclipse's cause in the log (R472). -/
def eclipseCode : EclipseCause → Nat
  | .fec => 1
  | .signal => 2
  | .cdr => 3
  | .skew => 4
  | .removal => 5

/-- The hub tells a supervisor (R40). -/
def State.mailTo (s : State) (g : Nat) (m : MailMsg) : State := s.onHub (fun h => { h with mail := h.mail ++ [(g, m)] })

/-- The slot of the lode that holds a geode. -/
def State.slotOn (s : State) (g : Nat) : Fin 16 := match s.jobOn g with | some j => Fin.ofNat 16 j.slot | none => 0

/-- The lane-eclipse variant of a stream (R334, R381): from two beacons on, or from the job's first frame where that is
still to come. It is a planned switch, which the hub orders by its mailbox (R40, R45). -/
def State.wantLaneVariant (s : State) (g q : Nat) (job : U16) : State :=
  let n := (s.geode g).beacon.getD 0
  let from_ := match s.jobOf job with
    | some j => if atOrAfter n j.first then n + 2 else j.first
    | none => n + 2
  let v := byteOf (0x20 + q)
  if (s.geode g).laneVar.any (fun e => e.1 == v && e.2.2.isNone) then s
  else (s.onGeode g (fun x => { x with laneVar := x.laneVar ++ [(v, from_, none)] })).mailTo g (.lode (s.slotOn g) v from_)

/-- The eclipsed stream's lane has regained framing (R334): its variant ends two beacons on. -/
def State.endLaneVariant (s : State) (g q : Nat) : State :=
  let n := (s.geode g).beacon.getD 0
  let v := byteOf (0x20 + q)
  if (s.geode g).laneVar.any (fun e => e.1 == v && e.2.2.isNone) then
    (s.onGeode g (fun x =>
      { x with laneVar := x.laneVar.map (fun e => if e.1 == v && e.2.2.isNone then (e.1, e.2.1, some (n + 2)) else e) })).mailTo g
      (.lode (s.slotOn g) 0 (n + 2))
  else s

/-- What an eclipse does to the stream bound at a position (R380, R416). -/
def State.eclipseStream (s : State) (b : Nat) : State :=
  match (s.pos b).stream with
  | none => s
  | some st => (s.wantLaneVariant (b / 4) (b % 4) st.job).hold b 5

/-- A LIVE module's lanes are eclipsed (R380): `logged` unless a wake from Dusk is the cause (R382). -/
def State.eclipse (s : State) (b : Nat) (cause : EclipseCause) (logged : Bool) : State :=
  let s1 := if logged then s.laneLog b 0x1C (eclipseCode cause) 0 else s
  let s2 := (s1.span b).foldl (fun t p =>
    t.onPos p (fun x =>
      { x with oldRate := x.rate, trial := x.rate, rate := 3, framed := false, runAck := false, seqNext := none, badRun := 0
               rxsig := if cause == .signal then false else x.rxsig })) s1
  let s3 := ((s2.onPos b (fun x => { x with tries := 0 })).onStream b
    (fun y => { y with last := List.replicate 4 none })).setMod b .eclipsed
  (s3.eclipseStream b).wantWindow (b / 4)

/-- A device link loses framing (R383): the whole link is eclipsed with q = 0. -/
def State.eclipseLink (s : State) (q : Nat) (p : Nat) (cause : EclipseCause) : State :=
  let s1 := s.laneLog p 0x1C (eclipseCode cause) 0
  let s2 := (List.range 4).foldl (fun t l =>
    (t.onPos (4 * q + l) (fun x =>
      { x with oldRate := x.rate, trial := x.rate, rate := 3, framed := false, badRun := 0, tries := 0 })).setLane (4 * q + l) 4)
    (s1.onQuad q (fun x => { x with dlup := false }))
  let job := (s2.quad q).streams.findSome? (fun m => m.map (fun st => st.job))
  (match job with
   | some j => s2.wantLaneVariant q 0 j
   | none => s2).wantWindow q

end Sys2Proof.Machine
end

