-- ==== Sys2Proof/Machine/CalOps.lean ====
section
/-! DEFINITION. Shared operations of modules and calibration: the seed of an estimate record (R396), the lives of a
module (R369, R370), control acknowledgments (R368), and the start-up and position solves (R413, R414). -/

namespace Sys2Proof.Machine
open Sys2Proof

/-- A number of `n` bytes as a signed number. -/
def leInt (bs : List Byte) (o n : Nat) : Int := (BitVec.ofNat (8 * n) (leAt bs o n)).toInt

/-- The module temperature known now (R396, R403): the last reading, or the junction temperature (log entry 62). -/
def State.modTemp (s : State) (b : Nat) : U16 :=
  match (s.pos b).temps.getLast? with
  | some (_, t) => BitVec.ofInt 16 t
  | none => s.aon.tj

/-- The estimate record that the assay record seeds (R396); SRESP, whose derivation is not given, is free. -/
def State.seedEst (s : State) (b : Nat) : State :=
  let r := (s.pos b).record
  let w := s.freshWords 16
  let e : EstRec :=
    { source := .seed, d := BitVec.ofInt 32 (leInt r 48 4), sresp := w.1.map (fun v => BitVec.ofNat 14 v)
      hr := (List.range 64).map (fun i =>
        ((fFromInt 0 (leInt r (64 + 4 * i) 2) 13).val, (fFromInt 0 (leInt r (66 + 4 * i) 2) 13).val))
      time := s.aon.time, temp := s.modTemp b }
  w.2.onPos b (fun p => { p with est := some e })

/-- An estimate record from measurement (R396): its quantities are free (log entry 43). -/
def State.measuredEst (s : State) (b : Nat) (src : EstSource) : State :=
  let w := s.freshWords 145
  let g := fun (k : Nat) => w.1.getD k 0
  let e : EstRec :=
    { source := src, d := BitVec.ofNat 32 (g 0), sresp := (List.range 16).map (fun k => BitVec.ofNat 14 (g (1 + k)))
      hr := (List.range 64).map (fun i => (BitVec.ofNat 28 (g (17 + 2 * i)), BitVec.ofNat 28 (g (18 + 2 * i))))
      time := s.aon.time, temp := s.modTemp b }
  w.2.onPos b (fun p => { p with est := some e })

/-! ### Rates of training attempts (R370, R380) -/

/-- Rates allowed for a lane (R370): of its module's RATES, on a device link of every rate that R351 names, those that its
own LCFG.RMAX allows. -/
def State.laneRates (s : State) (p : Nat) : List Nat :=
  let rates := if (s.quad (p / 4)).dlMode then 7
    else match s.owner p with
      | some b => recRates (s.pos b).record
      | none => recRates (s.pos p).record
  allowedRates rates (s.pos p).rmax.toNat

/-- The next lower rate of a list, or the highest where none is lower. -/
def nextLower (l : List Nat) (cur : Nat) : Nat :=
  match l.find? (fun k => decide (cur < k)) with
  | some k => k
  | none => l.headD cur

/-- The next lower rate of a list, or the same where none is lower. -/
def nextLowerOr (l : List Nat) (cur : Nat) : Nat := (l.find? (fun k => decide (cur < k))).getD cur

/-- The rate at which a lane trains next. -/
def State.setTrial (s : State) (p r : Nat) : State := s.onPos p (fun x => { x with trial := BitVec.ofNat 2 r })

/-- Lanes train next at the highest rate that each may use (R370). -/
def State.firstTrials (s : State) (ps : List Nat) : State := ps.foldl (fun t p => t.setTrial p ((t.laneRates p).headD 3)) s

/-- Every lane of the module is framed, and all at one rate (R356, R370). -/
def State.allFramed (s : State) (b : Nat) : Bool := (s.span b).all (fun p => (s.pos p).framed)
def State.oneRate (s : State) (b : Nat) : Bool := (s.span b).all (fun p => (s.pos p).rate == (s.pos b).rate)

/-- The module becomes LIVE (R369 step 6, R380, R410, R417): its stream's variant ends, its hold of cause 101 may end, and
its injection is set again (log entry 63). -/
def State.goLive (s : State) (b : Nat) : State :=
  let s1 := ((s.span b).foldl (fun t p => t.onPos p (fun x => { x with oldRate := 3 })) s).onPos b
    (fun x => { x with tries := 0 })
  let s2 := s1.setMod b .live
  match (s2.pos b).stream with
  | none => s2
  | some st =>
    if (s2.pos b).changed then s2
    else
      let s3 := (s2.endLaneVariant (b / 4) (b % 4)).onStream b (fun x =>
        { x with cleared := x.cleared || (x.holdDue.getD x.cause == 5) })
      if injects st && (s3.pos b).inject then s3.sendInject b true else s3

/-- The module may become LIVE now: RUN is acknowledged, every lane framed at one rate. -/
def State.tryLive (s : State) (b : Nat) : State :=
  let p := s.pos b
  if p.runAck && s.allFramed b && s.oneRate b &&
      (p.mod == .training || p.mod == .eclipsed || p.mod == .retraining) then s.goLive b
  else s

/-- CONTROL_ACKNOWLEDGED (R368): TVAL names the message under way. -/
def State.ackCtl (s : State) (b : Nat) (tval : BitVec 12) : State :=
  match (s.pos b).ctl with
  | none => s
  | some m =>
    if m.cseq ≠ tval then s
    else
      let s1 := s.onPos b (fun x => { x with ctl := none })
      let s2 := if m.cmd = 1 then (s1.onPos b (fun x => { x with runAck := true })).tryLive b
        else if m.cmd = 3 && bitOf m.arg 8 then
          s1.onStream b (fun x => { x with cleared := x.cleared || (x.holdDue.getD x.cause == 3) })
        else s1
      s2.nextCtl b

/-- A die temperature reading (R354, R403): readings of the last second are kept. -/
def State.tempReading (s : State) (b : Nat) (v : BitVec 12) : State :=
  let now := now56 s.aon
  s.onPos b (fun x => { x with temps := x.temps.filter (fun e => decide (now < e.1 + 2 ^ 56)) ++ [(now, v.toInt)] })

/-! ### Solves (R413, R414) -/

/-- A core enters or leaves wide mode outside service (R112, R113, R413): leaving clears every accumulator. -/
def wideCore (c : Core) (on : Bool) : Core :=
  if c.svc then c
  else
    { c with threads := c.threads.map (fun t =>
        { t with
          mode := setBit t.mode 12 on
          ac := if on then t.ac else []
          va := if on then t.va else [] }) }

/-- The cores that a solve uses: all nine at start-up, the spare after it. -/
def State.solveCores (s : State) (g : Nat) : List Nat :=
  if s.aon.devstate = .starting then List.range 9
  else match (s.geode g).spare with
    | some k => [k]
    | none => []
def State.wideCores (s : State) (g : Nat) (on : Bool) : State :=
  (s.solveCores g).foldl (fun t k => t.onCoreAt (9 * g + k) (fun c => wideCore c on)) s

/-- A position solve waits while the spare holds, or is about to take, a role (R414). -/
def State.solveWaits (s : State) (g : Nat) : Bool :=
  s.aon.devstate != .starting && ((s.geode g).spare.isNone || (s.geode g).eclipse.isSome)

/-- The spare is back: the solves that wait go on in wide mode (R414). -/
def State.resumeSolves (s : State) (g : Nat) : State :=
  if !s.solveWaits g && (List.range 4).any (fun l => (s.pos (4 * g + l)).solving.isSome) then s.wideCores g true else s

/-- A solve begins (R413, R414): INJECT at L = 60, and a solve ring of two pages. -/
def State.beginSolve (s : State) (b : Nat) : State :=
  let g := b / 4
  let pages := (s.geode g).pool.take 2
  let s1 := s.onGeode g (fun x => { x with pool := x.pool.drop 2 })
  let s2 := s1.onPos b (fun x =>
    { x with solving := some 0, solveReq := false, solvePages := pages, solveNext := 0, level := 60 })
  (s2.wideCores g true).sendInject b true

/-- Pages that no table maps go back to the pool through zeroing (R267). -/
def freePages (g : Geode) (ps : List Nat) : Geode :=
  { g with zeroing := g.zeroing ++ ps.filter (fun k => !g.zeroing.contains k && !g.pool.contains k) }

/-- A solve ends: INJECT clear, its ring freed; the last of the geode ends wide mode. -/
def State.stopSolve (s : State) (b : Nat) : State :=
  let g := b / 4
  let s1 := (s.onGeode g (fun x => freePages x (s.pos b).solvePages)).onPos b
    (fun x => { x with solving := none, solvePages := [] })
  let s2 := s1.sendInject b false
  if (List.range 4).any (fun l => (s2.pos (4 * g + l)).solving.isSome) then s2 else s2.wideCores g false

/-- STARTUP_CALIBRATION (R413): the solves of a geode's LIVE modules with INJCAP = 1. -/
def State.startupCal (s : State) (g : Nat) : State :=
  if (s.geode g).faulted then s
  else
    ((List.range 4).map (fun l => 4 * g + l)).foldl (fun t b =>
      if (t.pos b).mod == .live && recInjCap (t.pos b).record then t.beginSolve b else t) s

end Sys2Proof.Machine
end

