-- ==== Sys2Proof/Machine/CoreEvents.lean ====
section
/-! DEFINITION. The events inside a Lorner core that time brings: divider results (R68, R171), window-load data
(R258), dispatches (R127, R141), the core timer (R121), the L0 window (R125), the vector unit's power (R182, R183), the
lazy F sequence (R136, R137) and an F28 trap taken (R216). An event whose condition does not hold changes nothing. -/

namespace Sys2Proof.Machine
open Sys2Proof

/-- A write of a value or a flag, which may be made twice. -/
def plainWrite : RegW → Bool
  | .d _ _ => true
  | .f _ _ => true
  | .flag _ _ => true
  | _ => false

/-- A result that a unit owes is written: it lands at the level's next advancing cycle as a write of the bundle that
issued it. For a level that does not run the whole result lands at once, its sticky flags and its trap with it (R66,
R148, R215, R216); its values and flags land again there, for the order of R68 (log entry 120). -/
def landUnit (c : Core) (u : UnitPend) : Core :=
  let later := fun (ws : List RegW) (d : Core) =>
    onThread d u.tid (fun t => { t with flight := t.flight ++ ws.map (fun w => { due := t.adv, seq := u.seq, w := w }) })
  if c.live && c.run == .lvl u.tid then later u.ws c
  else u.ws.foldl (fun k w => landOne k u.tid w) (later (u.ws.filter plainWrite) c)

/-- DIVIDE_RESULT_LANDS (R68, R169): the integer divider's result lands, and a bundle that waits for it goes on. -/
def execDivideResultLands (r : CoreRef) (s : State) : Host.Outcome State Fault Refusal :=
  .next (match (s.core r).divu with
    | none => s
    | some u => (s.onCore r (fun c => { landUnit c u with divu := none })).retryIf r .divider)

/-- DIVIDE_SQUARE_ROOT_LANDS (R68, R213): the F28 unit's result lands, and a bundle that waits for it goes on. -/
def execDivideSquareRootLands (r : CoreRef) (s : State) : Host.Outcome State Fault Refusal :=
  .next (match (s.core r).fdivu with
    | none => s
    | some u => (s.onCore r (fun c => { landUnit c u with fdivu := none })).retryIf r .fdivider)

/-- Words of a gather that page-faulted behind them are written as they arrive, whether or not the level runs (R197). -/
def keepArrived (rid : Nat) (els : List (Nat × Word)) (t : Thread) : Thread :=
  match t.flight.findSome? (fun p => match p.w with
    | .load r _ (.kept n) => if r = rid then some n else none
    | _ => none) with
  | some n => { t with v := putEls t.v (32 * n) els }
  | none => t

/-- The oldest load's arrived words move to their level's return buffer (R69, R258). -/
def deliverInbox (c : Core) : Core :=
  match c.inbox with
  | [] => c
  | (tid, rid, el, w) :: rest =>
    let mine := (tid, rid, el, w) :: rest.filter (fun e => e.1 == tid && e.2.1 == rid)
    let c1 := { c with inbox := rest.filter (fun e => !(e.1 == tid && e.2.1 == rid)) }
    onThread c1 tid (fun t => keepArrived rid (mine.map (fun e => e.2.2))
      { t with retbuf := t.retbuf ++ mine.map (fun e => (e.2.1, e.2.2.1, e.2.2.2)) })

/-- SHARED_LOAD_DATA_ARRIVAL (R258): data that waits in the crossing reaches the return buffer; the off-plan stall of a
level that needs it ends. -/
def execSharedLoadDataArrival (r : CoreRef) (s : State) : Host.Outcome State Fault Refusal :=
  .next ((s.onCore r deliverInbox).retryIf r .loadData)

/-- A dispatch at a dispatch point of a running core, where one is due. -/
def State.dispatchCore (s : State) (r : CoreRef) : State :=
  let c := s.core r
  if c.live && atDispatchPoint c && dispatchDue c then s.take r { core := dispatch c } else s

/-- EVENT_DISPATCH (R124, R127): at a dispatch point the core changes to the highest-ranked ready level. -/
def execEventDispatch (g : Fin 8) (c : Fin 9) (s : State) : Host.Outcome State Fault Refusal :=
  .next (s.dispatchCore (.sig g c))

/-- CONTEXT_DISPATCH (R141): at a dispatch point the scheduler picks a context; a signal core has none. -/
def execContextDispatch (r : CoreRef) (s : State) : Host.Outcome State Fault Refusal :=
  .next (match r with
    | .sig _ _ => s
    | _ => s.dispatchCore r)

/-- The timer line of a core (R123, R142). -/
def timerLine : CoreKind → Nat
  | .signal => 2
  | .supervisor => 28
  | .hub => 50

/-- CORE_TIMER_EXPIRY (R121): TMR, which the core's counted cycles have stepped down, steps to 0 and its line becomes
pending (log entry 96). -/
def execCoreTimerExpiry (r : CoreRef) (s : State) : Host.Outcome State Fault Refusal :=
  .next (s.onCore r (fun c => if c.tmr = 0 then c else raiseLine { c with tmr := 0 } (timerLine c.kind)))

/-- L0_WINDOW_OPEN (R125): the window opens, unless L0WIN gives it no length. -/
def execL0WindowOpen (g : Fin 8) (c : Fin 9) (s : State) : Host.Outcome State Fault Refusal :=
  .next (s.onCore (.sig g c) (fun k => if k.l0win.toNat % 2 ^ 14 = 0 then k else { k with l0open := true }))

/-- L0_WINDOW_CLOSE (R125). -/
def execL0WindowClose (g : Fin 8) (c : Fin 9) (s : State) : Host.Outcome State Fault Refusal :=
  .next (s.onCore (.sig g c) (fun k => { k with l0open := false }))

/-- VECTOR_UNIT_POWER_DOWN (R182): 256 cycles without use have passed; VPIN = 1 keeps the unit powered. -/
def execVectorUnitPowerDown (r : CoreRef) (s : State) : Host.Outcome State Fault Refusal :=
  .next (s.onCore r (fun c => if c.vpin then c else { c with vpow := false }))

/-- VECTOR_UNIT_WAKE (R183): the wake under way ends and a bundle that waits for it goes on. -/
def execVectorUnitWake (r : CoreRef) (s : State) : Host.Outcome State Fault Refusal :=
  .next (if (s.core r).vwaking then
      (s.onCore r (fun c => { c with vpow := true, vwaking := false })).retryIf r .vectorWake
    else s)

/-- The 34 words of the F state as a save area holds them (R137). -/
def fWords (c : Core) : List Word :=
  (List.range 16).flatMap (fun i =>
    let v := smGet c.f i
    [(v.truncate 14 : Word), ((v >>> 14).truncate 14 : Word)]) ++ [c.fstat, 0]

/-- Save to a level's area, and restore from one (R136, R137). -/
def saveF (c : Core) (lvl : Nat) : Core := { c with x := c.x.writeList (fArea c lvl) (fWords c) }
def restoreF (c : Core) (lvl : Nat) : Core :=
  let a := fArea c lvl
  let word := fun (k : Nat) => smGet c.x.cells (a + k)
  { c with
    f := smPutAll [] ((List.range 16).map (fun i => (i, word (2 * i + 1) ++ word (2 * i))))
    fstat := word 32 &&& 0x1F1F }

/-- The core with the F state of another level saved (R136). -/
def lazySaved (c : Core) (lvl : Nat) : Core := if c.fownv && c.fown != lvl then saveF c c.fown else c

/-- The words of X memory that a restore reads (R132, R137). -/
def areaWords (c : Core) (lvl : Nat) : List (EccMem × Nat) := (List.range 34).map (fun k => (.x, fArea c lvl + k))

/-- The lazy F sequence for level `lvl` (R136): 20 cycles with a save, 10 without. -/
def lazyF (c : Core) (lvl : Nat) : Core :=
  let other := c.fownv && c.fown != lvl
  let c1 := lazySaved c lvl
  let c2 := restoreF (eccClean c1 0 0 (areaWords c1 lvl)) lvl
  onThread (({ c2 with fown := lvl, fownv := true } : Core).spend (if other then 20 else 10)) lvl
    (fun t => { t with stat := setBit t.stat 12 true })

/-- LAZY_F_SEQUENCE (R136): it runs for the bundle that waits for it, once a divide or square root of the F file's
owner has landed; then the bundle goes on. -/
def execLazyFSequence (g : Fin 8) (c : Fin 9) (s : State) : Host.Outcome State Fault Refusal :=
  let r := CoreRef.sig g c
  let k := s.core r
  let owes := match k.fdivu with
    | some u => k.fownv && u.tid == k.fown
    | none => false
  .next (match k.stall, k.run with
    | some .lazyF, .lvl n =>
      if k.live && !owes then
        (match eccBad (lazySaved k n) 0 0 (areaWords k n) with
         | some place => s.take r (eccStop k place)
         | none => (s.onCore r (fun d => lazyF d n)).retryIf r .lazyF)
      else s
    | _, _ => s)

/-- F28_TRAP_TAKEN (R216, R218, R221): a trap that is due is taken at its level's dispatch point. -/
def execF28TrapTaken (r : CoreRef) (s : State) : Host.Outcome State Fault Refusal :=
  let c := s.core r
  .next (match c.run with
    | .lvl k =>
      if c.live && atDispatchPoint c && (match c.threads[k]? with | some t => t.trapDue.isSome | none => false) then
        s.take r { core := takeTrap c k }
      else s
    | .idle => s)

end Sys2Proof.Machine
end

