-- ==== Sys2Proof/Machine/MemEvents.lean ====
section
/-! DEFINITION. The events of the fabric and the memories: bank and device-global service (R255, R256, R260), the store
buffer's drain (R273, R275), the page allocator (R265–R267), scrubbing (R272), the supervisor's core control port
(R249, R263) and the user decode table's validation (R243, R244). -/

namespace Sys2Proof.Machine
open Sys2Proof

/-! ### Bank service (R255, R256) -/

/-- The bank of a physical word offset (R254). -/
def bankOf (a : Nat) : Nat := a / 32 % 16

/-- The bank that a request goes to: its words lie in one row. -/
def reqBank (q : MemReq) : Nat := match q.offs with | [] => 0 | p :: _ => bankOf p.2

/-- The OWNER code of a requester (R255): a core's role slot; 8 for the spare. A core that holds no role and is not the
spare has none: 12, which no entry of a table names, stands for it (log entry 142). -/
def ownerCode (g : Geode) : Requester → Nat
  | .core c => if g.role.contains c then g.role.idxOf c else if g.spare = some c then 8 else 12
  | .sup => 9
  | .dma => 10
  | .quad => 11

/-- The waiting request that the owner code `o` has to a bank, oldest first. -/
def ownedReq (g : Geode) (bank o : Nat) : Option MemReq :=
  g.reqs.find? (fun q => reqBank q == bank && ownerCode g q.by_ == o)

/-- The OWNER codes in the order in which the round-robin of free slots asks them after code `rr` (R256). -/
def freeOrder (rr : Nat) : List Nat := (List.range 13).map (fun k => (rr + 1 + k) % 13)

/-- A free slot goes to the waiting requesters round-robin in the order of the OWNER codes, after code `rr` (R256). -/
def freeReq (g : Geode) (bank : Nat) : Option (Nat × MemReq) :=
  (freeOrder g.rr).findSome? (fun o => (ownedReq g bank o).map (fun q => (o, q)))

/-- The table marks a bank free in a column. -/
def freeIn (g : Geode) (bank col : Nat) : Bool := bstAt g.bst (16 * col + bank) == 0xF#4

/-- The slot in which an access that is served as it reaches the fabric takes its bank, for owner code `code` (R256): a
column of its own, or else a free one in which the round-robin chooses it among the waiting requesters. The geode as it
stands after that fabric cycle; none where the access still has to wait (log entry 143). -/
def claimSlot (g : Geode) (code bank : Nat) : Option Geode :=
  match (List.range 16).find? (fun col => bstAt g.bst (16 * col + bank) == BitVec.ofNat 4 code) with
  | some col => if code < 12 then some { g with column := BitVec.ofNat 4 col } else none
  | none =>
    if (freeOrder g.rr).find? (fun o => o == code || (ownedReq g bank o).isSome) == some code then
      ((List.range 16).find? (freeIn g bank)).map (fun col => { g with column := BitVec.ofNat 4 col, rr := code })
    else none

/-- Zeroing and scrubbing may use a bank: it has a free slot, and no requester waits for it (R256). -/
def bankIdle (g : Geode) (bank : Nat) : Bool :=
  (List.range 16).any (freeIn g bank) && !g.reqs.any (fun q => reqBank q == bank)

/-- The request served in a column and bank, and where the round-robin stands then. -/
def servedReq (g : Geode) (bank column : Nat) : Option (Nat × MemReq) :=
  let o := (bstAt g.bst (16 * column + bank)).toNat
  if o = 0xF then freeReq g bank
  else (ownedReq g bank o).map (fun q => (g.rr, q))

/-- The core that a requester is, in `State.cores`. -/
def reqCore (g : Nat) : Requester → Nat
  | .core c => 9 * g + c
  | _ => 72 + g

/-- Read words go back to their core, which a full set of requests may hold; a stopped core takes none (R135). -/
def State.deliver (s : State) (g : Nat) (q : MemReq) (ws : List (Nat × Nat × Nat × Word)) : State :=
  s.onCoreAt (reqCore g q.by_) (fun c => if c.stop.isSome then c else { c with inbox := c.inbox ++ ws })

/-- A core by its number in `State.cores`. -/
def coreOfReq (g : Fin 8) : Requester → CoreRef
  | .core c => .sig g (Fin.ofNat 9 c)
  | _ => .sup g

/-- A geode's oldest device-global request asks for hub memory (R260). -/
def State.hubAsks (s : State) (g : Nat) : Bool :=
  match (s.geode g).greqs with
  | q :: _ => q.offs.all (fun p => decide (p.2 < 0x880000))
  | [] => false

/-- The hub memory's round-robin over the geodes stands at geode `g`, which asks (R260). -/
def State.hubTurn (s : State) (g : Nat) : Bool :=
  ((List.range 8).map (fun k => (s.hub.rrG + 1 + k) % 8)).find? (fun k => k == g || s.hubAsks k) == some g

/-- The hub memory has served a geode. -/
def State.hubServed (s : State) (g : Nat) : State := s.onHub (fun h => { h with rrG := g })

/-- A request beyond the eighth leaves its core once fewer wait (R256). -/
def State.leaveLate (s : State) (g : Fin 8) (me : Requester) : State :=
  match (s.core (coreOfReq g me)).lateReqs with
  | [] => s
  | (glb, q) :: rest =>
    if 8 ≤ waitingOf (s.geode g.val) me then s
    else
      (s.onCore (coreOfReq g me) (fun c => { c with lateReqs := rest })).onGeode g.val (fun x =>
        if glb then { x with greqs := x.greqs ++ [q] } else { x with reqs := x.reqs ++ [q] })

/-- The words read go back to the requester, whose next request may leave; a bundle that waits goes on. -/
def State.answer (s : State) (g : Fin 8) (q : MemReq) (ws : List (Nat × Nat × Nat × Word)) : State :=
  ((s.deliver g.val q ws).leaveLate g q.by_).retryIf (coreOfReq g q.by_) .requests

/-- BANK_REQUEST_SERVED (R255, R256, R260): the request that the bank-slot table, or the round-robin of a free slot,
selects in the column is read; or the oldest device-global request of the geode, by the hub memory in the geode's turn. -/
def execBankRequestServed (g : Fin 8) (w : Serve) (s : State) : Host.Outcome State Fault Refusal :=
  let x := s.geode g.val
  .next (match w with
    | .bank b col =>
      let s0 := (s.onGeode g.val (fun y => { y with column := col })).bstRead g.val (16 * col.toNat + b.toNat)
      match servedReq x b.toNat col.toNat with
      | none => s0
      | some (rr, q) =>
        let r := s0.readReq (reqCore g.val q.by_) g.val false q
        (r.1.onGeode g.val (fun y => { y with reqs := y.reqs.erase q, rr := rr })).answer g q r.2
    | .global =>
      match x.greqs with
      | [] => s
      | q :: rest =>
        if s.hubAsks g.val && !s.hubTurn g.val then s
        else
          let s0 := if s.hubAsks g.val then s.hubServed g.val else s
          let r := s0.readReq (reqCore g.val q.by_) g.val true q
          (r.1.onGeode g.val (fun y => { y with greqs := rest })).answer g q r.2)

/-! ### The store buffer (R273–R275) -/

/-- The bank of a store-buffer entry, whose words lie in one row (R273). -/
def entryBank (ws : List (Nat × Word)) : Nat := match ws with | [] => 0 | w :: _ => bankOf w.1

/-- An earlier request of the same core to the same bank is still waiting (R256), in its geode or in the core. -/
def drainBlocked (g : Geode) (c : Core) (me : Requester) (e : SbEntry) (bank : Nat) : Bool :=
  g.reqs.any (fun q => q.by_ == me && decide (q.id < e.id) && reqBank q == bank) ||
    c.lateReqs.any (fun p => decide (p.2.id < e.id))

/-- A store to the device-global window, by a core or by DMA, passes through geode `g` (R260): behind the requests that
wait there, and into hub memory in the geode's turn. -/
def State.glbPass (s : State) (g : Nat) (hubMem : Bool) : Option State :=
  if !(s.geode g).greqs.isEmpty then none
  else if !hubMem then some s
  else if s.hubTurn g then some (s.hubServed g)
  else none

/-- The head entry's way into its target is free: in its bank's slot (R256, R273), or through the device-global path. -/
def State.drainWay (s : State) (r : CoreRef) (e : SbEntry) : Option State :=
  match coreGeode r, e.kind with
  | some g, .shm ws =>
    let b := entryBank ws
    if drainBlocked (s.geode g) (s.core r) (requesterOf r) e b then none
    else (claimSlot (s.geode g) (ownerCode (s.geode g) (requesterOf r)) b).map (fun y => s.onGeode g (fun _ => y))
  | some g, .glb ws =>
    if (s.core r).lateReqs.any (fun p => decide (p.2.id < e.id)) then none
    else s.glbPass g (ws.all (fun w => decide (w.1 < 0x880000)))
  | _, _ => some s

/-- A latch of every channel of an engine is set (R298): bits 0–7 lines or events, bit 8 the beacon. -/
def latchAll (cs : List Chan) (k : Nat) : List Chan := cs.map (fun c => { c with latch := c.latch ||| (1#9 <<< k) })

/-- SIGNAL u3 reaches the fabric (R275). -/
def State.signalLine (s : State) (r : CoreRef) (u : Nat) : State :=
  match coreGeode r with
  | some g => (s.raiseCores g (20 + u)).onGeode g (fun x => { x with chans := latchAll x.chans u })
  | none => s.onHub (fun h => { h with chans := latchAll h.chans u })

/-- The head entry is written into its target. -/
def State.drainEntry (s : State) (r : CoreRef) (e : SbEntry) : State :=
  match e.kind with
  | .shm ws => ws.foldl (fun st w => st.shmWrite ((coreGeode r).getD 0) w.1 w.2) s
  | .glb ws => ws.foldl (fun st w => st.glbWrite w.1 w.2) s
  | .signal u => s.signalLine r u.toNat

/-- STORE_BUFFER_DRAIN (R273, R275): the head entry is written, in its slot, also after the core has stopped; a bundle that
waits for room goes on. -/
def execStoreBufferDrain (r : CoreRef) (s : State) : Host.Outcome State Fault Refusal :=
  .next (match (s.core r).sb with
    | [] => s
    | e :: rest =>
      match s.drainWay r e with
      | none => s
      | some s1 => ((s1.drainEntry r e).onCore r (fun c => { c with sb := rest })).retryIf r .storeBuffer)

/-! ### The page allocator (R265–R267) -/

/-- The master copy's index of entry v of table t of core c (R266). -/
def masterIdx (c t v : Nat) : Nat := (8 * c + t) * 1024 + v

/-- Table entries of the geode that map page k (R265). -/
def pageCount (g : Geode) (k : Nat) : Nat :=
  (g.master.filter (fun e => bitOf e.2 13 && e.2.toNat % 512 == k)).length

/-- One table entry is unmapped (R265): its drain marker is owed, and a page that no entry maps any more goes to
zeroing; page 0 never does (R281). -/
def unmapEntry (g : Geode) (idx : Nat) : Geode :=
  let e := smGet g.master idx
  let k := e.toNat % 512
  let g1 := { g with master := smPut g.master idx (e &&& 0x1FFF), owed := g.owed ++ [k] }
  if k != 0 && pageCount g1 k == 0 then { g1 with zeroing := g1.zeroing ++ [k] } else g1

/-- The allocator's decision of one request (R265): the geode, the entry, Z and V. -/
def decidePage (g : Geode) (q : PageReq) : Geode × Word × Bool × Bool :=
  let idx := masterIdx q.core q.tid q.vpage
  let e := smGet g.master idx
  if q.alloc then
    if bitOf e 13 then (g, e, true, false)
    else match g.pool with
      | [] => (g, e, false, true)
      | k :: rest =>
        let n : Word := 0x2000 ||| BitVec.ofNat 14 k
        ({ g with master := smPut g.master idx n, pool := rest }, n, false, false)
  else if bitOf e 13 then (unmapEntry g idx, e &&& 0x1FFF, false, false)
  else (g, e, true, false)

/-- The core of an allocator index: 0–8, or the supervisor. -/
def pageCore (g : Fin 8) (c : Nat) : CoreRef := if c = 9 then .sup g else .sig g (Fin.ofNat 9 c)

/-- PAGE_REQUEST_DECIDED (R265, R266): the oldest request at the allocator is decided; its answer returns to the core. -/
def execPageRequestDecided (g : Fin 8) (s : State) : Host.Outcome State Fault Refusal :=
  .next (match (s.geode g.val).pageReqs with
    | [] => s
    | q :: rest =>
      let d := decidePage (s.geode g.val) q
      let r := pageCore g q.core
      let s1 := s.onGeode g.val (fun _ => { d.1 with pageReqs := rest })
      (s1.onCore r (fun c =>
        if c.stop.isSome then c else { c with pageRes := c.pageRes ++ [(q.id, d.2.1, d.2.2.1, d.2.2.2)] })).retryIf
        r .loadData)

/-- A marker has passed everything its core sent before it (R267). -/
def markerArrives (g : Geode) (c : Core) (m : Marker) : Bool :=
  let me : Requester := if m.core = 9 then .sup else .core m.core
  !(g.reqs.any (fun q => q.by_ == me && decide (q.id < m.upTo))) &&
  !(g.greqs.any (fun q => q.by_ == me && decide (q.id < m.upTo))) &&
  !(c.lateReqs.any (fun p => decide (p.2.id < m.upTo))) &&
  !(c.sb.any (fun e => decide (e.id < m.upTo)))

/-- DRAIN_MARKER_ARRIVAL (R267): the first marker that can arrive does. -/
def execDrainMarkerArrival (g : Fin 8) (s : State) : Host.Outcome State Fault Refusal :=
  let x := s.geode g.val
  .next (match takeFirst (fun m => markerArrives x (s.core (pageCore g m.core)) m) x.markers with
    | none => s
    | some (m, rest) => s.onGeode g.val (fun y => { y with markers := rest, owed := y.owed.erase m.page }))

/-- Zero a page (R267). -/
def zeroPage (m : EMem 14) (k : Nat) : EMem 14 :=
  let inside := fun (a : Nat) => decide (4096 * k ≤ a) && decide (a < 4096 * k + 4096)
  { cells := smClear m.cells (4096 * k) 4096
    corr := m.corr.filter (fun a => !inside a)
    unc := m.unc.filter (fun a => !inside a) }

/-- PAGE_ZEROING_COMPLETE (R256, R267): the first page whose markers have all arrived is zeroed, in free slots of every
bank, and enters the pool. -/
def execPageZeroingComplete (g : Fin 8) (s : State) : Host.Outcome State Fault Refusal :=
  .next (s.onGeode g.val (fun x =>
    if !(List.range 16).all (bankIdle x) then x
    else match takeFirst (fun k => !x.owed.contains k) x.zeroing with
    | none => x
    | some (k, rest) => { x with mem := zeroPage x.mem k, zeroing := rest, pool := insAsc x.pool k }))

/-! ### Scrubbing (R270–R272) -/

/-- Scrub one word: errors corrected, and whether it is uncorrectable. -/
def scrubWord {w : Nat} (m : EMem w) (a : Nat) : EMem w × Nat × Bool :=
  (m.corrected a, b2n (m.corr.contains a), m.unc.contains a)

/-- Scrub of a core's own memory: which (0 X, 1 Y, 2 instruction), and its pointer. -/
def scrubCore (c : Core) (which : Nat) : Core × Option Nat :=
  let done := fun (d : Core) (n : Nat) (bad : Bool) (a : Nat) =>
    ({ d with eccCorr := ctrAdd 16 d.eccCorr n, eccUnc := ctrAdd 16 d.eccUnc (b2n bad) }, if bad then some a else none)
  match which with
  | 0 => let r := scrubWord c.x c.scrubX; done { c with x := r.1, scrubX := (c.scrubX + 1) % 65536 } r.2.1 r.2.2 c.scrubX
  | 1 => let r := scrubWord c.y c.scrubY; done { c with y := r.1, scrubY := (c.scrubY + 1) % 65536 } r.2.1 r.2.2 c.scrubY
  | _ =>
    let r := scrubWord c.imem c.scrubI
    done { c with imem := r.1, scrubI := (c.scrubI + 1) % 16384 } r.2.1 r.2.2 c.scrubI

/-- What an uncorrectable word of a core's memory that scrubbing finds does: it stops no core; in service the
supervisor is told, to eclipse it; out of service it is logged (R271, R272). -/
def State.scrubBad (s : State) (r : CoreRef) (which a : Nat) : State :=
  match r with
  | .sig g c =>
    if (s.core r).svc then (s.onCore r (fun k => { k with attn := true })).raiseSup g.val (1 + c.val)
    else s.log { kind := 0x10, geode := byteOf g.val, unit := byteOf c.val, a := u32 which, b := u32 a }
  | .sup g => s.log { kind := 0x10, geode := byteOf g.val, a := u32 which, b := u32 a }
  | .hub => s.log { kind := 0x10, a := u32 which, b := u32 a }

/-- Scrub a core's memory. -/
def State.scrubOwn (s : State) (r : CoreRef) (which : Nat) : State :=
  let q := scrubCore (s.core r) which
  let s1 := s.onCore r (fun _ => q.1)
  match q.2 with
  | some a => s1.scrubBad r which a
  | none => s1

/-- The row of 32 words from `a`. -/
def rowWords (a : Nat) : List Nat := (List.range 32).map (fun k => a + k)

/-- SCRUB_STEP (R272): the next word, syllable or row of a memory is read and corrected; an uncorrectable one is
reported as R272 says. Shared memory is read in free slots (R256). -/
def execScrubStep (p : ScrubPlace) (s : State) : Host.Outcome State Fault Refusal :=
  .next (match p with
    | .x r => s.scrubOwn r 0
    | .y r => s.scrubOwn r 1
    | .imem g c => s.scrubOwn (.sig g c) 2
    | .shared g =>
      let x := s.geode g.val
      if !bankIdle x (bankOf x.scrub) then s else
      let ws := rowWords x.scrub
      let n := (ws.filter (fun a => x.mem.corr.contains a)).length
      let bad := ws.filter (fun a => x.mem.unc.contains a)
      let s1 := s.onGeode g.val (fun y =>
        { y with
          mem := ws.foldl EMem.corrected y.mem
          eccCorr := ctrAdd 16 y.eccCorr n
          scrubPasses := if y.scrub + 32 < 0x200000 then y.scrubPasses else ctrAdd 48 y.scrubPasses 1
          scrub := (y.scrub + 32) % 0x200000 })
      let s2 := s1.counterStuck (2 + g.val) 2 x.scrubPasses (s1.geode g.val).scrubPasses
      bad.foldl (fun st a => (st.shmBad g.val a).raiseSup g.val 30) s2
    | .hubmem =>
      let ws := rowWords s.hub.scrub
      let n := (ws.filter (fun a => s.hub.mem.corr.contains a)).length
      let bad := ws.filter (fun a => s.hub.mem.unc.contains a)
      let s1 := s.onHub (fun h =>
        { h with
          mem := ws.foldl EMem.corrected h.mem
          eccCorr := ctrAdd 16 h.eccCorr n
          eccUnc := ctrAdd 16 h.eccUnc bad.length
          scrub := (h.scrub + 32) % 0x80000 })
      bad.foldl (fun st a => st.log { kind := 0x10, a := 4, b := u32 a }) s1)

/-! ### The user decode table (R241–R244) -/

/-- An operation that R243 does not allow as a micro-operation. -/
def microBarred : Instr → Bool
  | .div _ _ => true
  | .divu _ _ => true
  | .fdiv _ _ => true
  | .fsqrt _ _ => true
  | .fbar _ => true
  | .vldx _ _ => true
  | .vstx _ _ => true
  | .palloc _ _ => true
  | .pfree _ _ => true
  | .mvs _ _ _ _ => true
  | .tget _ _ => true
  | .userDecodeOperation _ _ _ _ _ _ => true
  | _ => false

/-- A load or store: its address register, and whether it loads. -/
def microMem : Instr → Option (Nat × Bool)
  | .ld _ f => some (f.an.toNat, true)
  | .ldD _ f => some (f.an.toNat, true)
  | .st _ f => some (f.an.toNat, false)
  | .stD _ f => some (f.an.toNat, false)
  | .vld _ f => some (f.an.toNat, true)
  | .vst _ f => some (f.an.toNat, false)
  | .vlds _ f => some (f.an.toNat, true)
  | .vsts _ f => some (f.an.toNat, false)
  | _ => none

/-- The site of a micro-operation. -/
def microSite : Site := { core := .sig 0 0, syl := 0, short := false, fin := .more, rsv := false }

/-- A context in which encodings are checked: level L0 of a core as reset leaves it. -/
def checkCtx : IssueCtx := { c := Core.signalReset, tid := 0, t := {}, pc := 0, size := 1 }

/-- Substitution code for the X, Y and Z positions. -/
def substCode (s : Word) (k : Nat) : Nat := s.toNat / 8 ^ (2 - k) % 8

/-- The word of a micro-operation with its substituted positions 0. -/
def blanked (w : Nat) (s : Word) : Nat :=
  let clear := fun (on : Bool) (lo v : Nat) => if on then v - (v / 2 ^ lo % 32) * 2 ^ lo else v
  clear (substCode s 2 != 0) 2 (clear (substCode s 1 != 0) 7 (clear (substCode s 0 != 0) 12 w))

/-- A reserved bit outside the substituted positions is not 0. -/
def microReserved (w : Nat) (s : Word) : Bool :=
  decide (2 ^ 26 ≤ w) ||
  (match (decodeLong microSite (blanked w s)).bind opBase with
   | some (i, _) => i.rsv
   | none => true)

/-- Latency of a micro-operation: of its register results, else 1 (R243). A load counts the latency of X and Y
memory (log entry 27). -/
def microLatency (op : Instr) : Nat :=
  match microMem op with
  | some (_, load) => if load then 2 else 1
  | none =>
    match opBase op with
    | some (_, f) =>
      ((f checkCtx).acts.map (fun a => match a with
        | .wr w lat => if (regNames w).any (· != .flags) then lat else 1
        | _ => 1)).foldl Nat.max 1
    | none => 1

/-- Address registers that a micro-operation writes. -/
def microAddrWrites (op : Instr) : List Nat :=
  match opBase op with
  | some (_, f) => ((f checkCtx).acts.flatMap actNames).filterMap (fun n => match n with | .a k => some k | _ => none)
  | none => []

/-- Validation of entry `u` with a header of V = 1 (R243): 0, or the WHY of the first rule that fails. -/
def udtWhy (udt : SMap 14) (u : Nat) (hdr : Word) : Nat :=
  let n := hdr.toNat / 2 ^ 10 % 8 + 1
  let at_ := fun (i k : Nat) => smGet udt (26 * u + 2 + 3 * i + k)
  let word := fun (i : Nat) => (at_ i 0).toNat + (at_ i 1).toNat * 2 ^ 14
  let is := List.range n
  let op := fun (i : Nat) => decodeLong microSite (blanked (word i % 2 ^ 26) (at_ i 2))
  let okClass := fun (i : Nat) =>
    decide (word i / 2 ^ 23 % 8 < 5) && (match op i with | some o => !microBarred o | none => false)
  let okSubst := fun (i : Nat) =>
    decide ((at_ i 2).toNat < 2 ^ 9) && (List.range 3).all (fun k => decide (substCode (at_ i 2) k ≤ 4)) &&
      (match (op i).bind microMem with
       | some _ => substCode (at_ i 2) 1 == 0 && substCode (at_ i 2) 2 == 0
       | none => true)
  let lat := (is.map (fun i => i + (match op i with | some o => microLatency o | none => 1))).foldl Nat.max 0
  let okAddr := fun (i : Nat) =>
    match (op i).bind microMem with
    | some (an, _) =>
      !((List.range i).any (fun j => match op j with | some o => (microAddrWrites o).contains an | none => false))
    | none => true
  if !is.all okClass then 1
  else if hdr.toNat % 32 ≠ 0 || is.any (fun i => microReserved (word i) (at_ i 2)) then 2
  else if !is.all okSubst then 3
  else if hdr.toNat / 32 % 32 ≠ lat then 4
  else if !is.all okAddr then 5
  else 0

/-- A header is written on a halted core (R243, R244). -/
def writeUdtHeader (c : Core) (u : Nat) (hdr : Word) : Core :=
  if !bitOf hdr 13 then putUdt c (26 * u) hdr
  else
    let why := udtWhy c.udt u hdr
    if why = 0 then putUdt c (26 * u) hdr
    else
      { putUdt c (26 * u) (hdr &&& 0x1FFF) with
        udtstat := (c.udtstat &&& 0x2000) ||| 0x1000 ||| BitVec.ofNat 14 (u * 2 ^ 8 + why) }

/-- A word of the user decode table is written through the control port (R243): only while the core is halted. -/
def writeUdtWord (c : Core) (off : Nat) (v : Word) : Core :=
  if !c.isHalted then { c with udtstat := c.udtstat ||| 0x2000 }
  else if 416 ≤ off then c
  else if off % 26 = 0 then writeUdtHeader c (off / 26) v
  else putUdt c off v

/-- The core control port answers the supervisor with a refusal (R249). -/
def State.portRefuse (s : State) (g : Fin 8) : State :=
  s.onGeode g.val (fun x => { x with portRefusals := x.portRefusals + 1 })

/-- A word of the user decode table comes through the port: a core that runs takes none and notes it (R243), and the port
refuses it (R249). -/
def State.portUdt (s : State) (g : Fin 8) (c : Fin 9) (off : Nat) (v : Word) : State :=
  let s1 := s.onCore (.sig g c) (fun k => writeUdtWord k off v)
  if (s.core (.sig g c)).isHalted then s1 else s1.portRefuse g

/-- UDT_HEADER_WRITE (R243, R244). -/
def execUdtHeaderWrite (g : Fin 8) (c : Fin 9) (idx : BitVec 4) (header : Word) (s : State) :
    Host.Outcome State Fault Refusal :=
  .next (s.portUdt g c (26 * idx.toNat) header)

/-! ### The core control port (R109, R243, R249, R263, R517) -/

/-- Levels L0 and L1 start at an entry (R120, R331). -/
def startLevel (c : Core) (lvl1 : Bool) (e : IAddr) : Core :=
  let c1 := onThread c (b2n lvl1) (fun t => { goTo t e with dslot := none, rep := none, micro := none })
  if lvl1 then { c1 with l1st := true, l1w := false, halted := false }
  else { c1 with l0st := true, l0w := false, halted := false }

/-- What the port does to a halted core. -/
def State.portWrite (s : State) (g : Fin 8) (c : Fin 9) (w : PortWrite) : State :=
  let r := CoreRef.sig g c
  match w with
  | .data a v => s.onCore r (fun k => writeData k a.toNat v)
  | .syllable a v => s.onCore r (fun k => { k with imem := k.imem.write a.toNat v })
  | .table t v e =>
    let x := e &&& 0x31FF
    (s.onCore r (fun k => putTbl k (1024 * t.val + v.toNat) x)).onGeode g.val (fun y =>
      { y with master := smPut y.master (masterIdx c.val t.val v.toNat) x })
  | .udtWord off v => s.portUdt g c off.toNat v
  | .sysReg n v =>
    if sysDefined .signal n.toNat != none && sysCoreLevel .signal n.toNat then
      s.onCore r (fun k => sysWrite false k 0 n.toNat v)
    else s
  | .bankReg l n v =>
    if !coreLevelReg .signal n && regHeld .signal l.val n then s.onCore r (fun k => regWrite k l.val v.toNat n) else s
  | .mailbox => s
  | .service b => s.onCore r (fun k => { k with svc := b })
  | .start l e => s.onCore r (fun k => startLevel k l e)

/-- CORE_CONTROL_PORT_WRITE: a halted core's memories, tables, registers and banks are written (R109, R249), a table entry
in the allocator's master copy too (R266); a write to a running core has no effect and is refused. The supervisor mailbox
raises line 1 of any core (R123). -/
def execCoreControlPortWrite (g : Fin 8) (c : Fin 9) (w : PortWrite) (s : State) : Host.Outcome State Fault Refusal :=
  .next (match w with
    | .mailbox => s.raise (.sig g c) 1
    | .udtWord off v => s.portUdt g c off.toNat v
    | w => if (s.core (.sig g c)).isHalted then s.portWrite g c w else s.portRefuse g)

end Sys2Proof.Machine
end

