-- ==== Sys2Proof/Machine/DmaOps.lean ====
section
/-! DEFINITION. The DMA engines' shared operations (chapter 9): channels and their control blocks (R282), the spaces
(R288), units and the holding register (R290, R291, R293), the chunk of a beat (R295), the choice of a channel (R296),
records (R300–R303) and the stops (R305–R309). -/

namespace Sys2Proof.Machine
open Sys2Proof

/-! ### Channels and engines -/

/-- The channels of an engine. -/
def State.chans (s : State) : Eng → List Chan
  | .geode g => (s.geode g.val).chans
  | .host => s.hub.chans
def State.chan (s : State) (e : Eng) (n : Nat) : Chan := (s.chans e).getD n {}

/-- Change one channel. -/
def State.onChan (s : State) (e : Eng) (n : Nat) (f : Chan → Chan) : State :=
  match e with
  | .geode g => s.onGeode g.val (fun x => { x with chans := modAt x.chans n f })
  | .host => s.onHub (fun h => { h with chans := modAt h.chans n f })

/-- Where the control block of a channel begins (R279, R281). -/
def ccbBase (e : Eng) (n : Nat) : Nat :=
  match e with
  | .geode _ => 32 * n
  | .host => 0x7F000 + 32 * n

/-- Words of the engine's program memory: the size of its space. -/
def engSize : Eng → Nat
  | .geode _ => 0x200000
  | .host => 0x80000

/-- A word of the engine's own memory is read: whether it was uncorrectable (R310); `res` is the frame whose results it
belongs to, where it is on its way to them (R271). -/
def State.engReadOf (s : State) (res : Option (U16 × U32)) (e : Eng) (a : Nat) : State × Word × Bool :=
  match e with
  | .geode g =>
    let r := s.shmReadOf res g.val a
    (r.1, r.2, (s.geode g.val).mem.unc.contains a)
  | .host =>
    let r := s.hubReadBy true a
    (r.1, r.2, s.hub.mem.unc.contains a)
def State.engRead (s : State) (e : Eng) (a : Nat) : State × Word × Bool := s.engReadOf none e a

/-- A word of the engine's own memory is written. -/
def State.engWrite (s : State) (e : Eng) (a : Nat) (v : Word) : State :=
  match e with
  | .geode g => s.shmWrite g.val a v
  | .host => s.hubWrite a v

/-- A run of words of the engine's memory. -/
def State.engReadList (s : State) (e : Eng) (as : List Nat) : State × List Word × Bool :=
  as.foldl (fun acc a =>
    let r := acc.1.engRead e a
    (r.1, acc.2.1 ++ [r.2.1], acc.2.2 || r.2.2)) (s, [], false)

/-- The code of STATE (R282). -/
def chCode : ChState → Nat
  | .idle => 0
  | .running => 1
  | .waiting => 2
  | .halted => 3
  | .stopped => 4
  | .blocked => 5

/-- The fields of a control block that the engine writes (R282). -/
inductive CcbField where
  | cqtail | state | pc | bused | done | hold | err
deriving DecidableEq, Repr

def ccbFields : List CcbField := [.cqtail, .state, .pc, .bused, .done, .hold, .err]

/-- The value of a field. -/
def ccbValue (c : Chan) : CcbField → Nat
  | .cqtail => c.cqtail.toNat
  | .state => chCode c.state
  | .pc => c.pc
  | .bused => c.bused
  | .done => c.done
  | .hold => c.nbits
  | .err => c.err.toNat

/-- The words that hold a field, with what they read once the engine has written them. -/
def ccbWords (c : Chan) : CcbField → List (Nat × Word)
  | .cqtail => [(11, c.cqtail)]
  | .state => [(24, BitVec.ofNat 14 (chCode c.state))]
  | .pc => [(25, BitVec.ofNat 14 c.pc)]
  | .bused => [(26, BitVec.ofNat 14 c.bused), (27, BitVec.ofNat 14 (c.bused / 2 ^ 14))]
  | .done => [(28, BitVec.ofNat 14 (c.done / 2 ^ 14 % 2 * 128 + c.nbits)), (29, BitVec.ofNat 14 c.done)]
  | .hold => [(28, BitVec.ofNat 14 (c.done / 2 ^ 14 % 2 * 128 + c.nbits))]
  | .err => [(30, c.err.setWidth 14)]

/-- The engine writes the fields that it updates into the control block: those that `upd` names, and those whose value has
changed (R282). -/
def State.syncCcb (s : State) (e : Eng) (n : Nat) (old : Chan) (upd : List CcbField) : State :=
  let c := s.chan e n
  ((ccbFields.filter (fun f => upd.contains f || ccbValue c f != ccbValue old f)).flatMap (ccbWords c)).foldl
    (fun st p => st.engWrite e (ccbBase e n + p.1) p.2) s

/-- Change a channel, and its control block with it; `upd` names the fields that are updated whatever their value. -/
def State.chanStepU (s : State) (e : Eng) (n : Nat) (upd : List CcbField) (f : Chan → Chan) : State :=
  (s.onChan e n f).syncCcb e n (s.chan e n) upd
def State.chanStep (s : State) (e : Eng) (n : Nat) (f : Chan → Chan) : State := s.chanStepU e n [] f

/-- The channel numbers that an engine has (R279). -/
def chanOk (e : Eng) (n : Nat) : Bool :=
  match e with
  | .geode _ => decide (n < 16)
  | .host => true

/-- The number by which the log names a geode, 0xFF for the hub. -/
def engGeode : Eng → Byte
  | .geode g => byteOf g.val
  | .host => 0xFF

/-! ### Units and the holding register (R290, R291, R293) -/

/-- Width of a unit in bits, and what a pointer advances by: words, or bytes of host memory. -/
def unitBits : Nat → Nat
  | 0 => 14
  | 1 => 28
  | 2 => 8
  | 3 => 16
  | _ => 32
def unitSpan : Nat → Nat
  | 0 => 1
  | 1 => 2
  | 2 => 1
  | 3 => 2
  | _ => 4

/-- A unit of `ws` bits converted to `wd` bits (R291, cv ≠ 00). -/
def extendUnit (cv ws wd v : Nat) : Nat :=
  if wd ≤ ws then v % 2 ^ wd
  else if cv = 1 ∧ v / 2 ^ (ws - 1) % 2 = 1 then v + (2 ^ wd - 2 ^ ws)
  else v

/-- Bits that one source unit puts into the holding register. -/
def feedBits (cv ws wd : Nat) : Nat := if cv = 0 then ws else wd

/-- The holding register after source units: value and bits. -/
def feed (cv ws wd : Nat) : Nat × Nat → List Nat → Nat × Nat
  | h, [] => h
  | (v, n), u :: us =>
    let x := if cv = 0 then u else extendUnit cv ws wd u
    feed cv ws wd (v + x * 2 ^ n, n + feedBits cv ws wd) us

/-- The first `k` units of `wd` bits in the holding register. -/
def wholeUnits (v wd k : Nat) : List Nat := (List.range k).map (fun i => v / 2 ^ (wd * i) % 2 ^ wd)

/-- SWP on a host unit (R293). -/
def swapUnit (swp v : Nat) : Nat :=
  match swp with
  | 1 => v % 256 * 256 + v / 256 % 256
  | 2 => v % 256 * 2 ^ 24 + v / 2 ^ 8 % 256 * 2 ^ 16 + v / 2 ^ 16 % 256 * 2 ^ 8 + v / 2 ^ 24 % 256
  | 3 => v % 2 ^ 16 * 2 ^ 16 + v / 2 ^ 16 % 2 ^ 16
  | _ => v

/-- Units as host bytes, and host bytes as units. -/
def unitsToBytes (u swp : Nat) (vs : List Nat) : List Byte := vs.flatMap (fun v => leBytes (unitSpan u) (swapUnit swp v))
def bytesToUnits (u swp : Nat) (bs : List Byte) : List Nat :=
  (List.range (bs.length / unitSpan u)).map (fun k => swapUnit swp (leAt bs (k * unitSpan u) (unitSpan u)))

/-! ### MOVE (R287, R288) -/

/-- The fields of a MOVE. -/
structure MvF where
  su : Nat
  du : Nat
  cv : Nat
  swp : Nat
  fin : Nat
  sm : Nat
  dm : Nat
  count : Nat
  sa : Nat
  da : Nat
  sskip : Int
  dskip : Int
deriving DecidableEq, Repr

/-- Field `len` bits from bit `lo`. -/
def dwField (d : DWord) (lo len : Nat) : Nat := d.toNat / 2 ^ lo % 2 ^ len

/-- Read the fields. -/
def mvOf (dws : List DWord) : MvF :=
  let a := dws.getD 0 0
  let k := dws.getD 4 0
  { su := dwField a 21 3, du := dwField a 18 3, cv := dwField a 16 2, swp := dwField a 14 2, fin := dwField a 12 2
    sm := dwField a 10 2, dm := dwField a 8 2, count := dwField (dws.getD 1 0) 0 14 + 1
    sa := (dws.getD 2 0).toNat, da := (dws.getD 3 0).toNat
    sskip := (BitVec.ofNat 14 (dwField k 14 14)).toInt, dskip := (BitVec.ofNat 14 (dwField k 0 14)).toInt }

/-- The space and address of an address field (R288). -/
def fieldSide (e : Eng) (hbase f : Nat) : DmaSpace × Nat :=
  match e with
  | .host => if f / 2 ^ 27 = 0 then (.hub, f % 2 ^ 19) else (.host, hbase * 2 ^ 27 + f % 2 ^ 27)
  | .geode _ =>
    match f / 2 ^ 24 with
    | 0 => (.shm, f % 2 ^ 21)
    | 1 => (.core (f / 2 ^ 20 % 16), f % 2 ^ 17)
    | 2 => (.glb, f % 2 ^ 24)
    | _ => (.dl, 0)

/-- The reserved bits of an address field are 0, and its space and slot exist (R288, R307 cause 2). -/
def fieldOk (e : Eng) (f : Nat) : Bool :=
  match e with
  | .host => if f / 2 ^ 27 = 0 then f / 2 ^ 19 == 0 else true
  | .geode _ =>
    match f / 2 ^ 24 with
    | 0 => f / 2 ^ 21 == 0
    | 1 => decide (f / 2 ^ 20 % 16 ≤ 8) && f / 2 ^ 17 % 8 == 0
    | 2 => true
    | 3 => f % 2 ^ 24 == 0
    | _ => false

/-- One side of a MOVE: its space, address, whether the address is fixed, and its unit. -/
structure Side where
  sp    : DmaSpace
  addr  : Nat
  fixed : Bool
  unit  : Nat
deriving DecidableEq, Repr

/-- The side of a MOVE whose pointers are set. -/
def sideOf (e : Eng) (c : Chan) (mode field unit : Nat) (sp : DmaSpace) (ptr : BitVec 64) : Side :=
  if mode = 2 then
    let f := fieldSide e c.hbase.toNat field
    { sp := f.1, addr := f.2, fixed := true, unit := unit }
  else { sp := sp, addr := ptr.toNat, fixed := false, unit := unit }
def srcSide (e : Eng) (c : Chan) (m : MvF) : Side := sideOf e c m.sm m.sa m.su c.sspace c.sptr
def dstSide (e : Eng) (c : Chan) (m : MvF) : Side := sideOf e c m.dm m.da m.du c.dspace c.dptr

/-- Words that unit `k` of a side in device memory takes. -/
def unitAt (d : Side) (k : Nat) : List Nat :=
  let a := if d.fixed then d.addr else d.addr + k * unitSpan d.unit
  if unitSpan d.unit = 1 then [a] else [a, a + 1]

/-- A word lies in its space and range (R288); DL takes words while its quad is in device-link mode. -/
def State.inSpace (s : State) (e : Eng) (sp : DmaSpace) (a : Nat) : Bool :=
  match sp with
  | .shm => decide (a < 0x200000)
  | .core _ => decide (a < 0x20000)
  | .glb => decide (0x800000 ≤ a) && decide (a < 0x888000)
  | .dl => match e with
    | .geode g => (s.quad g.val).dlMode
    | .host => false
  | .hub => decide (a < 0x80000)
  | .host => true

/-- The first `k` units of a side lie in its space. -/
def State.unitsInside (s : State) (e : Eng) (d : Side) (k : Nat) : Bool :=
  (List.range k).all (fun i => (unitAt d i).all (fun a => s.inSpace e d.sp a))

/-- Max_Payload_Size and Max_Read_Request_Size in bytes. -/
def mpsBytes (k : Link) : Nat := 128 * 2 ^ k.mps.toNat
def mrrsBytes (k : Link) : Nat := 128 * 2 ^ k.mrrs.toNat

/-- Units that one beat can move on a side (R294). A host unit that lies across a 4 KiB boundary is moved alone, in two TLPs
(log entry 145). -/
def sideLimit (l : Link) (read : Bool) (d : Side) : Nat :=
  let span := unitSpan d.unit
  match d.sp with
  | .host =>
    if d.fixed then 1
    else Nat.max 1 (Nat.min (if read then mrrsBytes l else mpsBytes l) (4096 - d.addr % 4096) / span)
  | .dl => 32 / span
  | .hub => if d.fixed then 128 / span else (128 - d.addr % 128 + span - 1) / span
  | _ => if d.fixed then 32 / span else (32 - d.addr % 32 + span - 1) / span

/-! ### Memory behind the spaces -/

/-- The core that a slot of the CORE space is now (R288, R311): 8 is the spare. -/
def slotCore (g : Geode) (slot : Nat) : Option Nat := if slot = 8 then g.spare else g.role[slot]?

/-- A DMA beat reads a core's data word (R280, R310): it never stops the core. -/
def State.dmaCoreRead (s : State) (g : Fin 8) (k a : Nat) : State × Word × Bool :=
  let r := 9 * g.val + k
  let c := s.coreAt r
  let m := if a < 0x10000 then c.x else c.y
  let b := a % 0x10000
  let v := smGet m.cells b
  if m.corr.contains b then
    (s.onCoreAt r (fun d =>
      let d1 := if a < 0x10000 then { d with x := d.x.corrected b } else { d with y := d.y.corrected b }
      { d1 with eccCorr := ctrAdd 16 d1.eccCorr 1 }), v, false)
  else if m.unc.contains b then
    ((s.onCoreAt r (fun d => { d with eccUnc := ctrAdd 16 d.eccUnc 1 })).log
      { kind := 0x10, geode := byteOf g.val, unit := byteOf k, a := if a < 0x10000 then 0 else 1, b := u32 b }, v, true)
  else (s, v, false)

/-- A word of a space is read. The spare slot of a geode without a spare reads a free value (log entry 28). -/
def State.dmaRead (s : State) (res : Option (U16 × U32)) (e : Eng) (sp : DmaSpace) (a : Nat) : State × Word × Bool :=
  match e, sp with
  | .geode g, .core slot =>
    match slotCore (s.geode g.val) slot with
    | some k => s.dmaCoreRead g k a
    | none => let r := s.fresh; (r.2, BitVec.ofNat 14 r.1, false)
  | .geode _, .glb =>
    if a < 0x880000 then
      let r := s.hubReadBy true (a - 0x800000)
      (r.1, r.2, s.hub.mem.unc.contains (a - 0x800000))
    else
      let r := s.glbRead a
      (r.1, r.2, false)
  | _, _ => s.engReadOf res e a

/-- A full block, or the partial block that SIGNAL closes, leaves on the next free lane (R384, R385): which one that is, the
device's timing decides, and so it is free (log entry 3). -/
def State.dlSend (s : State) (g ch : Nat) (ws : List Word) : State :=
  let q := s.quad g
  let r := s.fresh
  let l := r.1 % 4
  (r.2.emit (.codeword (4 * g + l) (dlPayload l (q.txSeq.getD ch 0) ch ws.length (q.txBcn.getD ch 0) ws))).onQuad g
    (fun x => { x with txSeq := modAt x.txSeq ch (· + 1) })

/-- A word for the device link (R385). -/
def State.dlPut (s : State) (g ch : Nat) (w : Word) : State :=
  let q := s.quad g
  if !q.dlup then
    (s.onQuad g (fun x => { x with dlDiscard := ctrAdd 16 x.dlDiscard 1 }))
  else
    let buf := q.tx.getD ch []
    let now := (s.geode g).beacon.getD 0
    let s1 := if buf.isEmpty then s.onQuad g (fun x => { x with txBcn := modAt x.txBcn ch (fun _ => now) }) else s
    let ws := buf ++ [w]
    if 360 ≤ ws.length then (s1.dlSend g ch ws).onQuad g (fun x => { x with tx := modAt x.tx ch (fun _ => []) })
    else s1.onQuad g (fun x => { x with tx := modAt x.tx ch (fun _ => ws) })

/-- A word of a space is written. -/
def State.dmaWrite (s : State) (e : Eng) (ch : Nat) (sp : DmaSpace) (a : Nat) (v : Word) : State :=
  match e, sp with
  | .geode g, .core slot =>
    match slotCore (s.geode g.val) slot with
    | some k => s.onCoreAt (9 * g.val + k) (fun c => writeData c a v)
    | none => s
  | .geode _, .glb => s.glbWrite a v
  | .geode g, .dl => s.dlPut g.val ch v
  | _, _ => s.engWrite e a v

/-- Read the first `k` units of a side. -/
def State.readUnits (s : State) (res : Option (U16 × U32)) (e : Eng) (d : Side) (k : Nat) : State × List Nat × Bool :=
  (List.range k).foldl (fun acc i =>
    let r := (unitAt d i).foldl (fun (x : State × Nat × Nat × Bool) a =>
      let q := x.1.dmaRead res e d.sp a
      (q.1, x.2.1 + q.2.1.toNat * 2 ^ x.2.2.1, x.2.2.1 + 14, x.2.2.2 || q.2.2)) (acc.1, 0, 0, acc.2.2)
    (r.1, acc.2.1 ++ [r.2.1], r.2.2.2)) (s, [], false)

/-- `n` host bytes from `a`, cut at a 4 KiB boundary (R294). -/
def hostPieces (a n : Nat) : List (Nat × Nat) :=
  let k := 4096 - a % 4096
  if n ≤ k then [(a, n)] else [(a, k), (a + k, n - k)]

/-- Units `from_`, `from_ + 1`, … of a side are written: device words, or one memory write to the host, which takes posted
credits and has Relaxed Ordering as Device Control enables it (R295, R304, R306). -/
def State.writeUnits (s : State) (e : Eng) (ch : Nat) (d : Side) (swp from_ : Nat) (vs : List Nat) : State :=
  match d.sp with
  | .host =>
    if vs.isEmpty then s
    else
      let bs := unitsToBytes d.unit swp vs
      let at_ := if d.fixed then d.addr else d.addr + from_ * unitSpan d.unit
      ((hostPieces at_ bs.length).foldl (fun t p =>
        t.emit (.hostWrite p.1 ((bs.drop (p.1 - at_)).take p.2) t.link.relaxed)) s).onLink
          (fun l => { l with credits := l.credits - bs.length })
  | _ =>
    (vs.zip (List.range vs.length)).foldl (fun st p =>
      ((unitAt d (from_ + p.2)).zip (List.range 2)).foldl (fun st2 q =>
        st2.dmaWrite e ch d.sp q.1 (BitVec.ofNat 14 (p.1 / 2 ^ (14 * q.2)))) st) s

/-! ### Requests of the geode engine (R255, R256, R260, R279) -/

/-- The engine reaches words of a space: a slot of requester 0xA for each row of shared memory, the device-global path for
the device-global window; none where it has to wait. -/
def State.claimSide (s : State) (e : Eng) (sp : DmaSpace) (as : List Nat) : Option State :=
  match e, sp with
  | .geode g, .shm =>
    ((as.map (· / 32)).eraseDups).foldl (fun acc row =>
      acc.bind (fun t => (claimSlot (t.geode g.val) 10 (row % 16)).map (fun y => t.onGeode g.val (fun _ => y)))) (some s)
  | .geode g, .glb => if as.isEmpty then some s else s.glbPass g.val (as.any (fun a => decide (a < 0x880000)))
  | _, _ => some s

/-- The bank-slot table gives the engine, requester 0xA, a slot in every bank; the host engine needs none (R255, R279). -/
def State.dmaSlots (s : State) : Eng → Bool
  | .geode g => (List.range 16).all (fun b => (List.range 16).any (fun col => bstAt (s.geode g.val).bst (16 * col + b) == 0xA#4))
  | .host => true

/-- The words of the first `k` units of a side. -/
def sideWords (d : Side) (k : Nat) : List Nat := (List.range k).flatMap (unitAt d)

/-- The words of the next record in device memory (R300, R301). -/
def recAddrs (c : Chan) : List Nat :=
  if c.cqloc then [] else (List.range 4).map (fun k => c.cqbase.toNat + 4 * c.cqtail.toNat + k)

/-- The slots of a record in device memory. -/
def State.claimRec (s : State) (e : Eng) (n : Nat) : Option State := s.claimSide e .shm (recAddrs (s.chan e n))

/-! ### The chunk of a beat (R295) -/

/-- What a beat would move: source units, whole units written, and whether the pad is written with them. -/
structure Chunk where
  take : Nat
  put  : Nat
  pad  : Bool
deriving DecidableEq, Repr

/-- Bits left after `m` source units and the writes that fit. -/
def leftBits (c : Chan) (m : MvF) (dlim k : Nat) : Nat :=
  let wd := unitBits m.du
  let total := c.nbits + k * feedBits m.cv (unitBits m.su) wd
  total - Nat.min (total / wd) dlim * wd

/-- The largest number of source units, from `k` down to 1, that leaves at most 64 bits; 0: a drain beat. -/
def largestTake (c : Chan) (m : MvF) (dlim : Nat) : Nat → Nat
  | 0 => 0
  | k + 1 => if leftBits c m dlim (k + 1) ≤ 64 then k + 1 else largestTake c m dlim k

/-- A beat that consumes `k` source units of a MOVE with `done` consumed before. -/
def chunkFor (l : Link) (e : Eng) (c : Chan) (m : MvF) (done k : Nat) : Chunk :=
  let wd := unitBits m.du
  let dlim := sideLimit l false (dstSide e c m)
  let total := c.nbits + k * feedBits m.cv (unitBits m.su) wd
  let put := Nat.min (total / wd) dlim
  let rest := total - put * wd
  { take := k, put := put
    pad := m.cv == 0 && m.fin == 1 && done + k == m.count && decide (0 < rest) && decide (rest < wd) && decide (put < dlim) }

/-- The chunk of the next beat of a MOVE with `done` units consumed. -/
def chunkOf (l : Link) (e : Eng) (c : Chan) (m : MvF) (done : Nat) : Chunk :=
  chunkFor l e c m done (largestTake c m (sideLimit l false (dstSide e c m))
    (Nat.min (sideLimit l true (srcSide e c m)) (m.count - done)))

/-- Units written by a chunk, its pad with them. -/
def Chunk.outs (q : Chunk) : Nat := q.put + b2n q.pad

/-- The channel as it stands once the reads under way have gone through it: what its next read is measured by (R295). -/
def aheadOf (l : Link) (c : Chan) (m : MvF) : Chan :=
  c.reads.foldl (fun d r =>
    let q := chunkFor l .host d m d.done r.take
    let wd := unitBits m.du
    { d with
      sptr := if m.sm = 2 then d.sptr else d.sptr + BitVec.ofNat 64 (r.take * unitSpan m.su)
      dptr := if m.dm = 2 then d.dptr else d.dptr + BitVec.ofNat 64 (q.outs * unitSpan m.du)
      nbits := if q.pad then 0 else d.nbits + r.take * feedBits m.cv (unitBits m.su) wd - q.put * wd
      done := d.done + r.take }) c

/-! ### The next beat and the choice of a channel (R294, R296) -/

/-- The kinds of beat. -/
inductive BeatKind where
  | data | drain | hostRead | loop | endl | wait | signal | recBeat | halt | record
deriving DecidableEq, Repr

/-- The fetched instruction's OP. -/
def opCode (i : List DWord) : Nat := dwField (i.getD 0 0) 24 4

/-- A MOVE begins: absolute pointers are set, an extend mode discards kept bits, DONE is 0 (R282, R289, R291). -/
def beginMove (e : Eng) (c : Chan) (i : List DWord) : Chan :=
  match c.move with
  | some _ => c
  | none =>
    let m := mvOf i
    let s := fieldSide e c.hbase.toNat m.sa
    let d := fieldSide e c.hbase.toNat m.da
    { c with
      move := some {}
      done := 0
      sptr := if m.sm = 1 then BitVec.ofNat 64 s.2 else c.sptr
      sspace := if m.sm = 1 then s.1 else c.sspace
      dptr := if m.dm = 1 then BitVec.ofNat 64 d.2 else c.dptr
      dspace := if m.dm = 1 then d.1 else c.dspace
      hold := if m.cv = 0 then c.hold else 0
      nbits := if m.cv = 0 then c.nbits else 0 }

/-- The channel as its next beat finds it. -/
def atBeat (e : Eng) (c : Chan) : Chan :=
  match c.instr with
  | some i => if c.owes.isNone && opCode i == 1 then beginMove e c i else c
  | none => c

/-- The latch that WAIT names is set (R298). -/
def latchSet (c : Chan) (i : List DWord) : Bool := bitOf c.latch (dwField (i.getD 0 0) 0 4)

/-- A beat that would exceed BUDGET does not issue (R305). -/
def overBudget (c : Chan) : Bool := c.budget != 0 && decide (c.budget.toNat < c.bused + 1)

/-- The channel has to have its reads back before its next beat: one has failed (R306), the next beat would exceed BUDGET,
or a DISABLE waits for them (R308). -/
def awaitsReads (c : Chan) : Bool :=
  c.stopDue || (!c.reads.isEmpty && (overBudget c ||
    c.reads.any (fun r => match r.got with | some (.failed _) => true | _ => false)))

/-- The kind of a channel's next beat: none while it has none. -/
def nextBeat (l : Link) (e : Eng) (c : Chan) : Option BeatKind :=
  if awaitsReads c || !(c.state == .running || c.state == .waiting) then none
  else if c.owes.isSome then some .record
  else match c.instr with
    | none => none
    | some i =>
      match opCode i with
      | 1 =>
        let m := mvOf i
        let b := aheadOf l (beginMove e c i) m
        let k := chunkOf l e b m b.done
        if k.take = 0 then (if c.reads.isEmpty then some .drain else none)
        else if (srcSide e b m).sp = .host then some .hostRead else some .data
      | 2 => some .loop
      | 3 => some .endl
      | 4 => if latchSet c i then some .wait else none
      | 5 => some .signal
      | 6 => some .recBeat
      | 7 => some .halt
      | _ => none

/-- The next beat appends a record. -/
def needsSlot (c : Chan) : Option BeatKind → Bool
  | some .record => true
  | some .recBeat => true
  | some .halt => match c.instr with
    | some i => dwField (i.getD 0 0) 14 1 == 1
    | none => false
  | _ => false

/-- Host bytes that the next beat writes. -/
def beatBytes (l : Link) (e : Eng) (c : Chan) (k : Option BeatKind) : Nat :=
  if needsSlot c k then (if c.cqloc then 16 else 0)
  else match k, c.instr with
    | some .data, some i | some .drain, some i =>
      let b := beginMove e c i
      let m := mvOf i
      if (dstSide e b m).sp = .host then
        let q := chunkOf l e b m b.done
        q.outs * unitSpan m.du
      else 0
    | _, _ => 0

/-- Reads of host memory that are outstanding in the host engine (R295). -/
def State.readsOut (s : State) : Nat := (s.hub.chans.map (fun c => (c.reads.filter (fun r => r.got.isNone)).length)).sum

/-- The channel is ready (R296): its next beat can issue; a host read waits for the engine's 256 reads and for a credit,
host writes for credits and for the space of the function's reply ring. A data beat without a link issues, to fail
(R306). -/
def State.chReady (s : State) (e : Eng) (c : Chan) : Bool :=
  let k := nextBeat s.link e c
  let n := beatBytes s.link e c k
  k.isSome && !(needsSlot c k && queueFull c) &&
    (k != some .hostRead || s.link.gen == 0 || (decide (s.readsOut < 256) && decide (0 < s.link.npCredits))) &&
    (n == 0 || (s.link.gen == 0 && !needsSlot c k) ||
      (decide (n ≤ s.link.credits) && !(s.fn c.fn.toNat).rrfull))

/-- The channel that the engine gives the beat to: highest PRI, round-robin among equals (R296). -/
def State.engineWinner (s : State) (e : Eng) : Option Nat :=
  let cs := s.chans e
  let last := match e with
    | .geode g => (s.geode g.val).lastCh
    | .host => s.hub.lastCh
  [3, 2, 1, 0].findSome? (fun p =>
    let start := last.getD p 0 + 1
    ((List.range cs.length).map (fun k => (start + k) % cs.length)).find? (fun n =>
      match cs[n]? with
      | some c => c.pri.toNat == p && s.chReady e c
      | none => false))

/-- The engine gives its beat to this channel, and that beat is of this kind. -/
def State.wins (s : State) (e : Eng) (n : Nat) (k : BeatKind) : Bool :=
  chanOk e n && nextBeat s.link e (s.chan e n) == some k && s.engineWinner e == some n

/-- A channel has been served: its turn, and DMA_BEATS (R296, R300). -/
def State.served (s : State) (e : Eng) (n : Nat) : State :=
  let p := (s.chan e n).pri.toNat
  match e with
  | .geode g =>
    let old := (s.geode g.val).dmaBeats
    (s.onGeode g.val (fun x =>
      { x with lastCh := modAt x.lastCh p (fun _ => n), dmaBeats := ctrAdd 48 x.dmaBeats 1 })).counterStuck
      (2 + g.val) 3 old (ctrAdd 48 old 1)
  | .host =>
    let old := s.hub.dmaBeats
    (s.onHub (fun h =>
      { h with lastCh := modAt h.lastCh p (fun _ => n), dmaBeats := ctrAdd 48 h.dmaBeats 1 })).counterStuck
      0 13 old (ctrAdd 48 old 1)

/-! ### Records (R300–R303) -/

/-- The four words of a record (R301). -/
def recWords (n : Nat) (ecc : Bool) (r : ChRec) : List Word :=
  [BitVec.ofNat 14 (r.kind.toNat * 2 ^ 10 + n * 32 + b2n ecc * 16 + b2n r.fl * 8 + b2n r.ds * 4 + b2n r.mv * 2 + r.b / 2 ^ 14 % 2),
   r.tag, BitVec.ofNat 14 r.a, BitVec.ofNat 14 r.b]

/-- The 16 bytes of a host record (R303). -/
def recBytes (n : Nat) (ecc phase : Bool) (bcn : U32) (r : ChRec) : List Byte :=
  (recWords n ecc r).flatMap (fun w => leBytes 2 w.toNat) ++ leBytes 4 bcn.toNat ++ [0, 0, 0, byteOf (b2n phase)]

/-- Write a record into the slot at CQTAIL and move CQTAIL on (R300, R303, R304: Relaxed Ordering clear). -/
def State.appendRec (s : State) (e : Eng) (n : Nat) (r : ChRec) : State :=
  let c := s.chan e n
  let slot := c.cqtail.toNat
  let next := (slot + 1) % Nat.max 1 c.cqlen.toNat
  let s1 :=
    if c.cqloc then
      let bs := recBytes n c.ecc c.phase s.beaconNow r
      (s.emit (.hostWrite (c.hbase.toNat * 2 ^ 27 + c.hqoff.toNat + 16 * slot) bs false)).onLink
        (fun l => { l with credits := l.credits - 16 })
    else
      ((recWords n c.ecc r).zip (List.range 4)).foldl
        (fun st p => st.engWrite e (c.cqbase.toNat + 4 * slot + p.2) p.1) s
  s1.chanStepU e n [.cqtail] (fun d =>
    { d with cqtail := BitVec.ofNat 14 next, phase := if next = 0 then !d.phase else d.phase, ecc := false })

/-! ### Stops (R305–R309) -/

/-- The channel owes a record and stops with it. -/
def State.owe (s : State) (e : Eng) (n : Nat) (r : ChRec) : State :=
  s.chanStep e n (fun c => { c with owes := some r, thenSt := .stopped, reads := [], state := .running })

/-- Beat indices above 16,383 are reported as 16,383 (R302). -/
def beatIdx (k : Nat) : Nat := Nat.min k 16383

/-- The index and DONE of the beat that a channel is about to make. -/
def failAt (c : Chan) : Nat × Nat :=
  match c.move with
  | some m => (beatIdx m.beat, c.done)
  | none => (0, 0)

/-- A target error at beat index `k` (R306): logged, and a TARGET record owed. -/
def State.targetError (s : State) (e : Eng) (n : Nat) (cause : BitVec 4) (k : Nat) : State :=
  let c := s.chan e n
  let host := cause != 5
  let job := match e with
    | .geode g => s.jobOn g.val
    | .host => none
  let s1 := s.log
    { kind := if host then 0x12 else 0x11
      fn := match e, job with
        | .host, _ => byteOf c.fn.toNat
        | _, some j => byteOf j.fn
        | _, none => 0xFF
      job := match job with | some j => j.id | none => 0
      geode := engGeode e, unit := byteOf n, a := cause.setWidth 32, b := u32 (beatIdx k) }
  s1.owe e n { kind := 4, tag := cause.setWidth 14, a := beatIdx k, b := c.done, mv := true }

/-- The channel owes a BUDGET record (R305). -/
def State.budgetStop (s : State) (e : Eng) (n : Nat) : State :=
  let c := s.chan e n
  let f := failAt c
  s.owe e n { kind := 3, tag := 0, a := f.1, b := f.2, mv := c.move.isSome }

/-- Why the data beat that a channel is about to make fails (R306): cause 5 or 6. -/
def State.beatCause (s : State) (e : Eng) (n : Nat) : Option (BitVec 4) :=
  let c := s.chan e n
  match c.instr with
  | none => none
  | some i =>
    if opCode i != 1 then none
    else
      let m := mvOf i
      let b := aheadOf s.link c m
      let q := chunkOf s.link e b m b.done
      let src := srcSide e b m
      let dst := dstSide e b m
      if !((src.sp == DmaSpace.host || s.unitsInside e src q.take) && s.unitsInside e dst q.outs) then some 5
      else if (dst.sp == DmaSpace.host || src.sp == DmaSpace.host) && s.link.gen == 0 then some 6
      else none

/-- The requests of the beat that a channel is about to make (R295, R296): the device as they leave it, none while one has
to wait for its slot. -/
def State.beatClaim (s : State) (e : Eng) (n : Nat) : Option State :=
  let c := s.chan e n
  match c.instr with
  | none => some s
  | some i =>
    if opCode i == 1 then
      let m := mvOf i
      let q := chunkOf s.link e c m c.done
      (s.claimSide e (srcSide e c m).sp (sideWords (srcSide e c m) q.take)).bind (fun t =>
        t.claimSide e (dstSide e c m).sp (sideWords (dstSide e c m) q.outs))
    else if opCode i == 6 || (opCode i == 7 && dwField (i.getD 0 0) 14 1 == 1) then s.claimRec e n
    else some s

/-- A beat of a MOVE whose target fails (R306): behind reads under way the failure waits its turn. -/
def State.failBeat (s : State) (e : Eng) (n : Nat) (k : BitVec 4) : State :=
  let c := s.chan e n
  let at_ := (failAt c).1
  if c.reads.isEmpty then s.targetError e n k at_
  else s.onChan e n (fun d => { d with reads := d.reads ++ [{ take := 0, beat := at_, got := some (.failed k) }] })

/-- A beat that counts in BUSED issues: `go`, unless BUDGET refuses it (R305), its target fails (R306), or a request of it
has to wait. -/
def State.beat (s : State) (e : Eng) (n : Nat) (go : State → State) : State :=
  let old := s.chan e n
  let begins := match old.instr with | some i => opCode i == 1 && old.move.isNone | none => false
  let s1 := s.chanStepU e n (if begins then [.done, .hold] else []) (atBeat e)
  if overBudget (s1.chan e n) then s1.budgetStop e n
  else match s1.beatCause e n with
    | some k => s1.failBeat e n k
    | none =>
      match s1.beatClaim e n with
      | none => s
      | some s2 => go ((s2.served e n).chanStepU e n [.bused] (fun c => { c with bused := c.bused + 1 }))

/-- PC past an instruction of `k` double words (R284). -/
def pcPast (c : Chan) (k : Nat) : Nat := (c.pc + k) % Nat.max 1 c.plen.toNat

/-- The instruction is done: the next one is fetched. -/
def doneInstr (c : Chan) (k : Nat) : Chan := { c with instr := none, move := none, pc := pcPast c k, state := .running }

/-- A pointer after a skip of `k` units. -/
def skipPtr (p : BitVec 64) (unit : Nat) (k : Int) : BitVec 64 := p + BitVec.ofInt 64 (k * Int.ofNat (unitSpan unit))

/-- What a MOVE is after its units have moved: pointers, holding register, DONE, and its end (R289, R295). -/
def moveAfter (c : Chan) (m : MvF) (take put : Nat) (hold nbits : Nat) : Chan :=
  let c1 := { c with
    sptr := if m.sm = 2 then c.sptr else c.sptr + BitVec.ofNat 64 (take * unitSpan m.su)
    dptr := if m.dm = 2 then c.dptr else c.dptr + BitVec.ofNat 64 (put * unitSpan m.du)
    hold := BitVec.ofNat 64 hold, nbits := nbits, done := c.done + take
    move := c.move.map (fun x => { x with done := c.done + take }) }
  let wd := unitBits m.du
  if c1.done = m.count ∧ nbits < wd ∧ ¬(m.cv = 0 ∧ m.fin = 1 ∧ 0 < nbits) then
    let drop := m.cv == 0 && m.fin == 2
    doneInstr { c1 with
      sptr := if m.sm = 2 then c1.sptr else skipPtr c1.sptr m.su m.sskip
      dptr := if m.dm = 2 then c1.dptr else skipPtr c1.dptr m.du m.dskip
      hold := if drop then 0 else c1.hold, nbits := if drop then 0 else nbits } 5
  else c1

/-- Put units that have come from the source through the holding register, and write what fits (R291, R295); the first
`early` units of the destination have been written before. -/
def State.moveUnits (s : State) (e : Eng) (n : Nat) (m : MvF) (us : List Nat) (q : Chunk) (early : Nat) (bad : Bool) : State :=
  let c := s.chan e n
  let wd := unitBits m.du
  let h := feed m.cv (unitBits m.su) wd (c.hold.toNat, c.nbits) us
  let put := wholeUnits h.1 wd q.put
  let rest := (h.1 / 2 ^ (wd * q.put), h.2 - wd * q.put)
  let outs := if q.pad then put ++ [rest.1] else put
  let left := if q.pad then (0, 0) else rest
  (s.writeUnits e n (dstSide e c m) m.swp early (outs.drop early)).chanStepU e n [.done, .hold] (fun d =>
    moveAfter { d with ecc := d.ecc || bad } m us.length outs.length left.1 left.2)

/-- One more data beat of the MOVE has issued. -/
def countBeat (c : Chan) : Chan := { c with move := c.move.map (fun x => { x with beat := x.beat + 1 }) }

/-- The frame whose results a MOVE stages: its destination lies in the staging area (R33, R346). -/
def State.stagesFor (s : State) (d : Side) : Option (U16 × U32) :=
  match d.sp with
  | .glb =>
    if 0x840000 ≤ d.addr ∧ d.addr < 0x878000 then (s.stagedAt (d.addr - 0x800000)).map (fun r => (r.1, r.2.2)) else none
  | _ => none

/-- A data beat or drain beat with its source in device memory (R295): the whole units that the holding register holds are
written to device memory before the chunk is read. -/
def State.moveBeat (s : State) (e : Eng) (n : Nat) : State :=
  let c := s.chan e n
  match c.instr with
  | none => s
  | some i =>
    let m := mvOf i
    let q := chunkOf s.link e c m c.done
    let dst := dstSide e c m
    let wd := unitBits m.du
    let early := if dst.sp = .host then 0 else Nat.min (c.nbits / wd) q.put
    let s1 := (s.chanStep e n countBeat).writeUnits e n dst m.swp 0 (wholeUnits c.hold.toNat wd early)
    let r := s1.readUnits (s.stagesFor dst) e (srcSide e c m) q.take
    r.1.moveUnits e n m r.2.1 q early r.2.2

/-- A data beat that reads host memory (R295): its request leaves, in two where it crosses a 4 KiB boundary. -/
def State.hostReadBeat (s : State) (n : Nat) : State :=
  let c := s.chan .host n
  match c.instr with
  | none => s
  | some i =>
    let m := mvOf i
    let b := aheadOf s.link c m
    let q := chunkOf s.link .host b m b.done
    let ps := hostPieces (srcSide .host b m).addr (q.take * unitSpan m.su)
    ((ps.foldl (fun t p => t.emit (.hostRead p.1 p.2)) s).onLink (fun l => { l with npCredits := l.npCredits - ps.length })).chanStep
      .host n (fun d => { countBeat d with reads := d.reads ++ [{ take := q.take, beat := (failAt c).1 }] })

/-- A stop by command, lode switch, or function reset (R308, R309, R311): whole units of a MOVE under way are flushed
or discarded, partial bits discarded; the record is appended, in a record beat, where the queue has room, and ERR tells (R300, R308). -/
def State.dmaStop (s : State) (e : Eng) (n : Nat) (cause : Nat) : State :=
  let c := s.chan e n
  let flush := match c.move, c.instr with
    | some _, some i =>
      let m := mvOf i
      let wd := unitBits m.du
      let d := dstSide e c m
      let us := wholeUnits c.hold.toNat wd (c.nbits / wd)
      let ok := fun (k : Nat) => (unitAt d k).all (fun a => s.inSpace e d.sp a) && !(d.sp == DmaSpace.host && (cause == 2 || s.link.gen == 0))
      let k := ((List.range us.length).takeWhile ok).length
      (k, c.nbits - k * wd, s.writeUnits e n d m.swp 0 (us.take k))
    | _, _ => (0, c.nbits, s)
  let s1 := flush.2.2
  let full := queueFull c
  let skip := full || (cause == 2 && c.cqloc)
  let r : ChRec := { kind := 6, tag := BitVec.ofNat 14 cause, a := flush.1, b := flush.2.1, mv := c.move.isSome
                     fl := decide (0 < flush.1), ds := decide (0 < flush.2.1) }
  let s2 := if skip then s1 else (s1.served e n).appendRec e n r
  s2.chanStepU e n [.state] (fun d =>
    { d with state := .stopped, owes := none, instr := none, move := none, reads := [], stopDue := false
             err := if full then 4 else if cause = 0 then 0 else d.err })

/-- The channel is running, waiting or blocked. -/
def chBusy (c : Chan) : Bool := c.state == .running || c.state == .waiting || c.state == .blocked

/-- Every busy channel of an engine that `p` names stops (R309, R311). -/
def State.dmaStopAll (s : State) (e : Eng) (cause : Nat) (p : Chan → Bool) : State :=
  (List.range (s.chans e).length).foldl (fun st n =>
    if chBusy (st.chan e n) && p (st.chan e n) then st.dmaStop e n cause else st) s

/-- A beacon arrives at the engine: BUSED is 0, the beacon latch is set (R298, R305). -/
def State.dmaBeacon (s : State) (e : Eng) : State :=
  (List.range (s.chans e).length).foldl (fun st n =>
    st.chanStepU e n [.bused] (fun c => { c with bused := 0, latch := c.latch ||| 0x100 })) s

/-! ### START's checks and the fetch check (R283, R307) -/

/-- The channel as START sets it from words 0 to 23 of its control block. -/
def chanOf (e : Eng) (w : List Word) : Chan :=
  let g := fun (k : Nat) => (w.getD k 0).toNat
  { state := .running, pri := BitVec.ofNat 2 (g 1 / 2 ^ 12), cqloc := g 1 / 2 ^ 11 % 2 == 1, fn := BitVec.ofNat 3 (g 1 / 2 ^ 8)
    pbase := BitVec.ofNat 28 (g 2 + g 3 * 2 ^ 14), plen := BitVec.ofNat 14 (g 4)
    budget := BitVec.ofNat 28 (g 5 + g 6 * 2 ^ 14), cqbase := BitVec.ofNat 28 (g 7 + g 8 * 2 ^ 14)
    cqlen := BitVec.ofNat 14 (g 9), cqhead := BitVec.ofNat 14 (g 10), cqtail := BitVec.ofNat 14 (g 10)
    hbase := BitVec.ofNat 37 (g 12 + g 13 * 2 ^ 14 + g 14 % 512 * 2 ^ 28)
    hqoff := BitVec.ofNat 28 (g 15 + g 16 * 2 ^ 14), phase := true
    sspace := match e with | .host => .hub | .geode _ => .shm
    dspace := match e with | .host => .hub | .geode _ => .shm }

/-- START's checks hold (R283). -/
def startOk (e : Eng) (w : List Word) : Bool :=
  let g := fun (k : Nat) => (w.getD k 0).toNat
  let c := chanOf e w
  let size := engSize e
  g 0 / 8 == 0 && (List.range 7).all (fun k => g (17 + k) == 0) && g 1 % 256 == 0 &&
  c.pbase.toNat % 2 == 0 && c.plen != 0 && decide (2 ≤ c.cqlen.toNat) && decide (c.cqlen.toNat ≤ 4096) &&
  decide (c.cqhead.toNat < c.cqlen.toNat) && decide (c.pbase.toNat + 2 * c.plen.toNat ≤ size) &&
  (match e with
   | .geode _ =>
     !c.cqloc && c.fn == 0 && (List.range 5).all (fun k => g (12 + k) == 0) &&
       decide (c.cqbase.toNat + 4 * c.cqlen.toNat ≤ size)
   | .host =>
     g 14 / 512 == 0 && c.hqoff.toNat % 16 == 0 && decide (c.hqoff.toNat < 2 ^ 27) &&
       (if c.cqloc then decide (c.hqoff.toNat + 16 * c.cqlen.toNat ≤ 2 ^ 27)
        else decide (c.cqbase.toNat + 4 * c.cqlen.toNat ≤ size)))

/-- Length of an instruction in double words (R285). -/
def instrLen (i : DWord) : Nat := if dwField i 24 4 = 1 then 5 else 1

/-- Reserved fields of an instruction (R307 cause 2). -/
def fieldsBad (e : Eng) (i : List DWord) : Bool :=
  let d := i.getD 0 0
  match opCode i with
  | 1 =>
    let m := mvOf i
    dwField d 0 8 != 0 || decide (4 < m.su) || decide (4 < m.du) || m.cv == 3 || m.fin == 3 || m.sm == 3 || m.dm == 3 ||
      dwField (i.getD 1 0) 14 14 != 0 || (m.sm != 0 && !fieldOk e m.sa) || (m.dm != 0 && !fieldOk e m.da)
  | 2 => dwField d 14 10 != 0
  | 3 => dwField d 0 24 != 0
  | 4 => decide (8 < dwField d 0 4) || dwField d 4 20 != 0
  | 5 => dwField d 0 24 != 0
  | 6 => dwField d 14 10 != 0
  | 7 => dwField d 15 9 != 0
  | _ => false

/-- Units on their spaces (R288, R290, R307 cause 3). -/
def unitsBad (e : Eng) (c : Chan) (i : List DWord) : Bool :=
  if opCode i != 1 then false
  else
    let m := mvOf i
    let sp := fun (mode field : Nat) (cur : DmaSpace) => if mode = 0 then cur else (fieldSide e c.hbase.toNat field).1
    let a := sp m.sm m.sa c.sspace
    let b := sp m.dm m.da c.dspace
    let fits := fun (x : DmaSpace) (u : Nat) => if x = DmaSpace.host then decide (2 ≤ u) else decide (u < 2)
    !(fits a m.su && fits b m.du) || a == DmaSpace.dl ||
      (match e with
       | .host => (a == DmaSpace.host) == (b == DmaSpace.host)
       | .geode _ => false)

/-- SWP (R293, R307 cause 4). -/
def swpBad (e : Eng) (i : List DWord) : Bool :=
  if opCode i != 1 then false
  else
    let m := mvOf i
    match e with
    | .geode _ => m.swp != 0
    | .host =>
      let u := if 2 ≤ m.su then m.su else m.du
      (m.swp == 1 && u != 3) || (decide (2 ≤ m.swp) && u != 4)

/-- Loop levels (R286, R307 cause 5). -/
def loopBad (c : Chan) (i : List DWord) : Bool :=
  (opCode i == 2 && decide (2 ≤ c.loops.length)) || (opCode i == 3 && c.loops.isEmpty)

/-- The lowest-numbered cause for which an instruction fails its check (R307). -/
def programCause (e : Eng) (c : Chan) (i : List DWord) : Option Nat :=
  if opCode i = 0 ∨ 8 ≤ opCode i then some 1
  else if fieldsBad e i then some 2
  else if unitsBad e c i then some 3
  else if swpBad e i then some 4
  else if loopBad c i then some 5
  else none

end Sys2Proof.Machine
end

