-- ==== Sys2Proof/Machine/Dma.lean ====
section
/-! DEFINITION. The DMA channels' commands (chapter 9): START, DISABLE and CQHEAD as the engine takes them, fetch, the
beats, and what comes back from the host. A beat's command acts where the engine would give its beat to that channel
(R296) and the beat is of that kind; else it changes nothing. -/

namespace Sys2Proof.Machine
open Sys2Proof

/-- CMD of a channel's control block (R282). -/
def State.ccbCmd (s : State) (e : Eng) (n : Nat) : Nat :=
  (match e with
   | .geode g => smGet (s.geode g.val).mem.cells (ccbBase e n)
   | .host => smGet s.hub.mem.cells (ccbBase e n)).toNat % 8

/-- A command has been accepted: CMD is 0, ERR shows its result (R283). -/
def State.cmdDone (s : State) (e : Eng) (n : Nat) (err : BitVec 4) : State :=
  let r := s.engRead e (ccbBase e n)
  let s1 := (r.1.engWrite e (ccbBase e n) (r.2.1 &&& 0x3FF8)).onChan e n (fun c => { c with err := err })
  s1.engWrite e (ccbBase e n + 30) (err.setWidth 14)

/-- The engine takes a START (R283); an error that no record has shown yet stays for the next one (R301). -/
def State.dmaStart (s : State) (e : Eng) (n : Nat) : State :=
  if chBusy (s.chan e n) then s.cmdDone e n 1
  else
    let r := s.engReadList e ((List.range 24).map (fun k => ccbBase e n + k))
    if startOk e r.2.1 then
      let old := r.1.chan e n
      let s1 := r.1.onChan e n (fun _ => { chanOf e r.2.1 with ecc := old.ecc })
      (s1.syncCcb e n old ccbFields).cmdDone e n 0
    else r.1.cmdDone e n 2

/-- START (R283). -/
def execStart (e : Eng) (n : Fin 32) (s : State) : Host.Outcome State Fault Refusal :=
  .next (if !chanOk e n.val || s.ccbCmd e n.val != 1 then s else s.dmaStart e n.val)

/-- DISABLE (R283, R308): a channel with reads under way stops once they are back, at the end of its beat. -/
def execDisable (e : Eng) (n : Fin 32) (s : State) : Host.Outcome State Fault Refusal :=
  .next (if !chanOk e n.val || s.ccbCmd e n.val != 2 then s
    else if chBusy (s.chan e n.val) && !(s.chan e n.val).reads.isEmpty then
      (s.onChan e n.val (fun c => { c with stopDue := true })).cmdDone e n.val 0
    else if chBusy (s.chan e n.val) then
      let s1 := s.dmaStop e n.val 0
      s1.cmdDone e n.val (s1.chan e n.val).err
    else s.cmdDone e n.val 0)

/-- A reserved CMD value (R283). -/
def execDmaCommandReserved (e : Eng) (n : Fin 32) (cmd : BitVec 3) (s : State) : Host.Outcome State Fault Refusal :=
  .next (if !chanOk e n.val || cmd.toNat < 3 || s.ccbCmd e n.val != cmd.toNat then s else s.cmdDone e n.val 3)

/-- CQHEAD is written (R283, R300): a store into word 10 of the control block, which the engine reads (`headWritten`). -/
def execCqheadWrite (e : Eng) (n : Fin 32) (v : Word) (s : State) : Host.Outcome State Fault Refusal :=
  .next (if !chanOk e n.val then s else s.engWrite e (ccbBase e n.val + 10) v)

/-- The addresses of `k` double words of the program from PC, which wraps in the region (R284). -/
def programAt (c : Chan) (k : Nat) : List Nat :=
  (List.range k).flatMap (fun i =>
    let d := c.pbase.toNat + 2 * ((c.pc + i) % Nat.max 1 c.plen.toNat)
    [d, d + 1])

/-- Words as double words. -/
def pairUp : List Word → List DWord
  | a :: b :: rest => (b ++ a) :: pairUp rest
  | _ => []

/-- The words of an instruction are read: it and whether one was uncorrectable; none while a row of it waits for its slot
(R256, R284). -/
def State.fetchInstr (s : State) (e : Eng) (c : Chan) : Option (State × List DWord × Bool) :=
  (s.claimSide e .shm (programAt c 1)).bind (fun s1 =>
    let a := s1.engReadList e (programAt c 1)
    let rest := (programAt c (instrLen ((pairUp a.2.1).getD 0 0))).drop 2
    let far := rest.filter (fun w => !((programAt c 1).map (· / 32)).contains (w / 32))
    (a.1.claimSide e .shm far).map (fun s2 =>
      let b := s2.engReadList e rest
      (b.1, pairUp (a.2.1 ++ b.2.1), a.2.2 || b.2.2)))

/-- DMA_INSTRUCTION_FETCH (R284, R307): the instruction at PC arrives and is checked. -/
def execDmaInstructionFetch (e : Eng) (n : Fin 32) (s : State) : Host.Outcome State Fault Refusal :=
  let c := s.chan e n.val
  .next (if !chanOk e n.val || c.state != .running || c.instr.isSome || c.owes.isSome then s
    else match s.fetchInstr e c with
      | none => s
      | some (t, i, bad) =>
        match programCause e c i with
        | none => t.chanStep e n.val (fun d => { d with instr := some i, ecc := d.ecc || bad })
        | some k => (t.chanStep e n.val (fun d => { d with ecc := d.ecc || bad })).owe e n.val
            { kind := 5, tag := BitVec.ofNat 14 k, a := c.pc, b := 0, mv := false })

/-- MOVE (R287–R295): a data beat, or the read request of one whose source is host memory. -/
def execMove (e : Eng) (n : Fin 32) (s : State) : Host.Outcome State Fault Refusal :=
  .next (if s.wins e n.val .data then s.beat e n.val (fun t => t.moveBeat e n.val)
    else if s.wins e n.val .hostRead then s.beat e n.val (fun t => t.hostReadBeat n.val)
    else s)

/-- DRAIN_BEAT (R295). -/
def execDrainBeat (e : Eng) (n : Fin 32) (s : State) : Host.Outcome State Fault Refusal :=
  .next (if s.wins e n.val .drain then s.beat e n.val (fun t => t.moveBeat e n.val) else s)

/-- LOOP pushes a level (R286). -/
def loopPush (c : Chan) : Chan :=
  let k := match c.instr with | some i => dwField (i.getD 0 0) 0 14 + 1 | none => 1
  let d := doneInstr c 1
  { d with loops := (k, d.pc) :: d.loops }

/-- ENDL counts the innermost level down (R286). -/
def loopPop (c : Chan) : Chan :=
  match c.loops with
  | [] => doneInstr c 1
  | (k, p) :: rest =>
    if 1 < k then { doneInstr c 1 with loops := (k - 1, p) :: rest, pc := p }
    else { doneInstr c 1 with loops := rest }

/-- DMA_LOOP (R286). -/
def execDmaLoop (e : Eng) (n : Fin 32) (s : State) : Host.Outcome State Fault Refusal :=
  .next (if s.wins e n.val .loop then s.beat e n.val (fun t => t.chanStepU e n.val [.pc] loopPush) else s)

/-- ENDL (R286). -/
def execEndl (e : Eng) (n : Fin 32) (s : State) : Host.Outcome State Fault Refusal :=
  .next (if s.wins e n.val .endl then s.beat e n.val (fun t => t.chanStepU e n.val [.pc] loopPop) else s)

/-- A WAIT that completes clears its latch (R298). -/
def waitDone (c : Chan) : Chan :=
  match c.instr with
  | some i => { doneInstr c 1 with latch := c.latch &&& ~~~(1#9 <<< (dwField (i.getD 0 0) 0 4)) }
  | none => c

/-- The channel stands at a WAIT whose latch is clear. -/
def waitBlocks (c : Chan) : Bool :=
  c.state == .running && c.owes.isNone &&
    (match c.instr with
     | some i => opCode i == 4 && !latchSet c i
     | none => false)

/-- DMA_WAIT (R294, R298): it takes a beat when it completes; until then the channel waits. -/
def execDmaWait (e : Eng) (n : Fin 32) (s : State) : Host.Outcome State Fault Refusal :=
  .next (if s.wins e n.val .wait then s.beat e n.val (fun t => t.chanStepU e n.val [.pc] waitDone)
    else if chanOk e n.val && waitBlocks (s.chan e n.val) then s.chanStep e n.val (fun c => { c with state := .waiting })
    else s)

/-- The channel's line (R279, R299), after its partial device-link block (R385). -/
def State.dmaSignalLine (s : State) (e : Eng) (n : Nat) : State :=
  match e with
  | .geode g =>
    let buf := (s.quad g.val).tx.getD n []
    let s1 := if buf.isEmpty then s
      else (s.dlSend g.val n buf).onQuad g.val (fun x => { x with tx := modAt x.tx n (fun _ => []) })
    (s1.raiseCores g.val (4 + n)).raiseSup g.val (11 + n)
  | .host => s.raiseHub (9 + n)

/-- DMA_SIGNAL (R299). -/
def execDmaSignal (e : Eng) (n : Fin 32) (s : State) : Host.Outcome State Fault Refusal :=
  .next (if s.wins e n.val .signal then
      s.beat e n.val (fun t => (t.chanStepU e n.val [.pc] (fun c => doneInstr c 1)).dmaSignalLine e n.val)
    else s)

/-- A channel that must append to a full queue is blocked (R300). -/
def mustBlock (l : Link) (e : Eng) (n : Nat) (c : Chan) (k : BeatKind) : Bool :=
  chanOk e n && c.state == .running && nextBeat l e c == some k && needsSlot c (some k) && queueFull c

/-- TAG of REC and HALT. -/
def recTag (c : Chan) : Word := match c.instr with | some i => BitVec.ofNat 14 (i.getD 0 0).toNat | none => 0

/-- DMA_REC (R300). -/
def execDmaRec (e : Eng) (n : Fin 32) (s : State) : Host.Outcome State Fault Refusal :=
  .next (if s.wins e n.val .recBeat then
      s.beat e n.val (fun t =>
        (t.appendRec e n.val { kind := 1, tag := recTag (t.chan e n.val), a := 0, b := 0, mv := false }).chanStepU e n.val
          [.pc] (fun c => doneInstr c 1))
    else if mustBlock s.link e n.val (s.chan e n.val) .recBeat then s.chanStep e n.val (fun c => { c with state := .blocked })
    else s)

/-- DMA_HALT (R286, R300). -/
def execDmaHalt (e : Eng) (n : Fin 32) (s : State) : Host.Outcome State Fault Refusal :=
  .next (if s.wins e n.val .halt then
      s.beat e n.val (fun t =>
        let c := t.chan e n.val
        let t1 := if needsSlot c (some .halt) then
            t.appendRec e n.val { kind := 2, tag := recTag c, a := 0, b := 0, mv := false }
          else t
        t1.chanStep e n.val (fun d => { d with instr := none, state := .halted }))
    else if mustBlock s.link e n.val (s.chan e n.val) .halt then s.chanStep e n.val (fun c => { c with state := .blocked })
    else s)

/-- RECORD_BEAT (R300): the record of a stop; it counts in DMA_BEATS alone. -/
def execRecordBeat (e : Eng) (n : Fin 32) (s : State) : Host.Outcome State Fault Refusal :=
  .next (if s.wins e n.val .record then
      match (s.chan e n.val).owes, s.claimRec e n.val with
      | some r, some t =>
        ((t.served e n.val).appendRec e n.val r).chanStep e n.val (fun c =>
          { c with state := c.thenSt, owes := none, instr := none, move := none })
      | _, _ => s
    else if mustBlock s.link e n.val (s.chan e n.val) .record then s.chanStep e n.val (fun c => { c with state := .blocked })
    else s)

/-- Reads whose completions have come are applied in the channel's beat order (R295): their units go through the holding
register; a failed one stops the channel (R306). A DISABLE that waited takes effect with the last (R308). -/
def State.applyReads (s : State) (n : Nat) : Nat → State
  | 0 => s
  | k + 1 =>
    let c := s.chan .host n
    match c.reads, c.instr with
    | r :: rest, some i =>
      match r.got with
      | none => s
      | some (.failed cause) => s.targetError .host n cause r.beat
      | some (.data bs) =>
        let m := mvOf i
        ((s.onChan .host n (fun d => { d with reads := rest })).moveUnits .host n m (bytesToUnits m.su m.swp bs)
          (chunkFor s.link .host c m c.done r.take) 0 false).applyReads n k
    | _, _ => if c.stopDue then s.dmaStop .host n 0 else s

/-- The completion of a channel's `k`-th outstanding read has come: it is held until the earlier ones have been applied. -/
def State.readBack (s : State) (n k : Nat) (r : HostRead) : State :=
  let waits := (s.chan .host n).reads.length
  (s.onChan .host n (fun c => { c with reads := modAt c.reads k (fun x => { x with got := some r }) })).applyReads n (waits + 1)

/-- HOST_READ_COMPLETION (R295, R306): the data of one of the reads under way, or its failure. -/
def execHostReadCompletion (n : Fin 32) (r : Completion) (s : State) : Host.Outcome State Fault Refusal :=
  let c := s.chan .host n.val
  .next (match c.instr, c.reads[r.read]? with
    | some i, some x =>
      let fits := match r.got with
        | .data bs => decide (bs.length = x.take * unitSpan (mvOf i).su)
        | .failed _ => true
      if x.got.isSome || !fits then s else s.readBack n.val r.read r.got
    | _, _ => s)

/-- The oldest read that has no completion. -/
def oldestRead (c : Chan) : Option Nat := c.reads.findIdx? (fun r => r.got.isNone)

/-- COMPLETION_TIMEOUT (R306 cause 0x1): of the oldest read under way. -/
def execCompletionTimeout (n : Fin 32) (s : State) : Host.Outcome State Fault Refusal :=
  .next (match oldestRead (s.chan .host n.val) with
    | some k => s.readBack n.val k (.failed 1)
    | none => s)

end Sys2Proof.Machine
end

