-- ==== Sys2Proof/Machine/Lode.lean ====
section
/-! DEFINITION. The lode container (R312–R317): packings (R9), its header and sections, what its declarations demand
(R318, R330, R338), and the verifier's checks of the container, its plan, decode tables and maps (R321). -/

namespace Sys2Proof.Machine
open Sys2Proof

/-! ### Packings (R9, R10) -/

/-- Units of `n` bits from a bit stream: `acc` holds `bits` bits that have come. -/
def unpackBits (n : Nat) : Nat → Nat → List Byte → List Nat
  | _, _, [] => []
  | acc, bits, b :: bs =>
    let a := acc + b.toNat * 2 ^ bits
    if n ≤ bits + 8 then (a % 2 ^ n) :: unpackBits n (a / 2 ^ n) (bits + 8 - n) bs
    else unpackBits n a (bits + 8) bs

/-- Units of `k` bytes. -/
def unpackBytes (k : Nat) (bs : List Byte) : List Nat := (List.range (bs.length / k)).map (fun i => leAt bs (k * i) k)

/-- The units of a packing code of R313: 0 bytes, 1 PK14, 2 PK28, 3 SX16, 4 ZX16, 5 SX32, 6 ZX32. -/
def unpack (pack : Nat) (bs : List Byte) : List Nat :=
  match pack with
  | 1 => unpackBits 14 0 0 bs
  | 2 => unpackBits 28 0 0 bs
  | 3 | 4 => (unpackBytes 2 bs).map (fun v => v % 2 ^ 14)
  | 5 | 6 => (unpackBytes 4 bs).map (fun v => v % 2 ^ 28)
  | _ => bs.map (fun b => b.toNat)

/-- Units of `n` bits as bytes of a bit stream, the last padded with zeros. -/
def packBits (n : Nat) (us : List Nat) : List Byte :=
  let v := us.foldr (fun u acc => u % 2 ^ n + acc * 2 ^ n) 0
  leBytes ((n * us.length + 7) / 8) v

/-- Units as bytes in a packing code. -/
def pack (code : Nat) (us : List Nat) : List Byte :=
  match code with
  | 1 => packBits 14 us
  | 2 => packBits 28 us
  | 3 => us.flatMap (fun u => leBytes 2 ((BitVec.ofNat 14 u).signExtend 16).toNat)
  | 4 => us.flatMap (fun u => leBytes 2 u)
  | 5 => us.flatMap (fun u => leBytes 4 ((BitVec.ofNat 28 u).signExtend 32).toNat)
  | _ => us.flatMap (fun u => leBytes 4 u)

/-- Bytes that `n` units take in a packing code. -/
def packLen (code n : Nat) : Nat :=
  match code with
  | 1 => (14 * n + 7) / 8
  | 2 => (28 * n + 7) / 8
  | 3 | 4 => 2 * n
  | _ => 4 * n

/-! ### Header and sections (R312–R314) -/

def lodeG (c : List Byte) : Nat := leAt c 24 1
def lodeK (c : List Byte) : Nat := leAt c 26 2
def lodeF (c : List Byte) : Nat := leAt c 28 4
def lodeFs (c : List Byte) : Nat := leAt c 32 8
def lodeLat (c : List Byte) : Nat := leAt c 40 4
def lodeStale (c : List Byte) : Nat := leAt c 44 4
def lodeTag (c : List Byte) : Nat := leAt c 16 8
def lodeNsect (c : List Byte) : Nat := leAt c 6 2

/-- A section table entry. -/
structure Sect where
  idx   : Nat
  type  : Nat
  geode : Nat
  slot  : Nat
  var   : Nat
  pack  : Nat
  rsv   : Nat
  off   : Nat
  size  : Nat
deriving DecidableEq, Repr

def sectAt (c : List Byte) (i : Nat) : Sect :=
  let o := 64 + 16 * i
  { idx := i, type := leAt c o 2, geode := leAt c (o + 2) 1, slot := leAt c (o + 3) 1, var := leAt c (o + 4) 1
    pack := leAt c (o + 5) 1, rsv := leAt c (o + 6) 2, off := leAt c (o + 8) 4, size := leAt c (o + 12) 4 }
def sects (c : List Byte) : List Sect := (List.range (lodeNsect c)).map (sectAt c)

/-- The body of a section, and its units. -/
def bodyOf (c : List Byte) (s : Sect) : List Byte := (c.drop s.off).take s.size
def unitsOf (c : List Byte) (s : Sect) : List Nat := unpack s.pack (bodyOf c s)

/-- A section by type, geode and role slot of a variant; a variant that omits it uses the main one (R314). -/
def findSect (c : List Byte) (type geode slot var : Nat) : Option Sect :=
  let here := (sects c).filter (fun s => s.type == type && s.geode == geode && s.slot == slot)
  match here.find? (fun s => s.var == var) with
  | some s => some s
  | none => here.find? (fun s => s.var == 0)

/-- Units of a section that may be missing. -/
def sectUnits (c : List Byte) (type geode slot var : Nat) : List Nat :=
  match findSect c type geode slot var with
  | some s => unitsOf c s
  | none => []
def sectBody (c : List Byte) (type geode slot var : Nat) : List Byte :=
  match findSect c type geode slot var with
  | some s => bodyOf c s
  | none => []

/-- Role slots of a geode that have an instruction image (R314). -/
def rolesOf (c : List Byte) (g : Nat) : List Nat :=
  (List.range 8).filter (fun s => (findSect c 1 g s 0).isSome)

/-! ### Declarations (R315, R316, R318, R328, R330, R338, R341) -/

def resBody (c : List Byte) : List Byte := sectBody c 0xC 0xFF 0xFF 0
def lodeYf (c : List Byte) : Nat := leAt (resBody c) 0 4
def lodeDs (c : List Byte) : Nat := leAt (resBody c) 4 2
def resStatic (c : List Byte) (i : Nat) : Nat := leAt (resBody c) (8 + 16 * i) 2
def resPool (c : List Byte) (i : Nat) : Nat := leAt (resBody c) (10 + 16 * i) 2
def resSwords (c : List Byte) (i : Nat) : Nat := leAt (resBody c) (12 + 16 * i) 4
def resTimg (c : List Byte) (i : Nat) : Nat := leAt (resBody c) (16 + 16 * i) 4
def resRmin (c : List Byte) (i : Nat) : Nat := leAt (resBody c) (20 + 16 * i) 2

/-- Record kinds of a frame, in order: kind, packing, count (R316). -/
def lodeResults (c : List Byte) : List (Nat × Nat × Nat) :=
  let b := sectBody c 0xD 0xFF 0xFF 0
  (List.range (b.length / 8)).map (fun k => (leAt b (8 * k) 2, leAt b (8 * k + 2) 1, leAt b (8 * k + 4) 4))

/-- Fabric clock of a lode geode in MHz (R328). -/
def fabricMhz (c : List Byte) (i : Nat) : Nat := leAt (sectBody c 0xB 0xFF 0xFF 0) (4 * i) 2

/-- Words of a role's image (R318, R330). -/
def roleWords (c : List Byte) (g s : Nat) : Nat :=
  2 * (sectUnits c 1 g s 0).length + (sectUnits c 2 g s 0).length + (sectUnits c 3 g s 0).length + 416

/-- Image-load time of a role in fabric cycles (R43, R330). -/
def loadTime (words : Nat) : Nat := 64 + (words + 31) / 32

/-- Sum of the image-load times of a geode's roles. -/
def sumLoad (c : List Byte) (g : Nat) : Nat := ((rolesOf c g).map (fun s => loadTime (roleWords c g s))).sum

/-- Image pages that the lode takes on a lode geode (R318). -/
def imagePages (c : List Byte) (g : Nat) : Nat :=
  let roles := ((rolesOf c g).map (fun s => (roleWords c g s + 4095) / 4096)).sum
  let v := ((sects c).filter (fun s => s.type == 7 && s.geode == g)).length
  let d := (((sects c).filter (fun s => s.type == 8 && s.geode == g)).map (fun s => (unitsOf c s).length)).sum
  roles + (256 * v + 2 * d + 4095) / 4096

/-- TACT in units of 2⁻⁵⁶ s, of the slowest of the lode's geodes (R330). -/
def lodeTact (c : List Byte) : Nat :=
  ((List.range (lodeG c)).map (fun g => (sumLoad c g + 2048) * 2 ^ 56 / (Nat.max 1 (fabricMhz c g) * 1000000) + 1)).foldl
    Nat.max 0

/-- Posting bandwidth in MB/s and staging in KiW (R338). -/
def lodeBp (c : List Byte) : Nat :=
  let d := Nat.max 1 (lodeK c * lodeF c * 1000000)
  (lodeYf c * lodeFs c + d - 1) / d
def lodeStaging (c : List Byte) : Nat :=
  lodeDs c * ((List.range (lodeG c)).map (fun g => (resSwords c g + 1023) / 1024)).sum

/-- Words of a role's X image from an address; words not supplied are 0 (R314). -/
def xImageAt (c : List Byte) (g s a : Nat) : Nat := (sectUnits c 2 g s 0).getD a 0

/-- The eight words of a geode's correction descriptor (R401). -/
def descrOf (c : List Byte) (g : Nat) : List Nat :=
  match (rolesOf c g).head? with
  | none => List.replicate 8 0
  | some s =>
    let x := sectUnits c 2 g s 0
    (List.range 8).map (fun k => x.getD (0xFFF8 + k) 0)

/-- Claim records of a role: KIND, LEVEL, A, B, C (R323). -/
def claims (c : List Byte) (g s var : Nat) : List (Nat × Nat × Nat × Nat × Nat) :=
  let b := sectBody c 9 g s var
  (List.range (b.length / 16)).map (fun k =>
    (leAt b (16 * k) 2, leAt b (16 * k + 2) 1, leAt b (16 * k + 4) 4, leAt b (16 * k + 8) 4, leAt b (16 * k + 12) 4))

/-- ENTRY of a level of a role (R323, R331). -/
def entryOf (c : List Byte) (g s level : Nat) : IAddr :=
  match (claims c g s 0).find? (fun k => k.1 == 1 && k.2.1 == level) with
  | some k => BitVec.ofNat 14 k.2.2.1
  | none => 0

/-- The channels of a channel section: number, CCB words 1 to 16, program (R314). Each number stands in one unit of the
section's packing (log entry 65). -/
def channelsOf : Nat → List Nat → List (Nat × List Nat × List Nat)
  | 0, _ => []
  | _, [] => []
  | n + 1, ch :: rest =>
    let ccb := rest.take 16
    let len := ccb.getD 3 0
    (ch, ccb, (rest.drop 16).take len) :: channelsOf n (rest.drop (16 + len))
def lodeChannels (c : List Byte) (g var : Nat) : List (Nat × List Nat × List Nat) :=
  channelsOf 16 (sectUnits c 8 g 0xFF var)

/-- Page map entries of a role: level, virtual page, WP, lode page index (R317). -/
def pageMap (c : List Byte) (g s : Nat) : List (Nat × Nat × Bool × Nat) :=
  let u := sectUnits c 6 g s 0
  (List.range (u.length / 2)).map (fun k =>
    let a := u.getD (2 * k) 0
    let b := u.getD (2 * k + 1) 0
    (a / 2 ^ 12, a % 1024, b / 2 ^ 13 == 1, b % 512))

/-! ### The verifier (R321, R326) -/

/-- A refusal report. -/
def refuse (reason : Nat) (sect : Nat := 0xFFFF) (geode : Nat := 0xFF) (slot : Nat := 0xFF) (variant : Nat := 0)
    (place : Nat := 0) (claimed : Nat := 0) (found : Nat := 0) (claim : Nat := 0xFFFFFFFF) : Refused :=
  { claim := u32 claim, sect := BitVec.ofNat 16 sect, reason := BitVec.ofNat 16 reason, geode := byteOf geode
    slot := byteOf slot, variant := byteOf variant, place := u32 place, claimed := u32 claimed, found := u32 found }

/-- The first report of a list of checks. -/
def firstBad : List (Option Refused) → Option Refused
  | [] => none
  | some r :: _ => some r
  | none :: rest => firstBad rest

def check (ok : Bool) (r : Refused) : Option Refused := if ok then none else some r

/-- Section types: scope (0 role, 1 geode, 2 lode), packing, and whether a variant may supply them (R314). -/
def typeRule : Nat → Option (Nat × Nat × Bool)
  | 1 => some (0, 2, false)
  | 2 => some (0, 1, false)
  | 3 => some (0, 1, false)
  | 4 => some (0, 1, false)
  | 5 => some (0, 6, false)
  | 6 => some (0, 4, false)
  | 7 => some (1, 4, true)
  | 8 => some (1, 2, true)
  | 9 => some (0, 0, true)
  | 0xA => some (0, 0, false)
  | 0xB => some (2, 0, false)
  | 0xC => some (2, 0, false)
  | 0xD => some (2, 0, false)
  | 0xFF => some (2, 0, false)
  | _ => none

/-- VARIANT has a value of R313. -/
def variantOk (v : Nat) : Bool := v == 0 || (decide (0x10 ≤ v) && decide (v ≤ 0x17)) || (decide (0x20 ≤ v) && decide (v ≤ 0x23))

/-- Step 1, table entry (R313). -/
def entryBad (c : List Byte) (s : Sect) : Bool :=
  let n := lodeNsect c
  (typeRule s.type).isNone || !variantOk s.var || decide (6 < s.pack) || s.rsv != 0 ||
    !(s.geode == 0xFF || decide (s.geode < lodeG c)) || !(s.slot == 0xFF || decide (s.slot < 8)) ||
    decide (s.off < 64 + 16 * n) || decide (c.length < s.off + s.size)

/-- Two bodies overlap. -/
def overlaps (a b : Sect) : Bool := decide (a.off < b.off + b.size) && decide (b.off < a.off + a.size)

/-- Step 1: MAGIC, VERSION, CRC, header ranges, section table. -/
def checkHeader (c : List Byte) : Option Refused :=
  let n := lodeNsect c
  let crc := crc32c (c.take 12 ++ [0, 0, 0, 0] ++ c.drop 16)
  firstBad
    [ check (decide (64 ≤ c.length) && leAt c 0 4 == 0x444C4A46) (refuse 1)
    , check (leAt c 4 2 == 1) (refuse 1 (place := 4))
    , check (leAt c 8 4 == c.length && decide (c.length ≤ 67108864) && decide (64 + 16 * n ≤ c.length)) (refuse 1 (place := 8))
    , check (leAt c 12 4 == crc.toNat) (refuse 1 (place := 12) (claimed := leAt c 12 4) (found := crc.toNat))
    , check (decide (1 ≤ n) && decide (n ≤ 4096)) (refuse 1 (place := 6))
    , check (decide (1 ≤ lodeG c) && decide (lodeG c ≤ 8)) (refuse 1 (place := 24))
    , check (decide (leAt c 25 1 < 2)) (refuse 1 (place := 25))
    , check (decide (1 ≤ lodeK c) && decide (lodeK c ≤ 256)) (refuse 6 (place := 26) (claimed := lodeK c))
    , check (decide (4096 ≤ lodeF c) && decide (lodeF c ≤ 1048576)) (refuse 6 (place := 28) (claimed := lodeF c))
    , check (lodeFs c != 0) (refuse 6 (place := 32))
    , check (zeroBytes c 48 16) (refuse 1 (place := 48))
    , (sects c).findSome? (fun s =>
        check (!entryBad c s && !(sects c).any (fun t => t.idx != s.idx && s.size != 0 && t.size != 0 && overlaps s t))
          (refuse 1 s.idx (place := 64 + 16 * s.idx))) ]

/-- Bytes of a body that are a whole number of its units (R9, R314). -/
def wholeBody (c : List Byte) (s : Sect) : Bool := s.pack == 0 || (bodyOf c s).length == packLen s.pack (unitsOf c s).length

/-- A signature section: the last one, ending at LENGTH, 72 bytes (R314, R349); FLAGS says that there is one (R312). -/
def signSectOk (c : List Byte) (s : Sect) : Bool :=
  s.idx + 1 == lodeNsect c && s.off + s.size == c.length && s.size == 72 && leAt c 25 1 % 2 == 1 && zeroBytes (bodyOf c s) 1 7

/-- Step 2: the signature (R349, R350). -/
def checkSignature (require : Bool) (keys : List (Option (List Byte))) (c : List Byte) : Option Refused :=
  let signed := leAt c 25 1 % 2 == 1
  if !signed then check (!require) (refuse 3)
  else match (sects c).getLast? with
    | none => some (refuse 3)
    | some s =>
      let b := bodyOf c s
      let key := (keys[leAt b 0 1]?).join
      check (s.type == 0xFF && s.off + s.size == c.length && b.length == 72 && zeroBytes b 1 7 &&
        (match key with
         | some k => Config.ed25519 k (c.take s.off) ((b.drop 8).take 64)
         | none => false)) (refuse 3 s.idx (place := s.off))

/-- System registers that a core-register section may name (R314, R235). -/
def coreRegOk (n : Nat) : Bool :=
  (decide (0x20 ≤ n) && decide (n ≤ 0x24)) || (decide (0x28 ≤ n) && decide (n ≤ 0x37)) || (decide (0x80 ≤ n) && decide (n ≤ 0x9F))

/-- The body of a section by its type (R314–R317, R323, R328). -/
def bodyOk (c : List Byte) (s : Sect) : Bool :=
  let u := unitsOf c s
  let b := bodyOf c s
  match s.type with
  | 1 => decide (1 ≤ u.length) && decide (u.length ≤ 16384)
  | 2 | 3 => decide (u.length ≤ 65536)
  | 4 => u.length == 416
  | 5 => u.length % 2 == 0 && (List.range (u.length / 2)).all (fun k => coreRegOk (u.getD (2 * k) 0))
  | 6 => u.length % 2 == 0
  | 7 => u.length == 256 && u.all (fun v => decide (v / 16 = 0) && (decide (v < 0xC) || v == 0xF))
  | 8 => true
  | 9 => b.length % 16 == 0 &&
      (List.range (b.length / 16)).all (fun k =>
        let kind := leAt b (16 * k) 2
        decide (1 ≤ kind) && decide (kind ≤ 0xB) && decide (leAt b (16 * k + 2) 1 ≤ 2) && leAt b (16 * k + 3) 1 == 0)
  | 0xA => b.length % 4 == 0
  | 0xB => b.length == 4 * lodeG c && (List.range (lodeG c)).all (fun i => leAt b (4 * i + 2) 2 == 0)
  | 0xC => b.length == 8 + 16 * lodeG c && leAt b 6 2 == 0 && decide (2 ≤ leAt b 4 2) && decide (leAt b 4 2 ≤ 16) &&
      (List.range (lodeG c)).all (fun i =>
        leAt b (22 + 16 * i) 2 == 0 && decide (1 ≤ leAt b (20 + 16 * i) 2) && decide (leAt b (20 + 16 * i) 2 ≤ 64))
  | 0xD => b.length % 8 == 0 &&
      (List.range (b.length / 8)).all (fun k =>
        decide (1 ≤ leAt b (8 * k) 2) && decide (leAt b (8 * k) 2 ≤ 0xEF) && decide (1 ≤ leAt b (8 * k + 2) 1) &&
          decide (leAt b (8 * k + 2) 1 ≤ 6) && leAt b (8 * k + 3) 1 == 0)
  | 0xFF => signSectOk c s
  | _ => true

/-- Scope, packing and variant rules of a section (R314). -/
def scopeOk (s : Sect) : Bool :=
  match typeRule s.type with
  | none => false
  | some (scope, pk, var) =>
    s.pack == pk && (var || s.var == 0) &&
      (match scope with
       | 0 => s.geode != 0xFF && s.slot != 0xFF
       | 1 => s.geode != 0xFF && s.slot == 0xFF
       | _ => s.geode == 0xFF && s.slot == 0xFF)

/-- The correction descriptor (R401). -/
def descrOk (d : List Nat) : Bool :=
  let g := fun (k : Nat) => d.getD k 0
  g 0 == 0x0CA1 && g 6 == 0 && g 7 == 0 &&
    (match g 1 with
     | 0 => g 2 == 0 && g 3 == 0 && g 4 == 0 && g 5 == 0
     | 1 => decide (6 ≤ g 2) && decide (g 2 ≤ 16) && decide (1 ≤ g 4) && decide (g 4 ≤ 8192) &&
         decide (g 3 + g 4 - 1 ≤ 2 ^ (g 2 - 1)) && g 5 == 0
     | 2 => g 2 == 0 && g 3 == 0 && g 4 == 0 && decide (1 ≤ g 5) && decide (g 5 ≤ 16)
     | _ => false)

/-- Step 3: section bodies; every lode-wide section that the others need is present. -/
def checkBodies (c : List Byte) : Option Refused :=
  firstBad
    [ (sects c).findSome? (fun s =>
        check (scopeOk s && wholeBody c s && bodyOk c s) (refuse 2 s.idx s.geode s.slot s.var (place := s.off)))
    , check ((findSect c 0xB 0xFF 0xFF 0).isSome && (findSect c 0xC 0xFF 0xFF 0).isSome && (findSect c 0xD 0xFF 0xFF 0).isSome)
        (refuse 2)
    , (List.range (lodeG c)).findSome? (fun g =>
        check ((rolesOf c g).isEmpty || descrOk (descrOf c g)) (refuse 2 (geode := g))) ]

/-- Image pages that the geode's resident lodes hold (R319). -/
def State.residentPages (s : State) (g but : Nat) : Nat :=
  ((s.hub.slots.zip (List.range 16)).map (fun p =>
    if p.2 = but then 0 else ((p.1.pages.find? (fun q => q.1 == g)).map (fun q => q.2.length)).getD 0)).sum

/-- The physical geodes of a mask, ascending: the i-th is lode geode i (R318). -/
def maskGeodes (m : Byte) : List Nat := (List.range 8).filter (fun g => bitOf m g)

/-- Step 4: clock plan, pages, K against the beacon period, LAT. -/
def State.checkPlan (s : State) (slot : Nat) (mask : Byte) (c : List Byte) : Option Refused :=
  let gs := maskGeodes mask
  firstBad
    [ (List.range (lodeG c)).findSome? (fun i =>
        let m := fabricMhz c i
        check (m % 40 == 0 && decide (400 ≤ m) && decide (m ≤ 1600))
          (refuse 5 (match findSect c 0xB 0xFF 0xFF 0 with | some x => x.idx | none => 0xFFFF) (geode := i) (claimed := m)))
    , check (gs.length == lodeG c) (refuse 4 (claimed := lodeG c) (found := gs.length))
    , (List.range (lodeG c)).findSome? (fun i =>
        let n := s.residentPages (gs.getD i 0) slot + imagePages c i + 1 + resStatic c i + resPool c i
        check (decide (n ≤ 511)) (refuse 4 (geode := i) (claimed := 511) (found := n)))
    , check (decide ((lodeLat c * lodeFs c : Nat) ≥ 2 * lodeK c * lodeF c * 1000000000 + 20000 * lodeFs c))
        (refuse 7 (claimed := lodeLat c)) ]

/-- Step 5: user decode entries (R243). -/
def checkUdt (c : List Byte) : Option Refused :=
  (sects c).findSome? (fun s =>
    if s.type != 4 then none
    else
      let u := unitsOf c s
      let t : SMap 14 := smPutAll [] ((List.range u.length).map (fun k => (k, BitVec.ofNat 14 (u.getD k 0))))
      (List.range 16).findSome? (fun e =>
        let h := smGet t (26 * e)
        if bitOf h 13 then
          check (udtWhy t e h == 0) (refuse 8 s.idx s.geode s.slot 0 (place := s.off + 26 * e * 14 / 8)
            (found := udtWhy t e h))
        else none))

/-- Step 6: page maps (R281, R317): the control page is read-only. -/
def checkMaps (c : List Byte) : Option Refused :=
  (sects c).findSome? (fun s =>
    if s.type != 6 then none
    else
      let u := unitsOf c s
      let rsv := (List.range (u.length / 2)).any (fun k =>
        u.getD (2 * k) 0 / 2 ^ 10 % 4 != 0 || u.getD (2 * k + 1) 0 / 2 ^ 9 % 16 != 0)
      check (!rsv && (pageMap c s.geode s.slot).all (fun e =>
          decide (e.1 < 3) && decide (e.2.2.2 ≤ resStatic c s.geode) && (e.2.2.2 != 0 || e.2.2.1)))
        (refuse 0x10 s.idx s.geode s.slot (place := s.off)))

/-- Build time of a set in fabric cycles (R404). -/
def buildTime (d : List Nat) : Nat :=
  match d.getD 1 0 with
  | 1 => 64 + d.getD 4 0
  | 2 => 1088
  | _ => 64

/-- Variants and declared times: every used role slot has its takeover variant (R335), TIMG covers the geode's largest
role (R44, R315), and the sets can be built while the
images load (R404). -/
def checkVariants (c : List Byte) : Option Refused :=
  (List.range (lodeG c)).findSome? (fun g =>
    firstBad
      [ (rolesOf c g).findSome? (fun r =>
          check ((sects c).any (fun s => s.geode == g && s.var == 0x10 + r)) (refuse 0x12 (geode := g) (slot := r) (variant := 0x10 + r)))
      , check (decide (((rolesOf c g).map (fun r => loadTime (roleWords c g r))).foldl Nat.max 0 ≤ resTimg c g))
          (refuse 0x13 (geode := g) (claimed := resTimg c g))
      , check (decide (4 * buildTime (descrOf c g) ≤ sumLoad c g + 2048))
          (refuse 0x13 (geode := g) (claimed := sumLoad c g + 2048) (found := 4 * buildTime (descrOf c g))) ])

/-- The 24 bytes of a refusal report (R326). -/
def refusedBytes (r : Refused) : List Byte :=
  leBytes 4 r.claim.toNat ++ leBytes 2 r.sect.toNat ++ leBytes 2 r.reason.toNat ++ [r.geode, r.slot, r.variant, 0] ++
    leBytes 4 r.place.toNat ++ leBytes 4 r.claimed.toNat ++ leBytes 4 r.found.toNat

end Sys2Proof.Machine
end

