-- ==== Sys2Proof/Machine/JobOps.lean ====
section
/-! DEFINITION. A job on its geodes (chapters 1, 10, 12): core reset (R456, R518), activation (R331), the first frame,
release (R332), variants (R334), eclipses and takeovers (R44, R464), coefficient sets (R400–R404), and the swap and
CALHDR of a beacon (R405, R408, R411). -/

namespace Sys2Proof.Machine
open Sys2Proof

/-- The bench monitor holds the supervisor of a geode (R487): its duties of R41 wait. -/
def State.supWaits (s : State) (g : Nat) : Bool := (s.coreAt (72 + g)).isHalted

/-! ### Core reset (R456, R518) -/

/-- A core as a core reset leaves it: memories, counters and what is on its way out stay. -/
def resetCoreData (c : Core) : Core :=
  { Core.signalReset with
    x := c.x, y := c.y, imem := c.imem, sb := c.sb, nextId := c.nextId, beacons := c.beacons
    issued := c.issued, flushed := c.flushed, vwakes := c.vwakes, offAcc := c.offAcc, offStall := c.offStall
    eccCorr := c.eccCorr, eccUnc := c.eccUnc, snap := c.snap, scrubX := c.scrubX, scrubY := c.scrubY, scrubI := c.scrubI
    cycles := c.cycles }

/-- Entries of a core's tables in the allocator's master copy. -/
def coreEntries (g : Geode) (c : Nat) : List (Nat × Word) :=
  g.master.filter (fun e => decide (masterIdx c 0 0 ≤ e.1) && decide (e.1 < masterIdx (c + 1) 0 0))

/-- Every entry of a core's tables is unmapped (R518): a page that no table maps any more goes to zeroing; a drain marker
follows what the core has sent. -/
def clearTables (g : Geode) (c upTo : Nat) : Geode :=
  (coreEntries g c).foldl (fun x e =>
    if bitOf e.2 13 then
      let y := unmapEntry x e.1
      { y with master := smPut y.master e.1 0, markers := y.markers ++ [{ core := c, page := e.2.toNat % 512, upTo := upTo }] }
    else { x with master := smPut x.master e.1 0 }) g

/-- CORE_RESET (R456, R518). -/
def State.coreReset (s : State) (g c : Nat) : State :=
  let up := (s.coreAt (9 * g + c)).nextId
  (s.onCoreAt (9 * g + c) resetCoreData).onGeode g (fun x =>
    let y := clearTables x c up
    { y with pageReqs := y.pageReqs.filter (fun q => q.core != c) })

/-- What the geode's reset cores had under way is over: stores drained, load requests and markers gone. -/
def State.settleCores (s : State) (g : Nat) : State :=
  let s1 := (List.range 9).foldl (fun t c =>
    let r := CoreRef.sig (Fin.ofNat 8 g) (Fin.ofNat 9 c)
    ((t.core r).sb.foldl (fun u e => u.drainEntry r e) t).onCore r (fun k => { k with sb := [] })) s
  s1.onGeode g (fun x =>
    let gone := fun (c : Nat) => decide (c < 9)
    { x with
      reqs := x.reqs.filter (fun q => match q.by_ with | .core _ => false | _ => true)
      greqs := x.greqs.filter (fun q => match q.by_ with | .core _ => false | _ => true)
      owed := (x.markers.filter (fun m => gone m.core)).foldl (fun o m => o.erase m.page) x.owed
      markers := x.markers.filter (fun m => !gone m.core) })

/-- Every page whose markers have arrived is zeroed and pooled (R267, log entry 66). -/
def zeroAll (g : Geode) : Geode :=
  let now := g.zeroing.filter (fun k => !g.owed.contains k)
  { g with
    mem := now.foldl zeroPage g.mem
    zeroing := g.zeroing.filter (fun k => g.owed.contains k)
    pool := now.foldl insAsc g.pool }

/-! ### Images (R331) -/

/-- Words as a sparse array from an address. -/
def smOf {w : Nat} (from_ : Nat) (us : List Nat) : SMap w :=
  ((List.range us.length).zip us).foldr (fun p m =>
    let v := BitVec.ofNat w p.2
    if v = 0 then m else (from_ + p.1, v) :: m) []

/-- Instruction memory with an image from address 0. -/
def loadImem (m : EMem 28) (us : List Nat) : EMem 28 :=
  { cells := smOf 0 us ++ m.cells.filter (fun e => decide (us.length ≤ e.1))
    corr := m.corr.filter (fun a => decide (us.length ≤ a)), unc := m.unc.filter (fun a => decide (us.length ≤ a)) }

/-- The user decode table written through the control port: headers last (R243, R249). -/
def loadUdt (c : Core) (us : List Nat) : Core :=
  let h := { c with halted := true }
  let body := (List.range us.length).filter (fun k => k % 26 != 0)
  let heads := (List.range us.length).filter (fun k => k % 26 == 0)
  (body ++ heads).foldl (fun k off => writeUdtWord k off (BitVec.ofNat 14 (us.getD off 0))) h

/-- Core registers of a role: pairs of number and value (R314). -/
def loadRegs (c : Core) (us : List Nat) : Core :=
  (List.range (us.length / 2)).foldl (fun k i =>
    sysWrite false k 0 (us.getD (2 * i) 0) (BitVec.ofNat 28 (us.getD (2 * i + 1) 0))) c

/-- A role's image goes into a core (R331 step 4). -/
def loadRole (c : List Byte) (lg slot : Nat) (k : Core) : Core :=
  let k1 := { k with
    x := { cells := smOf 0 (sectUnits c 2 lg slot 0) }, y := { cells := smOf 0 (sectUnits c 3 lg slot 0) }
    imem := loadImem k.imem (sectUnits c 1 lg slot 0) }
  loadRegs (loadUdt k1 (sectUnits c 4 lg slot 0)) (sectUnits c 5 lg slot 0)

/-- The physical page of a lode page index (R317). -/
def lodePage (g : Geode) (i : Nat) : Nat := if i = 0 then g.ctlPage.getD 0 else g.statics.getD (i - 1) 0

/-- A role's static mappings: table entries of the core, and of the master copy (R266, R317, R331). -/
def roleEntries (c : List Byte) (lg slot : Nat) (g : Geode) : List (Nat × Nat × Word) :=
  (pageMap c lg slot).map (fun e => (e.1, e.2.1, BitVec.ofNat 14 (2 ^ 13 + b2n e.2.2.1 * 2 ^ 12 + lodePage g e.2.2.2)))

/-- Role image and mappings for physical core `p` of geode `g`. -/
def State.installRole (s : State) (c : List Byte) (g lg slot p : Nat) : State :=
  let es := roleEntries c lg slot (s.geode g)
  (s.onCoreAt (9 * g + p) (fun k =>
    let k1 := loadRole c lg slot k
    es.foldl (fun k e => putTbl k (1024 * e.1 + e.2.1) e.2.2) k1)).onGeode g (fun x =>
      { x with master := es.foldl (fun t e => smPut t (masterIdx p e.1 e.2.1) e.2.2) x.master })

/-- A bank-slot table of a variant goes to BSTN (R331, R261): 0xF is held as 0. -/
def bstOf (us : List Nat) : SMap 4 :=
  ((List.range us.length).zip us).foldr (fun p m =>
    let v := BitVec.ofNat 4 p.2 ^^^ 0xF#4
    if v = 0 then m else (p.1, v) :: m) []
def State.loadBstn (s : State) (c : List Byte) (g lg var : Nat) : State :=
  s.onGeode g (fun x =>
    let low := fun (l : List Nat) => l.filter (fun i => decide (i < 256))
    { x with bstn := bstOf (sectUnits c 7 lg 0xFF var), bstE := { corr := low x.bstE.corr, unc := low x.bstE.unc } })

/-- The channels of a variant start (R314, R331): control block words 1 to 16, program, START. -/
def State.startChannels (s : State) (c : List Byte) (g lg var : Nat) : State :=
  let e := Eng.geode (Fin.ofNat 8 g)
  (lodeChannels c lg var).foldl (fun t ch =>
    if 16 ≤ ch.1 then t
    else
      let at_ := ccbBase e ch.1
      let t1 := ((List.range 16).zip ch.2.1).foldl (fun u p => u.engWrite e (at_ + 1 + p.1) (BitVec.ofNat 14 p.2)) t
      let base := ch.2.1.getD 1 0 + ch.2.1.getD 2 0 * 2 ^ 14
      let t2 := ((List.range ch.2.2.length).zip ch.2.2).foldl (fun u p =>
        (u.engWrite e (base + 2 * p.1) (BitVec.ofNat 14 p.2)).engWrite e (base + 2 * p.1 + 1) (BitVec.ofNat 14 (p.2 / 2 ^ 14))) t1
      t2.dmaStart e ch.1) s

/-! ### Coefficient sets (R400, R402, R404) -/

/-- Words of a set (R400): weights and taps, whose arithmetic the spec does not fix, are free (log entry 43). -/
def State.makeSet (s : State) (st : Stream) (d : Int) (sresp : List Word) (dref : Int) (sub : Bool) : List Word × State :=
  let dw := fun (v : Int) => let n := (BitVec.ofInt 28 v).toNat
    [BitVec.ofNat 14 n, BitVec.ofNat 14 (n / 2 ^ 14)]
  let head : List Word := [BitVec.ofNat 14 (2 ^ 13 + st.form * 2 ^ 11 + b2n sub * 2 ^ 10)] ++ dw d ++ dw (dref - d) ++
    (if sub then (sresp ++ List.replicate 16 0).take 16 else List.replicate 16 0) ++ List.replicate 11 0
  match st.form with
  | 1 => let r := s.freshWords (2 * st.nb); (head ++ r.1.map (fun v => BitVec.ofNat 14 v), r.2)
  | 2 => let r := s.freshWords st.taps
         (head ++ r.1.map (fun v => BitVec.ofNat 14 v) ++ List.replicate (16 - st.taps) 0, r.2)
  | _ => (head, s)

/-- A set is written into the calibration area. -/
def State.putSet (s : State) (g : Nat) (st : Stream) (b : Bool) (ws : List Word) : State :=
  ((List.range ws.length).zip ws).foldl (fun t p => t.calWrite g st (setBase st b + p.1) p.2) s

/-- Set A of a stream from its position's estimate record (R404), at activation. -/
def State.firstSet (s : State) (b : Nat) (dref : Int) : State :=
  match (s.pos b).stream, (s.pos b).est with
  | some st, some e =>
    let r := s.makeSet st e.d.toInt e.sresp dref (injects st)
    r.2.putSet (b / 4) st false r.1
  | _, _ => s

/-- Positions whose streams a job binds, and DREF (R402): the largest d of their estimate records, rounded up to a
multiple of 20. -/
def State.boundAt (s : State) (id : U16) : List Nat :=
  (List.range 32).filter (fun b => match (s.pos b).stream with | some st => st.job == id | none => false)
def State.drefOf (s : State) (id : U16) : Int :=
  match (s.jobOf id).bind (fun j => j.dref) with
  | some d => d
  | none =>
    let ds := (s.boundAt id).map (fun b => match (s.pos b).est with | some e => e.d.toInt | none => 0)
    match ds with
    | [] => 0
    | d :: rest => ((rest.foldl max d + 19) / 20) * 20

/-! ### Activation, first frame, release (R331, R332) -/

/-- A lode's container, of the slot that a job uses. -/
def State.lodeOf (s : State) (slot : Nat) : List Byte := (s.hub.slots.getD slot {}).bytes

/-- The lode geode of a physical geode of a job. -/
def lodeGeode (j : Job) (g : Nat) : Nat := j.geodes.idxOf g

/-- Role slots that run without a core (R336). -/
def lostSlots (x : Geode) : List Nat := x.lost.map (fun r => r.1)

/-- A core takes a role slot (R255, R336, R464); the slot that it may have had before gets the core that leaves this one. -/
def giveRole (x : Geode) (r sp : Nat) : Geode :=
  let old := x.role.getD r 0
  { x with role := (x.role.map (fun c => if c = sp then old else c)).set r sp, spare := none }

/-- At activation, the spare takes the first slot whose core has failed and has not come back (R45, R336, R465); a slot for
which there is no core is without one from the first frame on. -/
def assignRoles (x : Geode) (slots : List Nat) (first : U32) : Geode :=
  slots.foldl (fun y r =>
    let c := y.role.getD r 0
    if !(y.eclipsed.contains c || y.retired.contains c || y.spare == some c) then y
    else match y.spare with
      | some sp => giveRole y r sp
      | none => { y with lost := y.lost ++ [(r, first)] }) x

/-- Steps 4 and 5 of R331: role images, tables, main channels. -/
def State.loadLode (s : State) (j : Job) (g : Nat) : State :=
  let c := s.lodeOf j.slot
  let lg := lodeGeode j g
  let s1 := ((rolesOf c lg).filter (fun r => !(lostSlots (s.geode g)).contains r)).foldl (fun t r =>
    t.installRole c g lg r ((t.geode g).role.getD r 0)) s
  (s1.loadBstn c g lg 0).startChannels c g lg 0

/-- JOB_ACTIVATION (R331) on one geode: a lode switch (R45), at which BSTN becomes BST (R261) and busy channels stop (R311). -/
def State.activate (s : State) (j : Job) (g : Nat) : State :=
  let c := s.lodeOf j.slot
  let lg := lodeGeode j g
  let s0 := (s.copyTable g).dmaStopAll (.geode (Fin.ofNat 8 g)) 1 (fun _ => true)
  let s1 := (List.range 9).foldl (fun t k => t.coreReset g k) s0
  let s2 := (s1.onGeode g (fun x =>
    { freePages x (x.statics ++ x.ctlPage.toList) with statics := [], ctlPage := none })).settleCores g
  let s3 := s2.onGeode g (fun x =>
    let y := assignRoles (zeroAll x) (rolesOf c lg) j.first
    let n := 1 + resStatic c lg
    { y with ctlPage := y.pool.head?, statics := (y.pool.take n).drop 1, pool := y.pool.drop n
             lodeSlot := some j.slot, variant := 0 })
  let s4 := s3.loadLode j g
  let dref := s4.drefOf j.id
  let s5 := s4.onJob j.id (fun x => { x with dref := some dref })
  ((s5.boundAt j.id).filter (fun b => b / 4 == g)).foldl (fun t b =>
    let t1 := t.firstSet b dref
    match (t1.pos b).stream with
    | some st => if injects st then t1.sendInject b true else t1
    | none => t1) s5

/-- Role cores of a job on a geode: slot and physical core. -/
def State.roleCores (s : State) (j : Job) (g : Nat) : List (Nat × Nat) :=
  (rolesOf (s.lodeOf j.slot) (lodeGeode j g)).map (fun r => (r, (s.geode g).role.getD r 0))

/-- A role's core enters service and starts its levels (R331). -/
def State.serve (s : State) (j : Job) (g slot p : Nat) : State :=
  let c := s.lodeOf j.slot
  let lg := lodeGeode j g
  s.onCoreAt (9 * g + p) (fun k =>
    startLevel (startLevel { k with svc := true } false (entryOf c lg slot 0)) true (entryOf c lg slot 1))

/-- JOB_FIRST_FRAME (R331), and its like after a wake (R461): BSTN becomes BST, the cores enter service; a slot whose core
has failed waits for its spare (R462). -/
def State.firstFrame (s : State) (j : Job) (g : Nat) : State :=
  let s1 := s.copyTable g
  let away := lostSlots (s1.geode g) ++ ((s1.geode g).eclipse.map (fun e => e.slot)).toList
  let s2 := (s1.roleCores j g).foldl (fun t p => if away.contains p.1 then t else t.serve j g p.1 p.2) s1
  let now := s2.aon.time.toNat
  let fill := fun (st : Stream) =>
    if st.job == j.id && st.credits.isEmpty then
      { st with credits := List.replicate 4 (8 * creditUnit st, now) }
    else st
  let s3 := (List.range 4).foldl (fun t l => t.onStream (4 * g + l) fill) s2
  (s3.onQuad g (fun q => { q with streams := q.streams.map (fun m => m.map fill) })).onJob j.id
    (fun x => { x with state := if x.state = .admitted then .running else x.state })

/-- A core halts and leaves service (R332). -/
def leaveService (c : Core) : Core :=
  { c with svc := false, checkpointDue := false, halted := true, run := .idle, l0st := false, l1st := false, asm := [], stall := none, fresh := false }

/-- The estimate record of a released stream (R396), its injection off (R391), the position free again. -/
def State.unbind (s : State) (b : Nat) : State :=
  match (s.pos b).stream with
  | none => s
  | some st =>
    let s1 := if 8 ≤ st.avg then s.measuredEst b .tracked else s
    let s2 := if (s1.pos b).inject && injects st then s1.sendInject b false else s1
    let n := streamN st
    (List.range n).foldl (fun t k => t.onPos (b + k) (fun x => { x with bond := 3 }))
      (s2.onPos b (fun x => { x with stream := none, changed := false, inject := false }))

/-- A job of which no record is to be written is gone once every geode is released (R448). -/
def State.dropDone (s : State) : State :=
  s.onHub (fun h => { h with jobs := h.jobs.filter (fun j => !(j.discard && j.cause != 3 && j.geodes.all (fun g => j.done.contains g))) })

/-- JOB_RELEASE (R332) of one geode: cores halt, pages go back, BST is all 0xF, channels stop. The core of an eclipse that is
still in hand goes to its self-test; the activation of the lode that runs next gives its slot to the spare (R45). -/
def State.releaseGeode (s : State) (j : Job) (g : Nat) : State :=
  let bs := (s.boundAt j.id).filter (fun b => b / 4 == g)
  let s1 := bs.foldl (fun t b => (t.flushGap (.lane b)).unbind b) s
  let s2 := s1.onQuad g (fun q =>
    { q with streams := q.streams.map (fun m => match m with
        | some st => if st.job == j.id then none else m
        | none => none) })
  let s3 := (List.range 9).foldl (fun t k => t.onCoreAt (9 * g + k) (fun c => { leaveService c with tbl := [], tblE := {} })) s2
  let s4 := s3.onGeode g (fun x =>
    let y := (List.range 9).foldl (fun (z : Geode) k => clearTables z k (s3.coreAt (9 * g + k)).nextId) x
    { freePages y (y.statics ++ y.ctlPage.toList) with
             statics := [], ctlPage := none, bst := []
             bstE := { corr := y.bstE.corr.filter (256 ≤ ·), unc := y.bstE.unc.filter (256 ≤ ·) }
             lodeSlot := none, variant := 0, laneVar := [], lost := [], eclipse := none, mailbox := []
             eclipsed := y.eclipsed ++ ((y.eclipse.map (fun e => e.core)).toList.filter (fun c => !y.retired.contains c)) })
  ((s4.dmaStopAll (.geode (Fin.ofNat 8 g)) 1 (fun _ => true)).onJob j.id (fun x =>
    { x with done := if x.done.contains g then x.done else x.done ++ [g], state := .draining })).dropDone

/-! ### Eclipses, takeovers, variants (R44, R45, R334, R464) -/

/-- Fabric cycles of the geode's clock plan in units of 2⁻⁵⁶ s; out of service the highest fabric clock (R22). -/
def State.fabricTime (s : State) (g n : Nat) : Nat :=
  let mhz := match s.jobOn g with
    | some j => fabricMhz (s.lodeOf j.slot) (lodeGeode j g)
    | none => 1600
  n * 2 ^ 56 / (Nat.max 1 mhz * 1000000)

/-- The first beacon at or after `n` whose time is at or after `t`. -/
def firstBeaconAt (a : Aon) (n : U32) (t : Int) : U32 :=
  if t ≤ beaconTime a n then n
  else
    let b := beaconAt a t
    if t ≤ beaconTime a b then b else b + 1

/-- The eclipse's beacons (R44, R45): when its variant becomes current, and when the spare takes the slot. -/
def State.eclipsePlan (s : State) (g : Nat) (n : U32) : U32 × U32 :=
  let now : Int := now56 s.aon
  let from_ := if now + s.fabricTime g 256 ≤ beaconTime s.aon (n + 1) then n + 1 else n + 2
  let timg := match s.jobOn g with
    | some j => resTimg (s.lodeOf j.slot) (lodeGeode j g)
    | none => 0
  (from_, firstBeaconAt s.aon (n + 2) (now + s.fabricTime g timg))

/-- Whole seconds of device time. -/
def secNow (a : Aon) : Nat := a.time.toNat / 2 ^ 80

/-- The hub has told the supervisor that a variant of its lode applies from a beacon on (R40, R45). -/
def told (x : Geode) (v : Byte) (n : U32) : Bool :=
  x.mailbox.any (fun m => match m with
    | .lode _ u k => u == v && k == n
    | _ => false)

/-- The variant that governs a geode from beacon n on (R334, R336): of the slot lost last; of the eclipse in hand, up to its
takeover, unless that is at the beacon at which the variant would become current (R45); of a lane eclipse. -/
def variantAt (x : Geode) (n : U32) : Byte :=
  match (x.lost.filter (fun r => atOrAfter n r.2)).getLast? with
  | some r => byteOf (0x10 + r.1)
  | none =>
    let takeover := match x.eclipse with
      | some e =>
        let over_ := match e.takeover with | some t => atOrAfter n t && e.copied | none => false
        if atOrAfter n e.varFrom && !over_ && e.takeover != some e.varFrom then some (byteOf (0x10 + e.slot)) else none
      | none => none
    match takeover with
    | some v => v
    | none =>
      match x.laneVar.find? (fun v => atOrAfter n v.2.1 && told x v.1 v.2.1 &&
          (match v.2.2 with | some e => !(atOrAfter n e && told x 0 e) | none => true)) with
      | some v => v.1
      | none => 0

/-- Behind beacon n the supervisor stores the table of the variant that the next beacon makes current into BSTN (R45, R261),
and that with which frames resume there (R461). -/
def State.prepTable (s : State) (j : Job) (g : Nat) (n : U32) : State :=
  let x := s.geode g
  let v := variantAt x (n + 1)
  if x.lodeSlot.isSome && atOrAfter (n + 1) j.first && (v != x.variant || j.resumeAt == some (n + 1)) then
    s.loadBstn (s.lodeOf j.slot) g (lodeGeode j g) v.toNat
  else s

/-- A core waits for its self-test, unless it is retired (R464 step 6, R465). -/
def toSelfTest (x : Geode) (c : Nat) : Geode := if x.retired.contains c then x else { x with eclipsed := x.eclipsed ++ [c] }

/-- A role slot is without a core until release, its variant current from beacon `from_` on (R334, R336). -/
def loseSlot (x : Geode) (r : Nat) (from_ : U32) : Geode := { x with lost := x.lost ++ [(r, from_)] }

/-- The core of a role slot has failed (R44, R334, R336): between activation and first frame the spare takes the role as
part of activation; else the spare is prepared, or, without an available one, the slot is lost. -/
def State.roleFails (s : State) (j : Job) (g c r : Nat) (n : U32) : State :=
  let x := s.geode g
  let early := !atOrAfter n j.first
  let p := s.eclipsePlan g n
  let s1 := if early then s else s.markFrame j.id (frameAt j.k n) g none 1
  match x.spare, x.eclipse with
  | some sp, none =>
    if early then
      ((s1.onGeode g (fun y => toSelfTest (giveRole y r sp) c)).coreReset g sp).installRole (s.lodeOf j.slot) g (lodeGeode j g) r sp
    else
      s1.onGeode g (fun y =>
        { y with eclipse := some { slot := r, core := c, period := n, copied := false, takeover := some p.2, varFrom := p.1 } })
  | _, _ => s1.onGeode g (fun y => toSelfTest (loseSlot y r (if early then j.first else p.1)) c)

/-- The spare has failed (R336): the slot that it was to take is lost. -/
def State.spareFails (s : State) (g c : Nat) (n : U32) : State :=
  let p := s.eclipsePlan g n
  s.onGeode g (fun y =>
    let y1 := toSelfTest { y with spare := if y.spare = some c then none else y.spare } c
    match y.eclipse with
    | some e =>
      if y.spare = some c then
        toSelfTest (loseSlot { y1 with eclipse := none } e.slot (if e.takeover = some e.varFrom then p.1 else e.varFrom)) e.core
      else y1
    | none => y1)

/-- CORE_ECLIPSE (R464, R465, R336): why 1 uncorrectable error, 2 double fault, 3 watchdog. -/
def State.eclipseCore (s : State) (g c why : Nat) : State :=
  let x := s.geode g
  match s.jobOn g with
  | none => s
  | some j =>
    let n := x.beacon.getD 0
    let slot := if x.role.contains c && !(lostSlots x).contains (x.role.idxOf c) then some (x.role.idxOf c) else none
    let again := x.lastEclipse.any (fun e => e.1 == c && decide (secNow s.aon < e.2 + 3600))
    let s1 := (s.onCoreAt (9 * g + c) (fun k => if k.stop.isSome then k else stopCore k .halted)).log
      { kind := 0x0D, fn := byteOf j.fn, job := j.id, geode := byteOf g, unit := byteOf c, a := u32 why
        b := u32 (slot.getD 0xFF) }
    let s2 := s1.onGeode g (fun y =>
      { y with
        eclipses := ctrAdd 16 y.eclipses 1
        lastEclipse := y.lastEclipse.filter (fun e => e.1 != c) ++ [(c, secNow s.aon)] })
    let s3 := if again then
        (s2.onGeode g (fun y => { y with retired := y.retired ++ [c] })).log
          { kind := 0x0F, geode := byteOf g, unit := byteOf c, a := 1 }
      else s2
    let s4 := s3.raiseHub (1 + g)
    let s5 := match slot with
      | none => s4.spareFails g c n
      | some r => s4.roleFails j g c r n
    s5.prepTable j g n

/-- VARIANT_SWITCH (R334): channels stop, BSTN becomes BST as it stands, the variant's channels start. -/
def State.switchVariant (s : State) (j : Job) (g : Nat) (v : Byte) : State :=
  if (s.geode g).variant = v then s
  else
    let s1 := s.dmaStopAll (.geode (Fin.ofNat 8 g)) 1 (fun _ => true)
    let s2 := (s1.copyTable g).onGeode g (fun x => { x with variant := v })
    s2.startChannels (s.lodeOf j.slot) g (lodeGeode j g) v.toNat

/-- SPARE_TAKEOVER (R46 step 4, R464): the spare takes the slot at the takeover beacon, once its image is complete. -/
def State.takeover (s : State) (j : Job) (g : Nat) (n : U32) : State :=
  let x := s.geode g
  match x.eclipse, x.spare with
  | some e, some sp =>
    let due := match e.takeover with | some t => atOrAfter n t | none => false
    if due && e.copied then
      let s1 := s.onGeode g (fun y => toSelfTest { giveRole y e.slot sp with eclipse := none } e.core)
      (s1.serve j g e.slot sp).log
        { kind := 0x0E, fn := byteOf j.fn, job := j.id, geode := byteOf g, unit := byteOf sp, a := n, b := u32 e.slot }
    else s
  | _, _ => s

/-! ### The beacon's calibration step (R46 step 2, R405, R408, R411) -/

/-- The swap of a job at beacon n is decided: it occurs if some stream has a VALID shadow (R405). -/
def State.newSwap (s : State) (id : U16) (n : U32) (j : Job) : State × Bool :=
  if j.nextSwap = some n then
    let r := (s.boundAt id).any (fun b => match (s.pos b).stream with | some st => st.valid | none => false)
    (s.onJob id (fun x => { x with swapDec := some (n, r), gen := if r then x.gen + 1 else x.gen }), r)
  else (s, false)

/-- Whether the swap of a job at beacon n occurs: decided once for all geodes, when the beacon first arrives anywhere; the
generation advances with it (R405, R406, log entry 67). -/
def State.decideSwap (s : State) (id : U16) (n : U32) : State × Bool :=
  match s.jobOf id with
  | none => (s, false)
  | some j =>
    match j.swapDec with
    | some (b, r) => if b = n then (s, r) else s.newSwap id n j
    | none => s.newSwap id n j

/-- LIT flips for a stream with a VALID shadow; a hold ends with it (R405, R410). -/
def State.flipLit (s : State) (b : Nat) (n : U32) : State :=
  match (s.pos b).stream with
  | none => s
  | some st =>
    if !st.valid then s
    else (s.clearValid (b / 4) st st.lit).onStream b (fun x =>
      { x with lit := !x.lit, valid := false, unlit := some n, held := false, stale := false, cause := 0, holdDue := none
               staleLog := false })

/-- A hold that was detected shows (R408); STALE (R411, R412); the marks of the frame that opens (R409). -/
def State.showHold (s : State) (b : Nat) (n : U32) (j : Job) : State :=
  match (s.pos b).stream with
  | none => s
  | some st0 =>
    let opens := n.toNat % Nat.max 1 j.k == 0
    let st1 := match st0.holdDue with
      | some c => { st0 with held := true, cause := c, holdDue := none, heldAt := if st0.held then st0.heldAt else n }
      | none => st0
    let seeded := n == j.first && (match (s.pos b).est with | some e => e.source == .seed | none => false)
    let limit := lodeStale (s.lodeOf j.slot)
    let late := st1.held && opens && decide ((limit : Int) * j.k ≤ frameDiff n st1.heldAt)
    let st2 := { st1 with stale := st1.stale || seeded || late, staleLog := st1.staleLog || late }
    let s1 := s.onPos b (fun p => { p with stream := some st2 })
    let s2 := if late && !st1.staleLog then
        s1.log { kind := 0x26, fn := byteOf j.fn, job := j.id, geode := byteOf (b / 4), unit := byteOf b, a := n, b := u32 st2.bidx }
      else s1
    let bits : Byte := byteOf (b2n st2.held * 2 + b2n st2.stale * 4)
    if opens && bits != 0 && atOrAfter n j.first then s2.markFrame j.id n (b / 4) (some st2.bidx) bits else s2

/-- CALHDR_UPDATE (R398): words 0 to 2 of the area. -/
def State.writeCalhdr (s : State) (b : Nat) (gen : U16) : State :=
  match (s.pos b).stream with
  | none => s
  | some st =>
    let g := b / 4
    ((s.calWrite g st 0 (calHdr st ((s.pos b).inject && injects st))).calWrite g st 1 (gen.truncate 14)).calWrite g st 2
      (BitVec.ofNat 14 (gen.toNat / 2 ^ 14))

/-- Step 2 of R46 on one geode for one job. -/
def State.calStep (s : State) (j : Job) (g : Nat) (n : U32) : State :=
  if !(atOrAfter n (j.start + 1)) then s
  else
    let d := s.decideSwap j.id n
    let bs := (d.1.boundAt j.id).filter (fun b => b / 4 == g)
    let s1 := if d.2 then bs.foldl (fun t b => t.flipLit b n) d.1 else d.1
    let s2 := bs.foldl (fun t b => t.showHold b n j) s1
    let gen := match s2.jobOf j.id with | some x => x.gen | none => 0
    bs.foldl (fun t b => t.writeCalhdr b gen) s2

/-- CONTROL_PAGE_UPDATE (R333). -/
def State.controlPage (s : State) (j : Job) (g : Nat) (n : U32) : State :=
  match (s.geode g).ctlPage with
  | none => s
  | some p =>
    let v := n.toNat
    [((s.geode g).variant.toNat), v, v / 2 ^ 14, v / 2 ^ 28, v % Nat.max 1 j.k].zip (List.range 5) |>.foldl
      (fun t q => t.shmWrite g (4096 * p + q.2) (BitVec.ofNat 14 q.1)) s

end Sys2Proof.Machine
end

