-- ==== Sys2Proof/Machine/Paths.lean ====
section
/-! DEFINITION. The verifier's walk over a role's code (R322, R324): the charge of every path through it, and what
the claims of R323 must say of the accesses, loops and waits on it. A walk starts at an entry and follows every forward
transfer in ascending address order; a loop's body and a call's target are walked as parts of their own. Log entry 42
says where the spec leaves the walk open. -/

namespace Sys2Proof.Machine
open Sys2Proof

/-! ### What a walk is given, and what it finds -/

/-- What a walk is given: a core with the role's image and user decode table, the level, the image's length, the bounds
of CLAMP claims and the ranges of POINTER claims; that the unit stays powered (VPIN = 1), the cycles that handlers may take
between two bundles, that a dispatch point may change the running level, and, for a part that is charged by itself, the
points of wakes and lazy F sequences that the walks have found; and the fixed-timing regions. -/
structure PathCx where
  core  : Core
  tid   : Nat
  size  : Nat
  clamp : Nat → Option Nat
  ptr   : Nat → Option (Nat × Nat)
  vpin  : Bool := false
  away  : Nat := 0
  swaps : Bool := false
  found : Option (List Nat × List Nat) := none
  areas : List (Nat × Nat) := []

/-- A pending result of a unit: core cycles to go, and the registers that it writes (R68). -/
abbrev Owed := Option (Nat × List WName)

/-- What is known where a path has come: the least and the greatest charge, the results that units owe on the cheapest
and on the dearest path, the values that PB may have, the cycles since the last dispatch point and the longest such
wait, SIGNALs by line; address registers by selector (R225) with the least and the greatest value that they may have, and
with their residue by a divisor of 32; VL; the window accesses of the last cycles with their ages; the cycles after which
each entry of the store buffer has drained (R273); the cycles since the vector unit was last used, none where it may be
down; that no F use lies behind, or a dispatch point since the last one; and the bundles that a path comes from. -/
structure PathSt where
  lo   : Nat := 0
  hi   : Nat := 0
  dlo  : Owed := none
  dhi  : Owed := none
  flo  : Owed := none
  fhi  : Owed := none
  pb0  : Bool := false
  pb1  : Bool := true
  gap  : Nat := 0
  wait : Nat := 0
  sig  : List Nat := List.replicate 8 0
  regs : List (Nat × Nat × Nat) := []
  res  : List (Nat × Nat × Nat) := []
  vl   : Option Nat := none
  acc  : List (Nat × Nat) := []
  buf  : List Nat := []
  vage : Option Nat := none
  fnew : Bool := true
  fpt  : Bool := true
  from_ : List Nat := []
deriving DecidableEq, Repr

/-- What a walk notes at a syllable address. -/
inductive PathNote where
  /-- The structure of R322 is broken. -/
  | bad (a : Nat)
  /-- An access with the banks that it can reach. -/
  | access (a mask : Nat)
  /-- An access that is off plan (R259). -/
  | offPlan (a : Nat)
  /-- A load that competes for its slot with an earlier request (R257). -/
  | clash (a : Nat)
  /-- A LOOP or REP with its greatest count and its worst body. -/
  | loop (a count body : Nat)
  /-- A fixed-timing region entered with PB = 0, or holding BARP #0 (R86). -/
  | fixedBad (a : Nat)
  /-- A fixed-timing region is entered in this state. -/
  | enter (a : Nat) (p : PathSt)
  /-- Bn or Ln is written. -/
  | ptrWrite (a n : Nat)
  /-- The vector unit may be down where it is needed; an F use comes first behind a possible level change (R324). -/
  | wake (a : Nat)
  | lazyF (a : Nat)
deriving DecidableEq, Repr

/-- Where a path leaves a part of the code. -/
inductive PathEnd where
  | at (a : Nat)
  | tail
  | ret
  | park (a : Nat)
  | rte
deriving DecidableEq, Repr

/-- What a walk answers. -/
structure PathOut where
  notes : List PathNote := []
  ends  : List (PathEnd × PathSt) := []
deriving DecidableEq, Repr

/-! ### Joining paths -/

/-- The result owed on the dearest of two paths, and on the cheapest. -/
def owedMost : Owed → Owed → Owed
  | none, q => q
  | p, none => p
  | some p, some q => some (Nat.max p.1 q.1, (p.2 ++ q.2).eraseDups)
def owedLeast : Owed → Owed → Owed
  | some p, some q => some (Nat.min p.1 q.1, p.2.filter (fun n => q.2.contains n))
  | _, _ => none

/-- What a path knows of a register: its least and greatest value, its residue. -/
def PathSt.range (p : PathSt) (n : Nat) : Option (Nat × Nat) := (p.regs.find? (fun r => r.1 == n)).map (fun r => r.2)
def PathSt.reg (p : PathSt) (n : Nat) : Option Nat := (p.range n).bind (fun r => if r.1 = r.2 then some r.1 else none)
def PathSt.residue (p : PathSt) (n : Nat) : Option (Nat × Nat) :=
  match p.reg n with
  | some v => some (v % 32, 32)
  | none => (p.res.find? (fun r => r.1 == n)).map (fun r => r.2)

/-- Two residues, either of which a register may have. -/
def eitherRes : Option (Nat × Nat) → Option (Nat × Nat) → Option (Nat × Nat)
  | some (a, m), some (b, k) =>
    let g := Nat.gcd (Nat.gcd m k) (if a < b then b - a else a - b)
    if g < 2 then none else some (a % g, g)
  | _, _ => none

/-- Address registers by selector: A, M, B, L. -/
def allSels : List Nat := List.range 40

/-- Residues, and ranges, that hold on either of two paths. -/
def PathSt.joinRes (p q : PathSt) : List (Nat × Nat × Nat) :=
  allSels.filterMap (fun n => (eitherRes (p.residue n) (q.residue n)).map (fun r => (n, r)))
def PathSt.joinRegs (p q : PathSt) : List (Nat × Nat × Nat) :=
  allSels.filterMap (fun n => match p.range n, q.range n with
    | some a, some b => some (n, Nat.min a.1 b.1, Nat.max a.2 b.2)
    | _, _ => none)

/-- The later of two drains, entry by entry from the last. -/
def laterDrains (a b : List Nat) : List Nat :=
  let n := Nat.max a.length b.length
  let at_ := fun (l : List Nat) (k : Nat) => l.reverse.getD (n - 1 - k) 0
  (List.range n).map (fun k => Nat.max (at_ a k) (at_ b k))

/-- Two paths come to one place. -/
def PathSt.join (p q : PathSt) : PathSt :=
  { lo := Nat.min p.lo q.lo, hi := Nat.max p.hi q.hi
    dlo := owedLeast p.dlo q.dlo, dhi := owedMost p.dhi q.dhi
    flo := owedLeast p.flo q.flo, fhi := owedMost p.fhi q.fhi
    pb0 := p.pb0 || q.pb0, pb1 := p.pb1 || q.pb1
    gap := Nat.max p.gap q.gap, wait := Nat.max p.wait q.wait
    sig := (p.sig.zip q.sig).map (fun k => Nat.max k.1 k.2)
    regs := p.joinRegs q, res := p.joinRes q, vl := if p.vl = q.vl then p.vl else none
    acc := (p.acc ++ q.acc).eraseDups, buf := laterDrains p.buf q.buf
    vage := match p.vage, q.vage with | some a, some b => some (Nat.max a b) | _, _ => none
    fnew := p.fnew || q.fnew, fpt := p.fpt || q.fpt, from_ := (p.from_ ++ q.from_).eraseDups }

/-- The join of the states at one end. -/
def joinAll : List PathSt → Option PathSt
  | [] => none
  | p :: ps => some (ps.foldl PathSt.join p)

/-- Put a state at an address of the agenda. -/
def agendaAdd (a : Nat) (p : PathSt) : List (Nat × PathSt) → List (Nat × PathSt)
  | [] => [(a, p)]
  | q :: qs =>
    if a < q.1 then (a, p) :: q :: qs
    else if a = q.1 then (a, q.2.join p) :: qs
    else q :: agendaAdd a p qs

/-! ### Time -/

/-- A result owed, `k` cycles later. -/
def owedAfter (k : Nat) : Owed → Owed
  | some (r, ns) => if r ≤ k then none else some (r - k, ns)
  | none => none

/-- `l` and `h` cycles pass on the cheapest and the dearest path. -/
def PathSt.pass (p : PathSt) (l h : Nat) : PathSt :=
  { p with
    lo := p.lo + l, hi := p.hi + h
    dlo := owedAfter l p.dlo, dhi := owedAfter h p.dhi, flo := owedAfter l p.flo, fhi := owedAfter h p.fhi
    gap := p.gap + h
    acc := (p.acc.map (fun k => (k.1 + l, k.2))).filter (fun k => decide (k.1 < 5))
    buf := (p.buf.map (fun k => k - l)).filter (fun k => k != 0)
    vage := p.vage.map (fun k => k + h) }

/-- A dispatch point: the longest wait for one ends here (R127). -/
def PathSt.point (p : PathSt) : PathSt := { p with wait := Nat.max p.wait (p.gap - 1), gap := 0, fpt := true }

/-! ### Bundles -/

/-- A bundle as the walk reads it. -/
structure PathBundle where
  size : Nat
  ops  : List (Nat × Instr)
  outs : List OpOut
deriving DecidableEq, Repr

/-- The bundle at an address, its operations with their syllables (R58, R59). -/
def PathCx.bundle (x : PathCx) (a : Nat) : PathBundle :=
  let im := x.core.imem.cells
  let n := bundleSize im a
  let ops := (List.range n).flatMap (fun k =>
    (decodeSyllable (.sig 0 0) k (smGet im (a + k))).map (fun o => (k, o)))
  let c : IssueCtx := { c := x.core, tid := x.tid, t := x.core.threads.getD x.tid {}, pc := BitVec.ofNat 14 a, size := n }
  { size := n, ops := ops, outs := ops.map (fun p => opOut c p.2) }

/-- The operations of a bundle with the micro-operations of user decode operations in their place (R242). -/
def PathCx.flat (x : PathCx) (b : PathBundle) : List (Nat × Instr) :=
  b.ops.flatMap (fun p => match p.2 with
    | .userDecodeOperation i u p0 p1 p2 p3 =>
      (microOps i x.core.udt u.toNat [p0.toNat, p1.toNat, p2.toNat, p3.toNat]).filterMap (fun o => o.map (fun q => (p.1, q)))
    | o => [(p.1, o)])

/-- Cycles that a user decode operation adds to its bundle (R324). -/
def PathCx.microCycles (x : PathCx) (b : PathBundle) : Nat :=
  (b.ops.map (fun p => match p.2 with
    | .userDecodeOperation _ u _ _ _ _ => udtLen x.core.udt u.toNat - 1
    | _ => 0)).foldl Nat.max 0

/-- What a bundle does to control flow. -/
inductive PathFlow where
  | on
  | branch (annul : Bool) (tgt : Nat)
  | goto (tgt : Nat)
  | call (tgt : Nat) (window : Bool)
  | ret (window : Bool)
  /-- LOOP and REP: their count, none from a register; the tail; I. -/
  | loop (count : Option Nat) (tail : Nat)
  | rep (count : Option Nat) (intr : Bool)
  | barp (b : Bool)
  | flushp
  | waite
  | rte
  /-- JMP An, CALL An, CALLO An. -/
  | indirect
deriving DecidableEq, Repr

/-- The control flow of one operation of the bundle at `a`. -/
def flowOfOp (a : Nat) : Instr → Option PathFlow
  | .bCc _ _ n d => some (.branch n ((BitVec.ofNat 14 a + d.signExtend 14).toNat))
  | .bra _ _ d => some (.goto ((BitVec.ofNat 14 a + d).toNat))
  | .call _ _ d => some (.call ((BitVec.ofNat 14 a + d).toNat) false)
  | .callo _ _ d => some (.call ((BitVec.ofNat 14 a + d).toNat) true)
  | .jmp _ _ _ => some .indirect
  | .callAn _ _ _ => some .indirect
  | .calloAn _ _ _ => some .indirect
  | .ret _ _ => some (.ret false)
  | .reto _ _ => some (.ret true)
  | .loop _ (.imm c d) => some (.loop (some (c.toNat + 1)) (a + d.toNat))
  | .loop _ (.reg _ d) => some (.loop none (a + d.toNat))
  | .rep _ (.imm c i) => some (.rep (some (c.toNat + 1)) i)
  | .rep _ (.reg _ i) => some (.rep none i)
  | .barp _ b => some (.barp b)
  | .flushp _ => some .flushp
  | .waite _ => some .waite
  | .rte _ => some .rte
  | _ => none
def PathBundle.flow (a : Nat) (b : PathBundle) : PathFlow :=
  (b.ops.findSome? (fun p => flowOfOp a p.2)).getD .on

/-! ### Address registers and accesses -/

/-- A pointer moves without the circular correction (R251). -/
def PathSt.linear (p : PathSt) (n : Nat) : Bool := decide (8 ≤ n) || p.reg (32 + n) == some 0

/-- A range moved by a known step; one that would leave the address space is not known. -/
def stepRange (v : Option (Nat × Nat)) (m : Option Int) : Option (Nat × Nat) :=
  match v, m with
  | some (a, b), some k =>
    if 0 ≤ (a : Int) + k ∧ (b : Int) + k < 2 ^ 24 then some (((a : Int) + k).toNat, ((b : Int) + k).toNat)
    else if a = b then
      let v := (BitVec.ofInt 24 ((a : Int) + k)).toNat
      some (v, v)
    else none
  | _, _ => none

/-- A residue moved by a step of a residue; the circular correction adds or takes away Ln (R251). -/
def PathSt.stepRes (p : PathSt) (n : Nat) (m : Option (Nat × Nat)) : Option (Nat × Nat) :=
  match p.residue n, m with
  | some (a, k), some (b, j) =>
    let corr := if p.linear n then 32 else match p.residue (32 + n) with
      | some (l, i) => Nat.gcd l i
      | none => 1
    let g := Nat.gcd (Nat.gcd k j) corr
    if g < 2 then none else some ((a + b) % g, g)
  | _, _ => none

/-- What is known of a register: its range and its residue. -/
abbrev Known := Option (Nat × Nat) × Option (Nat × Nat)
def exactly (v : Nat) : Known := (some (v, v), some (v % 32, 32))

/-- M register of a path as a signed step. -/
def PathSt.mod (p : PathSt) (m : Nat) : Option Int := (p.reg (16 + m)).map (fun v => (BitVec.ofNat 24 v).toInt)

/-- An moved by a constant, and by Mm. -/
def PathSt.moved (p : PathSt) (n : Nat) (u : Option Int) : Known :=
  (if p.linear n then stepRange (p.range n) u else none, p.stepRes n (u.map (fun k => ((k % 32).toNat, 32))))
def PathSt.movedBy (p : PathSt) (n m : Nat) : Known :=
  (if p.linear n then stepRange (p.range n) (p.mod m) else none, p.stepRes n (p.residue (16 + m)))

/-- An after an access of mode AM with step u (R250), where it is known. -/
def PathSt.post (p : PathSt) (f : AMF) (u : Option Int) : List (Nat × Known) :=
  let n := f.an.toNat
  match f.am.toNat with
  | 1 => [(n, p.moved n u)]
  | 2 => [(n, p.moved n (u.map (fun k => -k)))]
  | 3 => [(n, p.movedBy n f.mm.toNat)]
  | _ => []

/-- Registers, by selector, to which an operation gives a value that the walk can say something of, or nothing. -/
def PathSt.sets (p : PathSt) : Instr → List (Nat × Known)
  | .amovl _ _ r i => [(r.toNat, exactly i.toNat)]
  | .amovh _ _ r i => [(r.toNat, match p.reg r.toNat with
      | some v => exactly (i.toNat * 4096 + v % 4096)
      | none => (none, p.residue r.toNat))]
  | .amv _ _ rd rs => [(rd.toNat, (p.range rs.toNat, p.residue rs.toNat))]
  | .aadd _ f => [(f.an.toNat, p.movedBy f.an.toNat f.mm.toNat)]
  | .aaddi _ _ n i => [(n.toNat, p.moved n.toNat (some i.toInt))]
  | .ld _ f => p.post f (some 1)
  | .ldD _ f => p.post f (some 2)
  | .st _ f => p.post f (some 1)
  | .stD _ f => p.post f (some 2)
  | .vld _ f => p.post f (p.vl.map (fun n => (n : Int)))
  | .vst _ f => p.post f (p.vl.map (fun n => (n : Int)))
  | _ => []

/-- The selector of a register name. -/
def selOf : WName → Option Nat
  | .a n => some n
  | .m n => some (16 + n)
  | .b n => some (24 + n)
  | .l n => some (32 + n)
  | _ => none

/-- VL behind an operation (R181). -/
def vlAfter (v : Option Nat) : Instr → Option Nat
  | .setvlImmediate _ f => some f.i.toNat
  | .setvl _ _ => none
  | .mvs _ _ sys true => if sys = 3 then none else v
  | _ => v

/-- What is known behind a bundle. -/
def PathSt.regsAfter (p : PathSt) (ops : List Instr) (outs : List OpOut) : PathSt :=
  let known := ops.flatMap p.sets
  let gone := (outs.flatMap (fun o => o.writes)).filterMap selOf ++ known.map (fun k => k.1)
  { p with
    regs := p.regs.filter (fun r => !gone.contains r.1) ++ known.filterMap (fun k => k.2.1.map (fun v => (k.1, v)))
    res := p.res.filter (fun r => !gone.contains r.1) ++ known.filterMap (fun k => k.2.2.map (fun v => (k.1, v)))
    vl := ops.foldl vlAfter p.vl }

/-- A memory access: its pointer, its mode, and how its words lie. -/
inductive Words where
  | run (n : Nat)
  | unit
  | strided
  | scattered
deriving DecidableEq, Repr
def accessOf : Instr → Option (Nat × Nat × Nat × Words)
  | .ld _ f => some (f.an.toNat, f.am.toNat, f.mm.toNat, .run 1)
  | .ldD _ f => some (f.an.toNat, f.am.toNat, f.mm.toNat, .run 2)
  | .st _ f => some (f.an.toNat, f.am.toNat, f.mm.toNat, .run 1)
  | .stD _ f => some (f.an.toNat, f.am.toNat, f.mm.toNat, .run 2)
  | .vld _ f => some (f.an.toNat, f.am.toNat, f.mm.toNat, .unit)
  | .vst _ f => some (f.an.toNat, f.am.toNat, f.mm.toNat, .unit)
  | .vlds _ f => some (f.an.toNat, 0, f.mm.toNat, .strided)
  | .vsts _ f => some (f.an.toNat, 0, f.mm.toNat, .strided)
  | .vldx _ f => some (f.an.toNat, 0, 0, .scattered)
  | .vstx _ f => some (f.an.toNat, 0, 0, .scattered)
  | _ => none

/-- Least and greatest displacement of an access's words; VL is at most 32 (R194). -/
def PathSt.extent (p : PathSt) (mm : Nat) : Words → Option (Int × Int)
  | .run n => some (0, (n : Int) - 1)
  | .unit => some (0, ((p.vl.getD 32 : Nat) : Int) - 1)
  | .scattered => some (0, 16383)
  | .strided => (p.mod mm).map (fun m =>
      let e := m * (((p.vl.getD 32 : Nat) : Int) - 1)
      (min 0 e, max 0 e))

/-- A gather or scatter (R194). -/
def isGather : Instr → Bool
  | .vldx _ _ => true
  | .vstx _ _ => true
  | _ => false

/-- An access that loads: the one that R257 puts on plan. -/
def isLoad : Instr → Bool
  | .ld _ _ => true
  | .ldD _ _ => true
  | .vld _ _ => true
  | .vlds _ _ => true
  | .vldx _ _ => true
  | _ => false

/-- The first address and the number of words that an access can reach, from constants and POINTER claims; none where
neither says. A displacement that leaves a claimed buffer by more than its length stays outside after its one correction
(R251). -/
def PathCx.reach (x : PathCx) (p : PathSt) (n am mm : Nat) (w : Words) : Option (Nat × Nat) :=
  let hull := fun (a b : Int) => if 0 ≤ a ∧ a ≤ b ∧ b < 2 ^ 24 then some (a.toNat, (b - a + 1).toNat) else none
  match p.extent mm w with
  | none => none
  | some (lo, hi) =>
    match (if n < 8 then x.ptr n else none) with
    | some (b, l) =>
      if l = 0 then none
      else if hi ≤ (l : Int) ∧ -(l : Int) ≤ lo then some (b, l)
      else hull ((b : Int) + lo) ((b : Int) + 2 * l + hi)
    | none =>
      if !p.linear n then none
      else match (if am = 4 then stepRange (p.range n) (p.mod mm) else p.range n) with
        | some (a, b) => hull ((a : Int) + lo) ((b : Int) + hi)
        | none => none

/-- The words of an access can lie in two rows (R195, R252, R259): in a run, by the residue of its first address; through a
circular pointer also where the buffer's end can lie inside the run. -/
def PathSt.twoRows (p : PathSt) (n am mm : Nat) (w : Words) : Bool :=
  let r := if am = 4 then p.stepRes n (p.residue (16 + mm)) else p.residue n
  let run := fun (k : Nat) =>
    if k ≤ 1 then false
    else match r with
      | none => true
      | some (a, m) =>
        let unbroken := p.linear n || (match p.residue (24 + n), p.residue (32 + n) with
          | some (b, i), some (l, j) =>
            decide (k ≤ Nat.gcd (Nat.gcd (Nat.gcd m i) (Nat.gcd j l)) (if a < b then b - a else a - b))
          | _, _ => false)
        !unbroken || decide (32 < a + m * ((31 - a) / m) + k)
  match w with
  | .run k => run k
  | .unit => run (p.vl.getD 32)
  | .scattered => true
  | .strided =>
    match p.extent mm w with
    | some (lo, hi) =>
      if lo = 0 ∧ hi = 0 then false
      else match r with
        | some (a, 32) => !(p.linear n && decide (0 ≤ (a : Int) + lo) && decide ((a : Int) + hi < 32))
        | _ => true
    | none => true

/-- Banks of the words from `a` on (R254), as a mask. -/
def bankMask (a k : Nat) : Nat :=
  let rows := (a % 32 + k + 31) / 32
  if 16 ≤ rows then 0xFFFF
  else ((List.range rows).map (fun r => (a / 32 + r) % 16)).foldl (fun m b => m ||| 2 ^ b) 0

/-- What an access can reach. -/
inductive Reach where
  | local_
  | window (mask : Nat)
  | global
deriving DecidableEq, Repr

/-- Classify a range of addresses (R245, R246). -/
def reachOf : Option (Nat × Nat) → Reach
  | none => .window 0xFFFF
  | some (a, k) =>
    if a + k ≤ 0x20000 then .local_
    else if 0x400000 ≤ a ∧ a + k ≤ 0x800000 then .window (bankMask a k)
    else if 0x800000 ≤ a then .global
    else .window 0xFFFF

/-- An access at syllable `a`: its notes, and what later accesses compete with (R257, R259). An access to a window whose
words can lie in two rows is off plan. -/
def PathCx.accessNote (x : PathCx) (a : Nat) (r : PathSt × List PathNote) (o : Instr) : PathSt × List PathNote :=
  let p := r.1
  match accessOf o with
  | none => r
  | some (n, am, mm, words) =>
    match reachOf (x.reach p n am mm words) with
    | .local_ => (p, r.2 ++ [.access a 0])
    | .global => (p, r.2 ++ [.access a 0, .offPlan a])
    | .window m =>
      ({ p with acc := p.acc ++ [(0, m)] },
       r.2 ++ [.access a m] ++ (if p.twoRows n am mm words then [.offPlan a] else []) ++
         (if isLoad o && p.acc.any (fun q => (q.2 &&& m) != 0) then [.clash a] else []))

/-- Core cycles after which a store-buffer entry has drained, at the latest, where it stands at the head (the budget of R257
up to its bank access), and behind the entry before it. -/
def drainFirst : Nat := 10
def drainNext : Nat := 5

/-- Store-buffer entries of an operation (R273); an access that may touch more rows is refused for that. -/
def PathCx.entries (x : PathCx) (p : PathSt) (o : Instr) : Nat :=
  match o with
  | .signal _ _ => 1
  | _ =>
    if isLoad o then 0
    else match accessOf o with
      | none => 0
      | some (n, am, mm, w) => if reachOf (x.reach p n am mm w) = .local_ then 0 else 1

/-- `e` entries enter the store buffer. -/
def enterBuf : Nat → List Nat → List Nat
  | 0, l => l
  | e + 1, l => enterBuf e (l ++ [match l.getLast? with | some k => Nat.max drainFirst (k + drainNext) | none => drainFirst])

/-! ### One bundle -/

/-- A state whose charges count from here. -/
def PathSt.fresh (p : PathSt) : PathSt := { p with lo := 0, hi := 0, sig := List.replicate 8 0 }

/-- Cycles that a bundle stalls for an owed result (R68). -/
def owedStall (w : Owed) (outs : List OpOut) (toUnit : Bool) : Nat :=
  match w with
  | none => 0
  | some (r, ns) => if toUnit || outs.any (fun o => ns.any (fun n => o.reads.contains n || o.writes.contains n)) then r else 0

/-- The registers that a bundle's operation of a unit owes, `lat` cycles on (R169, R213, R324). -/
def owedBy (outs : List OpOut) (fdiv : Bool) (lat : Nat) : Owed :=
  (outs.flatMap (fun o => o.acts)).findSome? (fun a => match a with
    | .unit f _ ws => if f == fdiv then some (lat, (ws.flatMap regNames).filter (· != .flags)) else none
    | _ => none)

/-- The vector unit may be down for the bundle at `a` (R182, R324): its last use may lie 258 cycles back, the handlers that
may have run in between counted. -/
def PathCx.mayWake (x : PathCx) (a : Nat) (p : PathSt) : Bool :=
  !x.vpin && (match x.found with
    | some l => l.1.contains a
    | none => match p.vage with
      | some k => decide (258 ≤ k + x.away)
      | none => true)

/-- The F use at `a` comes first behind a possible level change (R136, R324): the level's start, or a dispatch point at
which another level may be selected. -/
def PathCx.firstF (x : PathCx) (a : Nat) (p : PathSt) : Bool :=
  match x.found with
  | some l => l.2.contains a
  | none => p.fnew || (x.swaps && p.fpt)

/-- The bundle writes STAT, and so PB (R111). -/
def writesPb (ops : List (Nat × Instr)) : Bool :=
  ops.any (fun o => match o.2 with | .mvs _ _ sys dir => dir && sys == 0 | _ => false)

/-- The fixed-timing regions that hold an address. -/
def PathCx.areasOf (x : PathCx) (a : Nat) : List (Nat × Nat) := x.areas.filter (fun r => decide (r.1 ≤ a) && decide (a ≤ r.2))

/-- The bundle at `a` issues: its stalls and its cycle are charged (R324), its accesses and register writes noted. -/
def PathCx.issue (x : PathCx) (a : Nat) (b : PathBundle) (p : PathSt) : PathSt × List PathNote :=
  let acts := b.outs.flatMap (fun o => o.acts)
  let toD := acts.any isDiv
  let toF := acts.any isFdiv || b.outs.any (fun o => o.fwait)
  let vec := b.outs.any (fun o => o.vec)
  let fuse := b.outs.any (fun o => o.fuse)
  let wakes := vec && x.mayWake a p
  let lazies := fuse && x.firstF a p
  let fixed := (if wakes then 24 else 0) + (if lazies then 20 else 0)
  let l := Nat.max (owedStall p.dlo b.outs toD) (owedStall p.flo b.outs toF) + fixed
  let h := Nat.max (owedStall p.dhi b.outs toD) (owedStall p.fhi b.outs toF) + fixed
  let p1 := p.pass l h
  let ops := x.flat b
  let r := ops.foldl (fun q o => x.accessNote (a + o.1) q o.2) (p1, [])
  let ins := ops.map (fun o => (o.1, x.entries p1 o.2))
  let e := (ins.map (fun k => k.2)).sum
  let full := if 4 < p1.buf.length + e then ((ins.filter (fun k => k.2 != 0)).getLast?.map (fun k => PathNote.offPlan (a + k.1))).toList
    else []
  let d := owedBy b.outs false 9
  let f := owedBy b.outs true 10
  let window := b.ops.any (fun o => match flowOfOp a o.2 with
    | some (.call _ w) => w
    | some (.ret w) => w
    | _ => false)
  let stat := writesPb ops
  let p2 : PathSt := { r.1.regsAfter (ops.map (fun o => o.2)) b.outs with
    dlo := if d.isSome then d else r.1.dlo, dhi := if d.isSome then d else r.1.dhi
    flo := if f.isSome then f else r.1.flo, fhi := if f.isSome then f else r.1.fhi
    pb0 := p.pb0 || stat, pb1 := p.pb1 || stat
    buf := enterBuf e p1.buf
    vage := if vec then some 0 else p1.vage, fnew := p.fnew && !fuse, fpt := p.fpt && !fuse, from_ := [a]
    sig := (List.range 8).map (fun u => p.sig.getD u 0 + (ops.filter (fun o => match o.2 with
      | .signal _ c => c.toNat == u
      | _ => false)).length) }
  let k := 1 + x.microCycles b + (if window then 6 else 0)
  let ptrs := (b.outs.flatMap (fun o => o.writes)).filterMap (fun n => match n with
    | .b j => some (PathNote.ptrWrite a j)
    | .l j => some (PathNote.ptrWrite a j)
    | _ => none)
  let clears := b.ops.any (fun o => flowOfOp a o.2 == some (.barp false))
  let into := (x.areasOf a).any (fun t =>
    p.from_.isEmpty || p.from_.any (fun q => !(decide (t.1 ≤ q) && decide (q ≤ t.2))))
  (p2.pass k k, r.2 ++ ptrs ++ full ++ (if wakes then [.wake a] else []) ++ (if lazies then [.lazyF a] else []) ++
    (if !(x.areasOf a).isEmpty && (p.pb0 || clears) then [.fixedBad a] else []) ++
    (if into then [.enter a { p.fresh with gap := 0, wait := 0, regs := [], res := [], acc := [], buf := [], from_ := [] }] else []))

/-! ### Loops and repetitions -/

/-- Cycles of `n` repetitions, the first two of which may differ. -/
def timesOf (n d1 d2 d3 : Nat) : Nat :=
  match n with
  | 0 => 0
  | 1 => d1
  | k + 2 => d1 + d2 + k * d3

/-- A state with the charges of what came before. -/
def PathSt.after (p q : PathSt) (lo hi : Nat) (sig : List Nat) : PathSt :=
  { q with lo := p.lo + lo + q.lo, hi := p.hi + hi + q.hi
           sig := (List.range 8).map (fun u => p.sig.getD u 0 + sig.getD u 0 + q.sig.getD u 0) }

/-- What is known where the third of `n` repetitions begins, so that it stands for all that follow: registers that each
repetition moves by one step range over all of them. -/
def widen (n : Nat) (s1 s2 s3 : PathSt) : PathSt :=
  if n ≤ 3 then s3
  else
    { s3 with
      regs := s3.regs.filterMap (fun r => match s1.range r.1, s2.range r.1 with
        | some a, some b =>
          let d : Int := (b.1 : Int) - a.1
          let even := decide ((b.2 : Int) - a.2 = d) && decide ((r.2.1 : Int) - b.1 = d) && decide ((r.2.2 : Int) - b.2 = d)
          let far : Int := d * ((n : Int) - 1)
          let lo := (a.1 : Int) + min 0 far
          let hi := (a.2 : Int) + max 0 far
          if even && decide (0 ≤ lo) && decide (hi < 2 ^ 24) then some (r.1, lo.toNat, hi.toNat) else none
        | _, _ => none)
      res := allSels.filterMap (fun k =>
        (eitherRes (eitherRes (s1.residue k) (s2.residue k)) (s3.residue k)).map (fun r => (k, r)))
      vl := if s1.vl = s2.vl ∧ s2.vl = s3.vl then s3.vl else none }

/-- Repetitions of a part: from the state before, at most `n` of them (all of them where `exact`), each as `run` says,
with `bub` bubbles behind the first (R90). Answers the state behind the last, the ends that lie inside, the notes, and
the worst body. -/
def repeats (run : PathSt → PathOut) (p : PathSt) (n bub : Nat) (exact : Bool) :
    Option PathSt × List (PathEnd × PathSt) × List PathNote × Nat :=
  let tails := fun (o : PathOut) => joinAll ((o.ends.filter (fun e => e.1 == .tail)).map (fun e => e.2))
  let others := fun (o : PathOut) => o.ends.filter (fun e => e.1 != .tail)
  let zero : PathSt := {}
  let o1 := run p.fresh
  let first := tails o1
  let e1 := first.map (fun e => e.pass bub bub)
  let o2 := match e1 with | some e => if 2 ≤ n then run e.fresh else {} | none => {}
  let e2 := tails o2
  let o3 := match e1, e2 with
    | some a, some e => if 3 ≤ n then run (widen n p a e).fresh else {}
    | _, _ => {}
  let e3 := tails o3
  let d := fun (e : Option PathSt) => (e.getD zero)
  let lo := fun (k : Nat) => timesOf k (d e1).lo (d e2).lo (d e3).lo
  let hi := fun (k : Nat) => timesOf k (d e1).hi (d e2).hi (d e3).hi
  let sig := fun (k : Nat) => (List.range 8).map (fun u =>
    timesOf k ((d e1).sig.getD u 0) ((d e2).sig.getD u 0) ((d e3).sig.getD u 0))
  let last := if n = 1 then e1 else if n = 2 then e2 else e3
  let full := last.map (fun e => p.after e.fresh (lo n) (hi n) (sig n))
  let once := e1.map (fun e => p.after e.fresh (lo 1) (hi 1) (sig 1))
  let out := if exact then full else match full, once with
    | some f, some o => some (f.join o)
    | f, none => f
    | none, o => o
  let put := fun (k m : Nat) (o : PathOut) => (others o).map (fun e => (e.1, p.after e.2 (lo k) (hi m) (sig m)))
  (out, put 0 0 o1 ++ put 1 1 o2 ++ put 2 (n - 1) o3, o1.notes ++ o2.notes ++ o3.notes,
    Nat.max (d first).hi (Nat.max (d e2).hi (d e3).hi))

/-! ### The walk -/

/-- A state goes to an address: onto the agenda, or out of the part under walk. -/
def goPath (part : Option (Nat × Nat)) (a : Nat) (p : PathSt) (r : List (Nat × PathSt) × PathOut) :
    List (Nat × PathSt) × PathOut :=
  let inside := match part with
    | some (h, t) => decide (h ≤ a) && decide (a ≤ t)
    | none => true
  if inside then (agendaAdd a p r.1, r.2) else (r.1, { r.2 with ends := r.2.ends ++ [(.at a, p)] })

/-- A state goes on behind the bundle at `a`: to the next bundle, or out of the part by its tail. -/
def goBehind (part : Option (Nat × Nat)) (a next : Nat) (p : PathSt) (r : List (Nat × PathSt) × PathOut) :
    List (Nat × PathSt) × PathOut :=
  match part with
  | some (_, t) => if a = t then (r.1, { r.2 with ends := r.2.ends ++ [(.tail, p)] }) else goPath part next p r
  | none => goPath part next p r

/-- Notes are added; a path ends. -/
def PathOut.note (w : PathOut) (ns : List PathNote) : PathOut := { w with notes := (w.notes ++ ns).eraseDups }
def PathOut.stop (w : PathOut) (e : PathEnd) (p : PathSt) : PathOut := { w with ends := w.ends ++ [(e, p)] }

/-- A delay slot or a repeated bundle that holds a control-flow operation, or an event operation that waits, breaks the
structure (R76, R92, R322). -/
def strayFlow (a : Nat) (b : PathBundle) : List PathNote := if b.flow a = .on then [] else [.bad a]

/-- A transfer with its delay slot (R75): the state behind the slot. -/
def PathCx.slot (x : PathCx) (s : Nat) (p : PathSt) : PathSt × List PathNote :=
  let b := x.bundle s
  let r := x.issue s b p
  (r.1.point, r.2 ++ strayFlow s b)

/-- Ends of a part that its caller passes on: an address it leaves to is reached from there. -/
def passEnds (part : Option (Nat × Nat)) (es : List (PathEnd × PathSt)) (r : List (Nat × PathSt) × PathOut) :
    List (Nat × PathSt) × PathOut :=
  es.foldl (fun q e => match e.1 with
    | .at a => goPath part a e.2 q
    | k => (q.1, q.2.stop k e.2)) r

/-- Walk the agenda in ascending address order. `calls` holds the entries of the calls under way (R322: no recursion),
`part` the first and last bundle of the loop body or region under walk. -/
def PathCx.walk (x : PathCx) : Nat → List Nat → Option (Nat × Nat) → List (Nat × PathSt) → PathOut → PathOut
  | 0, _, _, _, w => w.note [.bad 0]
  | _ + 1, _, _, [], w => w
  | fuel + 1, calls, part, (a, p0) :: rest, w =>
    if x.size ≤ a then x.walk fuel calls part rest (w.note [.bad a])
    else
      let b := x.bundle a
      let i := x.issue a b p0
      let p := i.1
      let w1 := w.note i.2
      let s := a + b.size
      let go := fun (r : List (Nat × PathSt) × PathOut) => x.walk fuel calls part r.1 r.2
      let bad := x.walk fuel calls part rest (w1.note [.bad a])
      match b.flow a with
      | .on => go (goBehind part a s p.point (rest, w1))
      | .barp v => go (goBehind part a s ({ p.point with pb0 := !v, pb1 := v }.pass 4 4) (rest, w1))
      | .flushp => go (goBehind part a s (p.point.pass 4 4) (rest, w1))
      | .branch annul tgt =>
        let r := x.slot s p
        let n := s + (x.bundle s).size
        let off := (if annul then (p.pass 1 1).point else r.1).pass (if p.pb1 then 0 else 4) (if p.pb0 then 4 else 0)
        let w2 := (goBehind part s n off (rest, w1.note r.2))
        if tgt ≤ a then x.walk fuel calls part w2.1 (w2.2.note [.bad a])
        else go (goPath part tgt (r.1.pass 4 4) w2)
      | .goto tgt =>
        let r := x.slot s p
        if tgt ≤ a then bad else go (goPath part tgt (r.1.pass 1 1) (rest, w1.note r.2))
      | .call tgt _ =>
        let r := x.slot s p
        if calls.contains tgt then bad
        else
          let q := x.walk fuel (tgt :: calls) none [(tgt, r.1.pass 1 1)] {}
          let w2 := w1.note (r.2 ++ q.notes)
          let back := joinAll ((q.ends.filter (fun e => e.1 == .ret)).map (fun e => e.2))
          let up := passEnds part (q.ends.filter (fun e => e.1 != .ret)) (rest, w2)
          match back with
          | some e => go (goPath part (s + (x.bundle s).size) { e with from_ := [s] } up)
          | none => go up
      | .ret _ =>
        let r := x.slot s p
        if calls.isEmpty then bad else x.walk fuel calls part rest ((w1.note r.2).stop .ret (r.1.pass 4 4))
      | .loop count tail =>
        match (match count with | some n => some n | none => x.clamp a) with
        | none => bad
        | some n =>
          let reg := count.isNone
          let t := tail + bundleSize x.core.imem.cells tail
          let bub := loopBubbles x.core.imem.cells reg s tail
          let run := fun (q : PathSt) => x.walk fuel calls (some (s, tail)) [(s, q)] {}
          let r := repeats run p.point n bub (!reg)
          let w2 := (passEnds part r.2.1 (rest, w1.note (r.2.2.1 ++ [.loop a n r.2.2.2])))
          let skip := if reg then [(p.point.pass 5 5)] else []
          match joinAll ((if n = 0 then [] else r.1.toList) ++ skip) with
          | some e => go (goBehind part tail t e w2)
          | none => go w2
      | .rep count intr =>
        match (match count with | some n => some n | none => x.clamp a) with
        | none => bad
        | some n =>
          let reg := count.isNone
          let rb := x.bundle s
          let run := fun (q : PathSt) =>
            let r := x.issue s rb q
            { notes := r.2 ++ strayFlow s rb, ends := [(.tail, if intr then r.1.point else r.1)] }
          let r := repeats run p n 0 (!reg)
          let w2 := w1.note (r.2.2.1 ++ [.loop a n r.2.2.2])
          let long := fun (e : PathSt) => if intr then e.point else { e with gap := p.gap + n * r.2.2.2 }.point
          let skip := if reg then [(p.pass 1 1).point] else []
          match joinAll ((if n = 0 then [] else (r.1.map long).toList) ++ skip) with
          | some e => go (goBehind part s (s + rb.size) e (rest, w2))
          | none => x.walk fuel calls part rest w2
      | .waite => if x.tid = 1 then x.walk fuel calls part rest (w1.stop (.park a) p.point) else bad
      | .rte => if x.tid = 2 then x.walk fuel calls part rest (w1.stop .rte p.point) else bad
      | .indirect => bad

/-- More steps than any walk over an image of 16,384 syllables takes in one chain. -/
def walkFuel : Nat := 1000000

/-- The walk from an entry. -/
def PathCx.from (x : PathCx) (a : Nat) (p : PathSt) : PathOut := x.walk walkFuel [] none [(a, p)] {}

/-! ### Straight runs of bundles -/

/-- The bundles from `a` on, `n` at most, up to and with the first that transfers control (R323, BLOCK). -/
def PathCx.straight (x : PathCx) : Nat → Nat → List (Nat × PathBundle)
  | 0, _ => []
  | n + 1, a =>
    if x.size ≤ a then []
    else
      let b := x.bundle a
      if b.flow a = .on then (a, b) :: x.straight n (a + b.size) else [(a, b)]

/-- The charge of a transfer with an outcome that is not known (R102, R324). -/
def flowCharge : PathFlow → Nat
  | .on => 0
  | .branch _ _ => 4
  | .goto _ => 1
  | .call _ _ => 1
  | .ret _ => 4
  | .barp _ => 4
  | .flushp => 4
  | .indirect => 4
  | _ => 0

/-- The charge of the block from `first` to `last` (R323, R324): none where decoding does not reach `last`, or meets a
transfer before `last` or the bundle whose delay slot `last` is. -/
def PathCx.blockCharge (x : PathCx) (first last : Nat) : Option Nat :=
  let bs := x.straight 16384 first
  let upTo := bs.takeWhile (fun p => decide (p.1 ≤ last))
  let sum := fun (l : List (Nat × PathBundle)) => (l.foldl (fun p b => (x.issue b.1 b.2 p).1) ({} : PathSt)).hi
  match upTo.getLast? with
  | none => none
  | some (a, b) =>
    if a = last then some (sum upTo + flowCharge (b.flow a))
    else if a + b.size = last ∧ b.flow a ≠ .on then
      some (sum (upTo ++ [(last, x.bundle last)]) + flowCharge (b.flow a))
    else none

end Sys2Proof.Machine
end

