-- ==== Sys2Proof/Machine/Verify.lean ====
section
/-! DEFINITION. The verifier's steps 7 to 9 (R321): certified paths and fixed-timing regions (R322, R329), claims
(R323–R325), and DMA channels and bank-slot tables (R257, R281, R300, R305, R311); and the verifier as a whole. Log entry 42
names each reading taken here. -/

namespace Sys2Proof.Machine
open Sys2Proof

/-! ### A role and its walks -/

/-- VARIANT values of a lode: the main lode's, then each variant's, ascending (R321). -/
def lodeVariants (c : List Byte) : List Nat := (sects c).foldl (fun l s => insAsc l s.var) [0]

/-- Consecutive words as a sparse array. -/
def wordsMap (w : Nat) (us : List Nat) : SMap w :=
  ((List.range us.length).zip (us.map (BitVec.ofNat w))).filter (fun p => p.2 != 0#w)

/-- A system register as a role's core-register section leaves it: its value there, or its reset value (R314, R121). -/
def roleReg (c : List Byte) (g s n : Nat) : Nat :=
  let u := sectUnits c 5 g s 0
  match ((List.range (u.length / 2)).filter (fun k => u.getD (2 * k) 0 == n)).getLast? with
  | some k => u.getD (2 * k + 1) 0
  | none => if 0x80 ≤ n then 2 else 0

/-- Event lines that a role's level L2 handles: EN = 1 and LVL = 10 (R121, R323). -/
def roleLines (c : List Byte) (g s : Nat) : List Nat :=
  (List.range 32).filter (fun n => roleReg c g s (0x80 + n) % 8 == 6)

/-- Fixed-timing regions of a role: first and last syllable address (R86, R314). -/
def roleRegions (c : List Byte) (g s : Nat) : List (Nat × Nat) :=
  let b := sectBody c 0xA g s 0
  (List.range (b.length / 4)).map (fun k => (leAt b (4 * k) 2, leAt b (4 * k + 2) 2))

/-- A signal core that holds a role's image and user decode table (R314, R331). -/
def roleCore (c : List Byte) (g s : Nat) : Core :=
  { Core.signalReset with
    imem := { cells := wordsMap 28 (sectUnits c 1 g s 0) }
    udt := wordsMap 14 (sectUnits c 4 g s 0) }

/-- Claims of one kind: KIND, LEVEL, A, B, C. -/
def claimsOf (c : List Byte) (g s var kind : Nat) : List (Nat × Nat × Nat × Nat × Nat) :=
  (claims c g s var).filter (fun k => k.1 == kind)

/-- Core cycles that handlers of level L2 may take between two bundles of level L1: each line's once (R127, R324). -/
def handlerCycles (c : List Byte) (g s var : Nat) : Nat :=
  ((claimsOf c g s var 7).map (fun k => 5 + k.2.2.2.1 + 5)).sum

/-- What a walk over a level of a role is given. POINTER claims speak of the bank of level L1 (R323); VPIN = 1 leaves no
point where the vector unit may be down (R324); level L2 is selected at a dispatch point of level L1 where the role has
lines for it. -/
def roleCx (c : List Byte) (g s var level : Nat) : PathCx :=
  let clamps := (claimsOf c g s var 4).map (fun k => (k.2.2.1, k.2.2.2.1))
  let ptrs := (claimsOf c g s var 5).map (fun k => (k.2.2.1, k.2.2.2))
  { core := roleCore c g s
    tid := level
    size := (sectUnits c 1 g s 0).length
    clamp := fun a => (clamps.find? (fun k => k.1 == a)).map (fun k => k.2)
    ptr := fun n => if level = 1 then (ptrs.find? (fun k => k.1 == n)).map (fun k => k.2) else none
    vpin := roleReg c g s 0x20 / 2 ^ 11 % 2 == 1
    away := if level = 1 then handlerCycles c g s var else 0
    swaps := level == 1 && !(roleLines c g s).isEmpty
    areas := roleRegions c g s }

/-- The walk from a level's entry: PB = 1 as the core's reset leaves it (R85), and PB = 0 too where a path leaves it so
for the next frame or handler. -/
def levelWalk (x : PathCx) (entry : Nat) : PathOut :=
  let w := x.from entry {}
  if w.ends.any (fun e => e.2.pb0) then x.from entry { pb0 := true } else w

/-- A role's walks: of level L1 and, where a line needs it, of level L2. -/
structure RoleWalk where
  slot  : Nat
  entry : Option Nat
  l2vec : Nat
  lines : List Nat
  one   : PathOut
  two   : PathOut

/-- Walk a role's certified paths (R322). -/
def roleWalk (c : List Byte) (g s var : Nat) : RoleWalk :=
  let entry := ((claimsOf c g s var 1).find? (fun k => k.2.1 == 1)).map (fun k => k.2.2.1)
  let l2 := roleReg c g s 0x21
  let lines := roleLines c g s
  { slot := s, entry := entry, l2vec := l2, lines := lines
    one := match entry with
      | some a => levelWalk (roleCx c g s var 1) a
      | none => {}
    two := if lines.isEmpty then {} else levelWalk (roleCx c g s var 2) l2 }

/-- The longest path of a walk, its longest wait for a dispatch point, and its most SIGNALs of a line. -/
def PathOut.longest (w : PathOut) : Nat := (w.ends.map (fun e => e.2.hi)).foldl Nat.max 0
def PathOut.wait (w : PathOut) : Nat := (w.ends.map (fun e => e.2.wait)).foldl Nat.max 0
def PathOut.signals (w : PathOut) (u : Nat) : Nat := (w.ends.map (fun e => e.2.sig.getD u 0)).foldl Nat.max 0

/-- Role slots of a geode whose code runs under a variant: a takeover variant of a slot runs without that slot's role
(R44, R334). -/
def runningRoles (c : List Byte) (g var : Nat) : List Nat := (rolesOf c g).filter (fun s => var != 0x10 + s)

/-- A refusal about a role: its certificate's section, the claim, the place. -/
def roleRefuse (c : List Byte) (g s var reason : Nat) (place : Nat := 0) (claimed : Nat := 0) (found : Nat := 0)
    (claim : Nat := 0xFFFFFFFF) : Refused :=
  let sect := match findSect c 9 g s var with
    | some x => x.idx
    | none => 0xFFFF
  refuse reason sect g s var place claimed found claim

/-! ### Step 6: stores into the host DMA control area (R281) -/

/-- Every operation of an image with its syllable, micro-operations in the place of user decode operations. -/
def PathCx.allOps (x : PathCx) : Nat → Nat → List (Nat × Instr)
  | 0, _ => []
  | n + 1, a =>
    if x.size ≤ a then []
    else
      let b := x.bundle a
      (x.flat b).map (fun o => (a + o.1, o.2)) ++ x.allOps n (a + b.size)

/-- What code may put into an address register: bits 23:12 of constants, anything, or that the register is stepped. -/
structure AVal where
  highs   : List Nat := [0]
  any     : Bool := false
  stepped : Bool := false
deriving DecidableEq, Repr

/-- One operation's writes of A registers: constants, copies, steps, and values of which the code says nothing. -/
def aWrites (vals : List AVal) (o : Instr) : List (Nat × AVal) :=
  let step := fun (n : Nat) => [(n, ({ highs := [], stepped := true } : AVal))]
  let sel := fun (r : Nat) (v : AVal) => if r < 16 then [(r, v)] else []
  match o with
  | .amovl _ _ r _ => sel r.toNat { }
  | .amovh _ _ r i => sel r.toNat { highs := [i.toNat] }
  | .amv _ _ rd rs => sel rd.toNat (if rs.toNat < 16 then vals.getD rs.toNat {} else { any := true })
  | .mvad _ f => if f.b = 0 then [(f.y.toNat, { any := true })] else []
  | .aadd _ f => step f.an.toNat
  | .aaddi _ _ n _ => step n.toNat
  | o => match accessOf o with
    | some (n, am, _, w) => if am ≠ 0 ∨ w = .strided ∨ w = .scattered then step n else []
    | none => []

/-- The values of every A register, whatever the order in which the code runs. -/
def aVals (ops : List Instr) : Nat → List AVal
  | 0 => List.replicate 16 {}
  | n + 1 =>
    let vals := aVals ops n
    (ops.flatMap (aWrites vals)).foldl (fun l w => modAt l w.1 (fun v =>
      { highs := (v.highs ++ w.2.highs).eraseDups, any := v.any || w.2.any, stepped := v.stepped || w.2.stepped })) vals

/-- A store through such a register can reach the host DMA control area 0x87F000–0x87F3FF: a constant there, a constant of
hub memory that is stepped, or a value of which the code says nothing. Steps are taken to stay in their window (log entry
42). -/
def reachesCcb (v : AVal) : Bool :=
  v.any || v.highs.any (fun h => h == 0x87F || (v.stepped && decide (0x800 ≤ h) && decide (h < 0x880)))

/-- A store of a role's code that can write the host DMA control area. -/
def ccbStore (x : PathCx) : Option Nat :=
  let ops := x.allOps x.size 0
  let vals := aVals (ops.map (fun o => o.2)) 16
  ops.findSome? (fun o => match accessOf o.2 with
    | some (n, _, _, _) => if !isLoad o.2 && reachesCcb (vals.getD n {}) then some o.1 else none
    | none => none)

/-- No code of the lode can write the host DMA control area. -/
def checkStores (c : List Byte) : Option Refused :=
  (List.range (lodeG c)).findSome? (fun g => (rolesOf c g).findSome? (fun s =>
    (ccbStore (roleCx c g s 0 1)).map (fun a =>
      refuse 0x10 (match findSect c 1 g s 0 with | some x => x.idx | none => 0xFFFF) g s 0 a)))

/-! ### Step 7: certified paths (R322) -/

/-- The first place where a walk's structure is broken. -/
def PathOut.badAt (w : PathOut) : Option Nat :=
  w.notes.findSome? (fun n => match n with | .bad a => some a | _ => none)
def PathOut.fixedBadAt (w : PathOut) : Option Nat :=
  w.notes.findSome? (fun n => match n with | .fixedBad a => some a | _ => none)

/-- The first answer of a list. -/
def firstSomeOf {α : Type} (l : List (Option α)) : Option α := l.findSome? id

/-- The checkpoint of a role: the one WAITE at which its level L1 paths end. -/
def PathOut.parks (w : PathOut) : List Nat :=
  (w.ends.filterMap (fun e => match e.1 with | .park a => some a | _ => none)).eraseDups

/-! #### Fixed-timing regions (R86) -/

/-- A region holds BARP #0. -/
def holdsBarp0 (x : PathCx) (r : Nat × Nat) : Bool :=
  (List.range (r.2 + 1 - r.1)).any (fun k =>
    (decodeSyllable (.sig 0 0) 0 (smGet x.core.imem.cells (r.1 + k))).any (fun i => match i with
      | .barp _ b => !b
      | _ => false))

/-- The image can clear PB: it holds BARP #0, or a write of STAT. -/
def clearsPb (x : PathCx) : Bool :=
  holdsBarp0 x (0, x.size - 1) || (List.range x.size).any (fun a =>
    writesPb ((decodeSyllable (.sig 0 0) 0 (smGet x.core.imem.cells a)).map (fun i => (0, i))))

/-- Where a bundle of code that is not certified may go, with PB; a delay slot first. None: anywhere. -/
def looseNext (x : PathCx) (a : Nat) (pb : Bool) : Option (List (Nat × Bool)) :=
  let b := x.bundle a
  let s := a + b.size
  let n := s + (x.bundle s).size
  let ons := if writesPb (x.flat b) then [true, false] else [pb]
  let goes := fun (ts : List Nat) => some (ts.flatMap (fun t => ons.map (fun v => (t, v))))
  match b.flow a with
  | .barp v => some [(s, v)]
  | .branch _ t => goes [s, t]
  | .goto t => goes [s, t]
  | .call t _ => some ((goes [s, t]).getD [] ++ [(n, true), (n, false)])
  | .ret _ => goes [s]
  | .indirect => none
  | .rte => some []
  | _ => goes [s]

/-- Addresses that code at level L0 may reach from its entry, with PB. None where an indirect transfer lets it go anywhere. -/
def looseReach (x : PathCx) : Nat → List (Nat × Bool) → List (Nat × Bool) → Option (List (Nat × Bool))
  | 0, _, seen => some seen
  | _ + 1, [], seen => some seen
  | n + 1, p :: rest, seen =>
    if seen.contains p || decide (x.size ≤ p.1) then looseReach x n rest seen
    else match looseNext x p.1 p.2 with
      | none => none
      | some ts => looseReach x n (ts ++ rest) (p :: seen)

/-- Level L0 can enter a region with PB = 0 (R86): where the image can clear PB at all, from the entry that the role gives
level L0. -/
def looseEntry (c : List Byte) (g var : Nat) (s : Nat) : Option Nat :=
  let x := roleCx c g s var 0
  let regions := roleRegions c g s
  if regions.isEmpty || !clearsPb x then none
  else match (claimsOf c g s var 1).find? (fun k => k.2.1 == 0) with
    | none => none
    | some k => match looseReach x (8 * (x.size + 1)) [(k.2.2.1, true)] [] with
      | none => (regions.head?).map (fun r => r.1)
      | some l => (l.find? (fun p => !p.2 && !(x.areasOf p.1).isEmpty)).map (fun p => p.1)

/-- A place where a role breaks R86: a region with BARP #0 in it, or entered with PB = 0. -/
def regionBad (c : List Byte) (g var : Nat) (r : RoleWalk) : Option Nat :=
  let x := roleCx c g r.slot var 1
  match (roleRegions c g r.slot).find? (holdsBarp0 x) with
  | some p => some p.1
  | none => firstSomeOf [r.one.fixedBadAt, r.two.fixedBadAt, looseEntry c g var r.slot]

/-- Step 7 for a role. -/
def checkStructure (c : List Byte) (g var : Nat) (r : RoleWalk) : Option Refused :=
  let no := fun (reason place : Nat) => some (roleRefuse c g r.slot var reason place)
  match r.entry with
  | none => no 0x0B 0
  | some e =>
    match r.one.badAt, r.one.parks with
    | some a, _ => no 0x0C a
    | none, [] => no 0x0C e
    | none, _ :: b :: _ => no 0x0C b
    | none, [_] =>
      if !r.lines.isEmpty && (r.two.badAt.isSome || r.two.ends.isEmpty) then no 0x0C (r.two.badAt.getD r.l2vec)
      else match regionBad c g var r with
        | some a => no 9 a
        | none => none

/-! ### Step 8: claims (R323–R325, R329) -/

/-- Four times the core clock in Hz: 5/4 of the fabric clock (R328). -/
def fcore4 (c : List Byte) (g : Nat) : Nat := 5 * fabricMhz c g * 1000000

/-- The left side of R325: FRAME's bound, the beacon charge with the longest wait for a dispatch point (R127, R324), the
L0 window, and the other lines' handlers. -/
def frameLeft (c : List Byte) (g var : Nat) (r : RoleWalk) (frame : Nat) : Nat :=
  let hs := (claimsOf c g r.slot var 7).map (fun k => k.2.2)
  let beacon := ((hs.find? (fun h => h.1 == 0)).map (fun h => h.2.1)).getD 0
  let others := ((hs.filter (fun h => h.1 != 0)).map (fun h => h.2.2 * (5 + h.2.1 + 5))).sum
  let charge := 5 + 4 + (5 + Nat.max r.one.wait r.two.wait) + beacon + 5
  let window := roleReg c g r.slot 0x24 % 2 ^ 14 * 16
  frame + lodeK c * (charge + window) + lodeK c * others

/-- The right side of R325. -/
def frameRight (c : List Byte) (g : Nat) : Nat :=
  998 * fcore4 c g * lodeK c * lodeF c / (4000 * Nat.max 1 (lodeFs c))

/-- L0WIN gives at least 5% of a beacon period (R125, R325): the window closes where the next beacon arrives. Core cycles are
compared times 4 × FS, so that the period is exact. -/
def l0WindowOk (c : List Byte) (g s : Nat) : Bool :=
  let v := roleReg c g s 0x24
  let period := fcore4 c g * lodeF c
  let cycles := fun (n : Nat) => n * (4 * Nat.max 1 (lodeFs c))
  decide (period ≤ 20 * Nat.min (cycles (v % 2 ^ 14 * 16)) (period - cycles (v / 2 ^ 14 * 64)))

/-- A requester owns a bank in at least one of every four consecutive columns (R257). -/
def ownsBank (table : List Nat) (who bank : Nat) : Bool :=
  (List.range 16).all (fun k => (List.range 4).any (fun j => table.getD (16 * ((k + j) % 16) + bank) 0xF == who))

/-- Banks of a mask. -/
def maskBanks (m : Nat) : List Nat := (List.range 16).filter (fun b => m / 2 ^ b % 2 == 1)

/-- Masks that the accesses at a syllable can reach, on either level. -/
def RoleWalk.reachAt (r : RoleWalk) (a : Nat) : Option Nat :=
  match (r.one.notes ++ r.two.notes).filterMap (fun n => match n with
    | .access b m => if b = a then some m else none
    | _ => none) with
  | [] => none
  | m :: ms => some (ms.foldl (· ||| ·) m)

/-- A BANKS claim (R195, R257, R259, R323): of a gather or scatter that stays in X or Y memory the declared rows may be any. -/
def banksReason (c : List Byte) (g var : Nat) (r : RoleWalk) (a mask rows : Nat) : Option Nat :=
  let x := roleCx c g r.slot var 1
  let m := r.reachAt a
  let gather := (List.range 8).any (fun k => decide (k ≤ a) &&
    (x.flat (x.bundle (a - k))).any (fun o => o.1 == k && isGather o.2))
  let clash := (r.one.notes ++ r.two.notes).contains (.clash a)
  let off := (r.one.notes ++ r.two.notes).contains (.offPlan a)
  if off then some 0x0F
  else if rows ≠ 1 ∧ !(gather && m == some 0) then some 0x0F
  else if 2 ^ 16 ≤ mask ∨ (m.getD 0 ||| mask) ≠ mask then some 0x0E
  else if clash ∨ !(maskBanks mask).all (ownsBank (sectUnits c 7 g 0xFF var) r.slot) then some 0x0E
  else none

/-- Syllable addresses at which a block may be entered: targets of transfers, loop heads, and the entries. -/
def leaders (x : PathCx) (entries : List Nat) : List Nat :=
  let step := fun (s : List Nat × Nat) =>
    if x.size ≤ s.2 then s
    else
      let b := x.bundle s.2
      let next := s.2 + b.size
      (s.1 ++ (match b.flow s.2 with
        | .branch _ t => [t]
        | .goto t => [t]
        | .call t _ => [t, next + bundleSize x.core.imem.cells next]
        | .loop _ t => [next, t + bundleSize x.core.imem.cells t]
        | _ => []), next)
  ((List.range x.size).foldl (fun s _ => step s) (entries, 0)).1

/-- The bundles of the block that ends before `a`, last first: up to a transfer or an address that is entered. -/
def blockBefore (x : PathCx) (heads : List Nat) : Nat → Nat → List (Nat × PathBundle)
  | 0, _ => []
  | n + 1, a =>
    if a = 0 ∨ heads.contains a then []
    else
      let back := ((List.range 8).find? (fun k => decide (a < k + 2) || bitOf (smGet x.core.imem.cells (a - 2 - k)) 27)).getD 7
      let s := a - 1 - back
      let b := x.bundle s
      if b.flow s = .on then (s, b) :: blockBefore x heads n s else []

/-- The count register of the LOOP or REP at `a`. -/
def countReg (x : PathCx) (a : Nat) : Option Nat :=
  (x.bundle a).ops.findSome? (fun p => match p.2 with
    | .loop _ (.reg d _) => some d.toNat
    | .rep _ (.reg d _) => some d.toNat
    | _ => none)

/-- CLAMP's pattern (R323): MINU Ds, Ds, Dt in the bundle before, MOVI Dt, #bound in the same block, and no later write of
Ds or Dt but the MINU's own. -/
def clampOk (x : PathCx) (entries : List Nat) (a bound : Nat) : Bool :=
  let t := x.core.threads.getD x.tid {}
  match countReg x a, blockBefore x (leaders x entries) 16384 a with
  | some s, (_, b) :: before =>
    b.ops.any (fun p => match p.2 with
      | .minu _ f =>
        f.x.toNat == s && f.y.toNat == s &&
          (b.outs.flatMap (fun o => o.writes)).all (fun n => n != dName t f.z.toNat) &&
          (let sets := fun (q : Nat × PathBundle) => q.2.ops.any (fun o => match o.2 with
            | .movi _ d i => d == f.z && i.toNat == bound
            | _ => false)
           let writes := fun (q : Nat × PathBundle) (k : Nat) => (q.2.outs.flatMap (fun o => o.writes)).contains (dName t k)
           match (before.dropWhile (fun q => !writes q f.z.toNat && !writes q s)).head? with
           | some q => sets q
           | none => false)
      | _ => false)
  | _, _ => false

/-- POINTER (R323): the block at the entry of level L1 sets Bn and Ln to base and length by AMOVL and AMOVH, and no other
operation of a certified level L1 path writes them. -/
def pointerOk (x : PathCx) (r : RoleWalk) (n base len : Nat) : Bool :=
  match r.entry with
  | none => false
  | some e =>
    let bs := x.straight 16384 e
    let p := bs.foldl (fun p b => (x.issue b.1 b.2 p).1) ({} : PathSt)
    let byMove := fun (k : Nat) => bs.all (fun b => b.2.ops.all (fun o => match o.2 with
      | .amovl _ _ _ _ => true
      | .amovh _ _ _ _ => true
      | q => !((PathSt.sets p q).any (fun w => w.1 == k))))
    p.reg (24 + n) == some base && p.reg (32 + n) == some len && byMove (24 + n) && byMove (32 + n) &&
      r.one.notes.all (fun w => match w with
        | .ptrWrite a k => k != n || bs.any (fun b => b.1 == a)
        | _ => true)

/-- FIXED (R86, R329): the region is declared; the shortest and the longest path through it, from every place and state in
which the certified paths of the level enter it. A region that they do not enter is taken from its first address. -/
def fixedFound (c : List Byte) (g : Nat) (x : PathCx) (r : RoleWalk) (first last : Nat) : Option (Nat × Nat) :=
  if !(roleRegions c g r.slot).contains (first, last) then none
  else
    let met := (if x.tid = 2 then r.two else r.one).notes.filterMap (fun n => match n with
      | .enter a p => if first ≤ a ∧ a ≤ last then some (a, p) else none
      | _ => none)
    let ins := if met.isEmpty then [(first, ({} : PathSt))] else met
    let ws := ins.map (fun p => x.walk walkFuel [first] (some (first, last)) [p] {})
    let ends := ws.flatMap (fun w => w.ends)
    if ws.any (fun w => w.badAt.isSome || w.ends.isEmpty) then none
    else
      let most := (ends.map (fun e => e.2.hi)).foldl Nat.max 0
      some ((ends.map (fun e => e.2.lo)).foldl Nat.min most, most)

/-- Greatest number of events of a line per beacon period that SIGNALs can raise (R275, R279): none for a line that they
do not raise. -/
def lineEvents (roles : List RoleWalk) (chan : Nat → Nat) (line : Nat) : Option Nat :=
  if 20 ≤ line ∧ line ≤ 27 then
    some ((roles.map (fun r => r.one.signals (line - 20) + r.two.signals (line - 20))).sum)
  else if 4 ≤ line ∧ line ≤ 19 then some (chan (line - 4))
  else none

/-- A walk's points of wakes and lazy F sequences, for the charge of a block (R324). -/
def RoleWalk.charged (r : RoleWalk) (x : PathCx) : PathCx :=
  let ns := (if x.tid = 2 then r.two else r.one).notes
  { x with found := some (ns.filterMap (fun n => match n with | .wake a => some a | _ => none),
                          ns.filterMap (fun n => match n with | .lazyF a => some a | _ => none)) }

/-- One claim of a role that fails: the reason, the value claimed and the value found (R326). `beats` and `chan` answer a
channel's budget with its worst beats, and its SIGNALs, per beacon period. -/
def claimReason (c : List Byte) (g var : Nat) (roles : List RoleWalk) (beats : Nat → Option (Nat × Nat)) (chan : Nat → Nat)
    (r : RoleWalk) (k : Nat × Nat × Nat × Nat × Nat) : Option (Nat × Nat × Nat) :=
  let a := k.2.2.1
  let b := k.2.2.2.1
  let n := k.2.2.2.2
  let x := roleCx c g r.slot var (if k.2.1 = 2 then 2 else 1)
  let size := (sectUnits c 1 g r.slot 0).length
  match k.1 with
  | 1 =>
    if k.2.1 = 2 then (if a = r.l2vec then none else some (0x0B, a, r.l2vec))
    else if a < size then none else some (0x0B, a, size)
  | 2 =>
    match (r.charged x).blockCharge a b with
    | some v => if v = n then none else some (0x0A, n, v)
    | none => some (0x0A, n, 0)
  | 3 =>
    (r.one.notes ++ r.two.notes).findSome? (fun w => match w with
      | .loop at_ count body =>
        if at_ ≠ a then none else if b < count then some (0x0A, b, count) else if n < body then some (0x0A, n, body) else none
      | _ => none)
  | 4 => if clampOk x (r.entry.toList ++ [r.l2vec]) a b then none else some (0x0B, b, 0)
  | 5 => if a < 8 ∧ pointerOk (roleCx c g r.slot var 1) r a b n then none else some (0x0B, b, 0)
  | 6 => (banksReason c g var r a b n).map (fun w => (w, if w = 0x0F then n else b, (r.reachAt a).getD 0))
  | 7 =>
    if r.lines.contains a && decide (b < r.two.longest) then some (0x0A, b, r.two.longest)
    else if a = 0 then (if n = 1 then none else some (0x0A, n, 1))
    else match lineEvents roles chan a with
      | some v => if v ≤ n then none else some (0x0A, n, v)
      | none => none
  | 8 =>
    match fixedFound c g x r a b with
    | some (lo, hi) => if lo = n ∧ hi = n then none else some (9, n, if hi = n then lo else hi)
    | none => some (9, n, 0)
  | 9 =>
    let left := frameLeft c g var r b
    if b < r.one.longest then some (0x0D, b, r.one.longest)
    else if frameRight c g < left then some (0x0D, b, left)
    else if l0WindowOk c g r.slot then none else some (0x14, roleReg c g r.slot 0x24, 0)
  | 0xA =>
    match beats a with
    | some (budget, worst) => if b = budget ∧ budget ≠ 0 ∧ worst ≤ b then none else some (0x11, b, worst)
    | none => some (0x11, b, 0)
  | 0xB =>
    let frame := fabricMhz c g * 1000000 * lodeK c * lodeF c
    let t := Config.stageTime c g r.slot var
    if t ≤ b ∧ b * lodeFs c ≤ frame then none else some (0x13, b, t)
  | _ => none

/-- Places and counts that lack their claim (R323): accesses, loops, handlers, fixed-timing regions, FRAME. -/
def lacking (c : List Byte) (g var : Nat) (r : RoleWalk) : List Nat :=
  let has := fun (kind a : Nat) => (claimsOf c g r.slot var kind).any (fun k => k.2.2.1 == a)
  (r.one.notes ++ r.two.notes).filterMap (fun n => match n with
    | .access a _ => if has 6 a then none else some a
    | .loop a _ _ => if has 3 a then none else some a
    | _ => none) ++
  r.lines.filter (fun n => !has 7 n) ++
  ((roleRegions c g r.slot).filter (fun p => !has 8 p.1)).map (fun p => p.1) ++
  (if (claimsOf c g r.slot var 9).isEmpty then [r.one.parks.headD 0] else []) ++
  (if !r.lines.isEmpty && !(claimsOf c g r.slot var 1).any (fun k => k.2.1 == 2) then [r.l2vec] else [])

/-- Step 8 for a role: its claims in record order, what lacks a claim, and off-plan points that no claim names (R259). -/
def checkClaims (c : List Byte) (g var : Nat) (roles : List RoleWalk) (beats : Nat → Option (Nat × Nat)) (chan : Nat → Nat)
    (r : RoleWalk) : Option Refused :=
  let ks := claims c g r.slot var
  firstBad
    [ (ks.zip (List.range ks.length)).findSome? (fun p =>
        (claimReason c g var roles beats chan r p.1).map (fun w =>
          roleRefuse c g r.slot var w.1 p.1.2.2.1 w.2.1 w.2.2 p.2))
    , ((lacking c g var r).head?).map (fun a => roleRefuse c g r.slot var 0x0B a)
    , (r.one.notes ++ r.two.notes).findSome? (fun n => match n with
        | .offPlan a => some (roleRefuse c g r.slot var 0x0F a)
        | _ => none) ]

/-! ### Step 9: channels (R281, R300, R305, R311) and bank-slot tables (R257) -/

/-- A channel run by itself, as the verifier runs it: the channel, beats, SIGNALs and completed line WAITs since the last
WAIT for the beacon, the worst of each between two such WAITs, records appended, WAITs for the beacon, passes of the
region, and the first fault found. -/
structure DryRun where
  ch     : Chan
  beats  : Nat := 0
  sigs   : Nat := 0
  worst  : Nat := 0
  worstS : Nat := 0
  recs   : Nat := 0
  lines  : List Nat := []
  beacon : Bool := false
  passes : Nat := 0
  halted : Bool := false
  bad    : Bool := false

/-- Beats are made. -/
def DryRun.add (d : DryRun) (n : Nat) : DryRun :=
  { d with beats := d.beats + n, worst := Nat.max d.worst (d.beats + n) }

/-- The double words of the instruction at the channel's PC. -/
def dryFetch (prog : List Nat) (c : Chan) : List DWord :=
  let at_ := fun (k : Nat) => BitVec.ofNat 28 (prog.getD ((c.pc + k) % Nat.max 1 c.plen.toNat) 0)
  (List.range (instrLen (at_ 0))).map at_

/-- Words that a beat writes or reads lie in their space, and no word written lies in the host DMA control area seen
through the device-global window (R281, R288). -/
def dryInside (sp : DmaSpace) (write : Bool) (a : Nat) : Bool :=
  match sp with
  | .shm => decide (a < 0x200000)
  | .core _ => decide (a < 0x20000)
  | .glb => decide (0x800000 ≤ a) && decide (a < 0x888000) && !(write && decide (0x87F000 ≤ a) && decide (a < 0x87F400))
  | .dl => true
  | _ => false

/-- Beats of a MOVE under way, at most `n` (R294, R295): a drain beat takes no source unit. -/
def dryMove (e : Eng) (i : List DWord) : Nat → DryRun → DryRun
  | 0, d => { d with bad := true }
  | n + 1, d =>
    let m := mvOf i
    let c := d.ch
    let q := chunkOf {} e c m c.done
    let inside := fun (s : Side) (k : Nat) (w : Bool) => (List.range k).all (fun j => (unitAt s j).all (dryInside s.sp w))
    let out := q.put + b2n q.pad
    if !(inside (srcSide e c m) q.take false && inside (dstSide e c m) out true) then { d with bad := true }
    else
      let wd := unitBits m.du
      let left := c.nbits + q.take * feedBits m.cv (unitBits m.su) wd - q.put * wd
      let c1 := moveAfter c m q.take out 0 (if q.pad then 0 else left)
      let d1 := { (d.add 1) with ch := c1 }
      if c1.move.isNone then d1 else dryMove e i n d1

/-- Run the program until it halts, fails, or has passed over its region twice; a longer run is judged by its first `n`
instructions. -/
def dryRun (e : Eng) (prog : List Nat) : Nat → DryRun → DryRun
  | 0, d => d
  | n + 1, d =>
    if d.bad || d.halted || decide (2 ≤ d.passes) then d
    else
      let c := d.ch
      let i := dryFetch prog c
      if (programCause e c i).isSome then { d with bad := true }
      else
        let c1 : Chan := { c with instr := some i }
        let done := fun (x : DryRun) (y : Chan) =>
          let z := doneInstr y 1
          { x with ch := z, passes := x.passes + b2n (decide (z.pc ≤ c.pc)) }
        let next := match opCode i with
          | 1 =>
            let r := dryMove e i 40000 { d with ch := beginMove e c1 i }
            { r with passes := r.passes + b2n (decide (r.ch.pc ≤ c.pc)) }
          | 2 =>
            let back := pcPast c 1
            done (d.add 1) { c1 with loops := (dwField (i.getD 0 0) 0 14 + 1, back) :: c1.loops }
          | 3 =>
            match c1.loops with
            | (k, pc) :: rest =>
              if 1 < k then { (d.add 1) with ch := { c1 with loops := (k - 1, pc) :: rest, pc := pc, instr := none } }
              else done (d.add 1) { c1 with loops := rest }
            | [] => { d with bad := true }
          | 4 =>
            if c.nbits ≠ 0 then { d with bad := true }
            else if dwField (i.getD 0 0) 0 4 = 8 then
              done { d with beats := 1, sigs := 0, worst := Nat.max d.worst 1, beacon := true } c1
            else done { (d.add 1) with lines := dwField (i.getD 0 0) 0 4 :: d.lines } c1
          | 5 => done { (d.add 1) with sigs := d.sigs + 1, worstS := Nat.max d.worstS (d.sigs + 1) } c1
          | 6 => done { (d.add 1) with recs := d.recs + 1 } c1
          | _ => { (d.add 1) with halted := true, recs := d.recs + dwField (i.getD 0 0) 14 1 }
        dryRun e prog n next

/-- The control block of a channel of a lode as START reads it: CMD, words 1 to 16, words 17 to 23 (R282). -/
def channelWords (ccb : List Nat) : List Word := 0 :: (ccb.map (BitVec.ofNat 14) ++ List.replicate 7 0)

/-- A channel's run from START. -/
def channelRun (g : Nat) (ch : Nat × List Nat × List Nat) : DryRun :=
  let e : Eng := .geode (Fin.ofNat 8 g)
  dryRun e ch.2.2 walkFuel { ch := chanOf e (channelWords ch.2.1) }

/-- Worst beats of a channel per beacon period: none where nothing bounds them. A program that waits only for lines
passes at most as often as one of them is raised (`raised`). -/
def worstBeats (raised : Nat → Nat) (d : DryRun) : Option (Nat × Nat) :=
  if d.halted || d.beacon then some (d.worst, d.worstS)
  else match d.lines.map raised with
    | [] => none
    | n :: ns => let k := ns.foldl Nat.min n; some (d.worst * k, d.worstS * k)

/-- Channels of a geode under a variant with their runs. -/
def channelRuns (c : List Byte) (g var : Nat) : List (Nat × Nat × DryRun) :=
  (lodeChannels c g var).map (fun ch =>
    (ch.1, (chanOf (.geode (Fin.ofNat 8 g)) (channelWords ch.2.1)).budget.toNat, channelRun g ch))

/-- Lines that the geode's certified paths raise per beacon period. -/
def raisedBy (roles : List RoleWalk) (u : Nat) : Nat := (roles.map (fun r => r.one.signals u + r.two.signals u)).sum

/-- BEATS claims for a channel, in the certificates of the geode's roles. -/
def beatsClaims (c : List Byte) (g var n : Nat) : List Nat :=
  (rolesOf c g).flatMap (fun s => ((claimsOf c g s var 0xA).filter (fun q => q.2.2.1 == n)).map (fun q => q.2.2.2.1))

/-- A channel passes: START's checks, a program without failure, records that cannot fill its queue, and a BUDGET that its
worst beats keep within and that is its BEATS claim (R300, R305, R311, R323). -/
def channelOk (c : List Byte) (g var : Nat) (roles : List RoleWalk) (ch : Nat × List Nat × List Nat) : Bool :=
  let e : Eng := .geode (Fin.ofNat 8 g)
  let w := channelWords ch.2.1
  let k := chanOf e w
  let d := channelRun g ch
  decide (ch.1 < 16) && startOk e w && !d.bad && k.budget != 0 &&
    (match worstBeats (raisedBy roles) d with
     | some b => decide (b.1 ≤ k.budget.toNat)
     | none => false) &&
    (d.recs == 0 || (d.halted && decide (d.recs < k.cqlen.toNat))) &&
    (beatsClaims c g var ch.1).all (fun b => b == k.budget.toNat)

/-- Banks of the rows from which a channel's engine fetches its program (R284). -/
def fetchBanks (ch : Nat × List Nat × List Nat) (e : Eng) : List Nat :=
  let k := chanOf e (channelWords ch.2.1)
  maskBanks (bankMask (k.pbase.toNat % 4096) (2 * k.plen.toNat))

/-- Step 9 for a geode: its channels, slots for their fetches as requester 0xA (R284), and a free slot for every bank
(R257). -/
def checkChannels (c : List Byte) (g var : Nat) (roles : List RoleWalk) : Option Refused :=
  let here := fun (t : Nat) => findSect c t g 0xFF var
  let sect := fun (t : Nat) => match here t with
    | some x => x.idx
    | none => 0xFFFF
  let table := sectUnits c 7 g 0xFF var
  firstBad
    [ (lodeChannels c g var).findSome? (fun ch =>
        check (channelOk c g var roles ch) (refuse 0x11 (sect 8) g 0xFF var ch.1))
    , (lodeChannels c g var).findSome? (fun ch =>
        check ((fetchBanks ch (.geode (Fin.ofNat 8 g))).all (ownsBank table 0xA)) (refuse 0x0E (sect 7) g 0xFF var ch.1))
    , (List.range 16).findSome? (fun b => match here 7 with
        | none => none
        | some x =>
          check ((List.range 16).any (fun k => table.getD (16 * k + b) 0 == 0xF)) (refuse 0x0E x.idx g 0xFF var (x.off + 2 * b))) ]

/-- Steps 7 to 9 for one variant: each step over every geode and role in turn. -/
def checkVariant (c : List Byte) (var : Nat) : Option Refused :=
  let gs := List.range (lodeG c)
  let ws := gs.map (fun g => (g, (runningRoles c g var).map (fun s => roleWalk c g s var)))
  let all := ws.flatMap (fun p => p.2.map (fun r => (p.1, p.2, r)))
  match all.findSome? (fun p => checkStructure c p.1 var p.2.2) with
  | some r => some r
  | none =>
    firstBad
      [ all.findSome? (fun p =>
          let runs := channelRuns c p.1 var
          let of := fun (n : Nat) => runs.find? (fun q => q.1 == n)
          let worst := fun (n : Nat) => (of n).bind (fun q => worstBeats (raisedBy p.2.1) q.2.2)
          checkClaims c p.1 var p.2.1
            (fun n => (of n).bind (fun q => (worst n).map (fun w => (q.2.1, w.1))))
            (fun n => ((worst n).map (fun w => w.2)).getD 0) p.2.2)
      , gs.findSome? (fun g => (lodeChannels c g var).findSome? (fun ch =>
          check (!(beatsClaims c g var ch.1).isEmpty) (refuse 0x0B (geode := g) (variant := var) (place := ch.1))))
      , ws.findSome? (fun p => checkChannels c p.1 var p.2) ]

/-- Steps 7 to 9 of R321, for the main lode and then for each variant. -/
def checkPaths (c : List Byte) : Option Refused := (lodeVariants c).findSome? (checkVariant c)

/-! ### The verifier (R321) -/

/-- Every step but the signature, from the first on that fails. -/
def State.verifyFrom (s : State) (slot : Nat) (mask : Byte) (c : List Byte) (signature : Option Refused) : Option Refused :=
  match checkHeader c with
  | some r => some r
  | none =>
    match signature with
    | some r => some r
    | none =>
      match firstBad [checkBodies c, s.checkPlan slot mask c, checkUdt c, checkMaps c, checkStores c] with
      | some r => some r
      | none =>
        match checkPaths c with
        | some r => some r
        | none => checkVariants c

/-- The verifier (R321): the first failure, in order. -/
def State.verify (s : State) (slot : Nat) (mask : Byte) (c : List Byte) : Option Refused :=
  s.verifyFrom slot mask c (checkSignature s.hub.require s.hub.keys c)

end Sys2Proof.Machine
end

