-- ==== Sys2Proof/Machine/HostOps.lean ====
section
/-! DEFINITION. Shared operations of the host interface (chapters 10, 13): the frame in which a command executes (R440,
R441), link capacity and shares (R338, R339), admission (R330, R340, R342), bindings (R358), lode slots (R320),
the ring registers (R426, R428) and function resets (R448, R449). -/

namespace Sys2Proof.Machine
open Sys2Proof

/-! ### The frame of a command (R440, R441) -/

/-- The hub serves commands and posts (R433, R458, R468, R487). -/
def State.hubUp (s : State) : Bool :=
  !s.hub.halted && !s.hub.resetting && !(s.coreAt 80).isHalted && (s.coreAt 80).stop.isNone && !s.aon.islandsOff &&
    !s.aon.inReset

/-- The function exists: the PF, or an enabled VF (R424, R449). -/
def State.fnOn (s : State) (f : Nat) : Bool := decide (f ≤ s.link.vfs)

/-- A reply of status class 0x02 (R440): ring offset and opcode; CMD_MALFORMED counts it. -/
def State.malformed (s : State) (h : CmdHdr) (off opcode : Nat) (status : U16) : State :=
  (s.onFn h.fn.val (fun x => { x with malformed := ctrAdd 16 x.malformed 1 })).reply h status
    (leBytes 4 off ++ leBytes 2 opcode ++ [0, 0])

/-- The fetched packet of a command. -/
def State.fetchedOf (s : State) (h : CmdHdr) (opcode : Nat) : Option Fetched :=
  (s.fn h.fn.val).fetched.find? (fun c => c.hdr == h && c.opcode.toNat == opcode)

/-- It is answered, or starts (R441). -/
def State.takeFetched (s : State) (h : CmdHdr) (opcode : Nat) : State :=
  match s.fetchedOf h opcode with
  | some c => s.onFn h.fn.val (fun x => { x with fetched := x.fetched.erase c })
  | none => s

/-- The same for a command whose packet began at a ring offset; free for a command that no fetch brought (log entry 44). -/
def State.malformedAt (s : State) (h : CmdHdr) (off : Option Nat) (opcode : Nat) (status : U16) : State :=
  match off with
  | some o => s.malformed h o opcode status
  | none => let r := s.fresh; r.2.malformed h r.1 opcode status

/-- The ring offset of a command's packet. -/
def State.offsetOf (s : State) (h : CmdHdr) (opcode : Nat) : Option Nat := (s.fetchedOf h opcode).map (fun c => c.off)

/-- What the checks of a command need: opcode, whether it takes a job id, whether its operands are in range, whether this
function may not issue it, and whether it is exempt from the check of DEVSTATE. -/
structure CmdRule where
  opcode : Nat
  job    : Bool := false
  ok     : Bool := true
  denied : Bool := false
  exempt : Bool := false
deriving DecidableEq, Repr

/-- JOB is 0x0001–0xFFFE for a command that takes one, else 0 (R431). -/
def jobFieldOk (takes : Bool) (j : U16) : Bool := if takes then j != 0 && j != 0xFFFF else j == 0

/-- A command executes (R440, R441): the packet checks, 0x0302, 0x0301, then its own. -/
def State.cmd (s : State) (h : CmdHdr) (r : CmdRule) (body : State → State) : State :=
  if !s.hubUp then s
  else
    let t := s.takeFetched h r.opcode
    if !r.ok || !jobFieldOk r.job h.job then t.malformedAt h (s.offsetOf h r.opcode) r.opcode 0x0206
    else if r.denied then t.reply h 0x0302 []
    else if !r.exempt && t.aon.devstate != .ready then t.reply h 0x0301 []
    else body t

/-- The function is not the PF. -/
def notPf (h : CmdHdr) : Bool := h.fn.val != 0

/-- A reply of `n` bytes fits an empty reply ring (R441). -/
def replyFits (f : Fn) (n : Nat) : Bool := decide (entryLen n + 16 ≤ ringSize f.rrlog2)

/-- Free bytes (log entry 3). -/
def State.freshBytes (s : State) (n : Nat) : List Byte × State :=
  let r := s.freshWords n
  (r.1.map byteOf, r.2)

/-- Bytes where they are known, else free ones. -/
def State.bytesIf (s : State) (known : Bool) (bs : List Byte) : List Byte × State :=
  if known then (bs, s) else s.freshBytes bs.length

/-- Words of memory that `units` take in a packing: one, or two for a double word (R9, R444). -/
def unitWords (packing units : Nat) : Nat := if packing = 2 ∨ packing = 5 ∨ packing = 6 then 2 * units else units

/-- Words as units of a packing: double words hold the low word first (R104). -/
def pairNats : List Word → List Nat
  | a :: b :: r => (a.toNat + b.toNat * 2 ^ 14) :: pairNats r
  | _ => []
def unitsOfWords (packing : Nat) (ws : List Word) : List Nat :=
  if packing = 2 ∨ packing = 5 ∨ packing = 6 then pairNats ws else ws.map (fun w => w.toNat)

/-! ### Capacity and shares (R338, R339) -/

/-- Capacity of a trained lane in MB/s. -/
def laneMBs : Nat → Nat
  | 1 => 238
  | 2 => 476
  | 3 => 938
  | 4 => 1875
  | 5 => 3750
  | _ => 0

/-- Admissible posting capacity: 0.9 of the link's, rounded down (R338, R421). -/
def admissible (l : Link) : Nat := laneMBs l.gen * l.width * 9 / 10

/-- The job's reservation stands: some geode is not released. -/
def reserves (j : Job) : Bool := !j.geodes.all (fun g => j.done.contains g)

/-- Demand of jobs: geodes, posting, staging. -/
def demandOf (js : List Job) : Nat × Nat × Nat :=
  ((js.map (fun j => j.geodes.length)).sum, (js.map (fun j => j.bp)).sum, (js.map (fun j => j.kiw)).sum)

def State.reserving (s : State) : List Job := s.hub.jobs.filter reserves
def ofFn (js : List Job) (f : Nat) : List Job := js.filter (fun j => j.fn == f)
/-- A function's share; that of the PF after a device reset is what the device has (R339), under the link as it is trained. -/
def State.share (s : State) (f : Nat) : Share :=
  let x := s.hub.shares.getD f {}
  if x.whole then { x with geodes := 8, posting := admissible s.link, staging := 224 } else x

/-! ### Bindings (R357, R358) -/

/-- The source is a device link; its quad lane or logical channel. -/
def isLink (b : Binding) : Bool := bitOf b.source 7
def bindLane (b : Binding) : Nat := b.source.toNat % 4
def bindCh (b : Binding) : Nat := b.source.toNat % 16
def bindLevel (b : Binding) : Nat := if b.level = 0 then 60 else b.level.toNat

/-- Condition 1, and the field ranges of R357. -/
def bindFields (g : Nat) (b : Binding) : Bool :=
  decide (b.geode.toNat < g) && b.rsv13 == 0 && b.rsvEnd == 0 && decide (b.flags.toNat < 2) &&
    (if isLink b then b.source.toNat / 16 % 8 == 0 && b.width.toNat == 4 && b.cpage == 0
     else b.source.toNat / 4 == 0 && (b.width.toNat == 1 || b.width.toNat == 2 || b.width.toNat == 4)) &&
    (b.level == 0 || (decide (50 ≤ b.level.toNat) && decide (b.level.toNat ≤ 72))) &&
    decide (1 ≤ b.rcount.toNat) && decide (b.rcount.toNat ≤ 64) &&
    (if b.cpage = 0 then b.ccount == 0 else decide (1 ≤ b.ccount.toNat) && decide (b.ccount.toNat ≤ 16))

/-- A stream as a binding starts it. -/
def streamFor (c : List Byte) (j : U16) (bidx : Nat) (b : Binding) : Stream :=
  let d := descrOf c b.geode.toNat
  { job := j, bidx := bidx, bind := b, form := d.getD 1 0, log2n := d.getD 2 0, bin0 := d.getD 3 0, nb := d.getD 4 0
    taps := d.getD 5 0 }

/-- Condition 2: the converter stream's module. -/
def State.bindModule (s : State) (p : Nat) (b : Binding) : Bool :=
  let x := s.pos p
  let n := b.width.toNat
  bindLane b % n == 0 && x.mod == .live && recLanes x.record == n && s.allFramed p && s.oneRate p &&
    decide (b.rate.toNat ≤ n * laneCap x.rate.toNat) && decide (recFsMin x.record ≤ b.rate.toNat) &&
    decide (b.rate.toNat ≤ recFsMax x.record)

/-- Words of the calibration area (R397) hold two sets and the kernel area. -/
def calFits (st : Stream) : Bool :=
  let area := if st.bind.cpage = 0 then 256 * st.bind.rcount.toNat else 4096 * st.bind.ccount.toNat
  decide (16 + 2 * setSize st + 512 ≤ area)

/-- The lode pages of a binding on its geode. -/
def bindPages (b : Binding) : List Nat :=
  (List.range b.rcount.toNat).map (fun k => b.rpage.toNat + k) ++
    (if b.cpage = 0 then [] else (List.range b.ccount.toNat).map (fun k => b.cpage.toNat + k))

/-- No element stands twice. -/
def noRepeats {α : Type} [BEq α] : List α → Bool
  | [] => true
  | x :: xs => !xs.contains x && noRepeats xs

/-- Conditions 2 to 4, 6, 7 of one binding; `gone` tells jobs that are counted as released. -/
def State.bindOne (s : State) (c : List Byte) (gs : List Nat) (gone : U16 → Bool) (b : Binding) : Bool :=
  let h := gs.getD b.geode.toNat 0
  let free := fun (m : Option Stream) => match m with | some st => gone st.job | none => true
  let variant := fun (v : Nat) => (sects c).any (fun x => x.geode == b.geode.toNat && x.var == v)
  let rpages := decide (resRmin c b.geode.toNat ≤ b.rcount.toNat) &&
    (bindPages b).all (fun k => decide (1 ≤ k) && decide (k ≤ resStatic c b.geode.toNat))
  rpages &&
  (if isLink b then
    let q := s.quad h
    q.dlMode && q.dlup && !bitOf b.flags 0 && free (q.streams.getD (bindCh b) none) && variant 0x20
  else
    let p := 4 * h + bindLane b
    let r := (s.pos p).record
    s.bindModule p b && free (s.pos p).stream && variant (0x20 + bindLane b) && calFits (streamFor c 0 0 b) &&
      (!bitOf b.flags 0 || (recInjCap r && decide (recInjHi r ≤ bindLevel b) && decide (bindLevel b ≤ recInjLo r))))

/-- Every binding of a start is valid (R358). -/
def State.bindingsOk (s : State) (c : List Byte) (gs : List Nat) (gone : U16 → Bool) (bs : List Binding) : Bool :=
  bs.all (fun b => bindFields gs.length b && s.bindOne c gs gone b) &&
    noRepeats (bs.map (fun b => (b.geode, b.source))) &&
    noRepeats (bs.flatMap (fun b => (bindPages b).map (fun k => (b.geode, k))))

/-! ### Admission (R330, R340, R342) -/

/-- A refusal of admission: condition, scope, demand, free; the last two are not stated for conditions 5 and 6. -/
structure NoFit where
  cond   : Nat
  scope  : Nat
  demand : Option Nat
  free   : Nat
deriving DecidableEq, Repr

/-- The first element present. -/
def firstSome {α : Type} : List (Option α) → Option α
  | [] => none
  | some x :: _ => some x
  | none :: rest => firstSome rest

/-- One resource: device scope, then function scope (R342). -/
def resourceFits (cond need used cap fnUsed fnShare : Nat) : Option NoFit :=
  if cap < used + need then some { cond := cond, scope := 0, demand := some need, free := cap - used }
  else if fnShare < fnUsed + need then some { cond := cond, scope := 1, demand := some need, free := fnShare - fnUsed }
  else none

/-- The beacon period that runs, or the one that a pending origin sets (R28). -/
def State.periodF (s : State) : Nat := match s.aon.newPeriod with | some (_, f, _) => f | none => s.aon.f
def State.periodFs (s : State) : Nat := match s.aon.newPeriod with | some (_, _, fs) => fs | none => s.aon.fs

/-- The first failing condition of R340 with the jobs `js` counted as admitted. -/
def State.noFit (s : State) (js : List Job) (f slot : Nat) (bs : List Binding) : Option NoFit :=
  let c := s.lodeOf slot
  let gs := maskGeodes (s.hub.slots.getD slot {}).mask
  let d := demandOf js
  let m := demandOf (ofFn js f)
  let sh := s.share f
  let held := js.any (fun j => j.geodes.any (fun g => gs.contains g))
  let gone := fun (id : U16) => !js.any (fun j => j.id == id)
  firstSome
    [ if held then some { cond := 1, scope := 0, demand := some gs.length, free := 8 - d.1 } else none
    , resourceFits 1 gs.length d.1 8 m.1 sh.geodes
    , if 8 ≤ js.length then some { cond := 2, scope := 0, demand := some 1, free := 8 - js.length } else none
    , resourceFits 3 (lodeBp c) d.2.1 (admissible s.link) m.2.1 sh.posting
    , resourceFits 4 (lodeStaging c) d.2.2 224 m.2.2 sh.staging
    , if js.isEmpty || (lodeF c == s.periodF && lodeFs c == s.periodFs) then none
      else some { cond := 5, scope := 0, demand := none, free := 0 }
    , if s.bindingsOk c gs gone bs then none else some { cond := 6, scope := 0, demand := none, free := 0 } ]

/-- The release beacon that is known of a job: its own, or E + K (R332, R342). -/
def releaseOf (j : Job) : Option U32 :=
  match j.releaseAt with
  | some r => some r
  | none => if j.openEnd then none else some (j.last + BitVec.ofNat 32 j.k)

/-- Insert a beacon into a list in frame-class order. -/
def insBeacon : List U32 → U32 → List U32
  | [], n => [n]
  | x :: xs, n => if atOrAfter x n then n :: x :: xs else x :: insBeacon xs n

/-- Earliest fit (R342): the first release after which the request passes R340. -/
def State.earliestFit (s : State) (f slot : Nat) (bs : List Binding) : Option U32 :=
  let js := s.reserving
  let rs := js.foldl (fun l j => match releaseOf j with | some r => insBeacon l r | none => l) []
  rs.find? (fun r =>
    let left := js.filter (fun j => match releaseOf j with | some x => !atOrAfter r x | none => true)
    (s.noFit left f slot bs).isNone)

/-- The 40 bytes of R342. -/
def State.refusal (s : State) (x : NoFit) (fit : Option U32) : List Byte × State :=
  let t := match fit with
    | some n => time56Bytes (beaconTime s.aon n) ++ leBytes 4 n.toNat
    | none => List.replicate 20 0xFF
  let df := match x.demand with
    | some d => (leBytes 8 d ++ leBytes 8 x.free, s)
    | none => s.freshBytes 16
  (t ++ [byteOf x.cond, byteOf x.scope, byteOf (b2n fit.isSome), 0] ++ df.1, df.2)

/-- The later of two beacons (R330, R473). -/
def laterOf (a b : U32) : U32 := if atOrAfter a b then a else b

/-- Beacons up to the first one that is a multiple of K, from n on. -/
def toMultiple (k : Nat) (n : U32) : U32 :=
  let d := n.toNat % Nat.max 1 k
  if d = 0 then n else n + BitVec.ofNat 32 (Nat.max 1 k - d)

/-- A job's lode is active: activated and not yet released everywhere (R28, R331, R332). -/
def State.active (s : State) (j : Job) : Bool := reserves j && atOrAfter s.beaconNow j.start

/-- The job's lode will be activated: it is not released before (R332). -/
def willStart (j : Job) : Bool := match j.releaseAt with | some r => !atOrAfter j.start r | none => true

/-- The beacon period that waits (R28): while no lode is active, that of the lode which is activated first, from its
activation beacon on. -/
def State.fixPeriod (s : State) : State :=
  if s.reserving.any s.active then s.onAon (fun a => { a with newPeriod := none })
  else
    let first := (s.reserving.filter willStart).foldl (fun (m : Option Job) j => match m with
      | some k => if atOrAfter j.start k.start then some k else some j
      | none => some j) none
    s.onAon (fun a => { a with newPeriod := first.map (fun j =>
      (j.start, lodeF (s.lodeOf j.slot), lodeFs (s.lodeOf j.slot))) })

/-- The beacon train from beacon `start` on, for a job that is activated there (R27, R28): under its own period where it is
alone, else under the one that waits, which its own activation may bring forward. -/
def State.trainFrom (s : State) (c : List Byte) (start : U32) (alone : Bool) : Aon :=
  let a := s.aon
  let under := fun (b : U32) (f fs : Nat) => { a with t0 := dtOf56 (beaconTime a b).toNat, n0 := b, f := f, fs := fs }
  if alone then under start (lodeF c) (lodeFs c)
  else match a.newPeriod with
    | some (b, f, fs) => under (if atOrAfter start b then b else start) f fs
    | none => a

/-- S′, the first frame's beacon and its time in 2⁻⁵⁶ s (R330): the first multiple of K at least TACT after S′ under the
period that the job will run with. -/
def State.jobTimes (s : State) (c : List Byte) (start : U32) (alone : Bool) : U32 × U32 × Int :=
  let s1 := laterOf start (s.beaconNow + 2)
  let a := s.trainFrom c s1 alone
  let at_ := fun (d : Nat) => beaconTime a (s1 + BitVec.ofNat 32 d)
  let need := (lodeTact c * Nat.max 1 a.fs + Nat.max 1 a.f * 2 ^ 56 - 1) / (Nat.max 1 a.f * 2 ^ 56)
  let d0 := if at_ 0 + (lodeTact c : Int) ≤ at_ need then need else need + 1
  let first := toMultiple (lodeK c) (s1 + BitVec.ofNat 32 d0)
  (s1, first, at_ (first - s1).toNat)

/-! ### Result staging (R338, R346) -/

/-- KiW of the staging area that jobs hold, and whether a run of them is free. -/
def stageFree (js : List Job) (at_ n : Nat) : Bool :=
  js.all (fun j => j.stage.all (fun r =>
    let lo := (r.1 - 0x40000) / 1024
    let hi := lo + (j.ds * r.2 + 1023) / 1024
    decide (at_ + n ≤ lo) || decide (hi ≤ at_)))

/-- A staging ring of DS slots of `kiw` KiW: where it lies within 0x40000–0x77FFF the spec does not say; it is free (log
entry 152). -/
def State.placeRing (s : State) (js : List Job) (ds kiw : Nat) : (Nat × Nat) × State :=
  let n := ds * kiw
  let all := List.range (225 - n)
  let open_ := all.filter (fun k => stageFree js k n)
  let l := if open_.isEmpty then all else open_
  let r := s.fresh
  ((0x40000 + 1024 * l.getD (r.1 % Nat.max 1 l.length) 0, 1024 * kiw), r.2)

/-- The rings of a job's geodes, one after another. -/
def State.placeRings (s : State) (js : List Job) (j : Job) : List Nat → Job × State
  | [] => (j, s)
  | k :: ks =>
    let r := s.placeRing (js ++ [j]) j.ds k
    r.2.placeRings js { j with stage := j.stage ++ [r.1] } ks

/-- A binding takes its position or logical channel (R357, R391, R414). -/
def State.bindStream (s : State) (c : List Byte) (gs : List Nat) (j : U16) (bidx : Nat) (b : Binding) : State :=
  let h := gs.getD b.geode.toNat 0
  let st := streamFor c j bidx b
  if isLink b then
    s.onQuad h (fun q => { q with streams := modAt q.streams (bindCh b) (fun _ => some st)
                                  rxSeq := modAt q.rxSeq (bindCh b) (fun _ => none) })
  else
    let p := 4 * h + bindLane b
    let s1 := if (s.pos p).solving.isSome then s.stopSolve p else s
    let s2 := s1.onPos p (fun x =>
      { x with stream := some st, level := byteOf (bindLevel b), solveReq := false, changed := false })
    let code : BitVec 2 := match b.width.toNat with | 1 => 0 | 2 => 1 | _ => 2
    (List.range b.width.toNat).foldl (fun t k => t.onPos (p + k) (fun x => { x with bond := code })) s2

/-- The hub tells every supervisor of a job (R40). -/
def State.mailAll (s : State) (j : Job) (m : MailMsg) : State := j.geodes.foldl (fun t g => t.mailTo g m) s
def State.mailSwap (s : State) (j : Job) (b : U32) : State := s.mailAll j (.swap (Fin.ofNat 16 j.slot) b)
def State.mailRelease (s : State) (j : Job) (r : U32) : State := s.mailAll j (.release (Fin.ofNat 16 j.slot) r)

/-- ADMISSION_DECISION has passed: the job reserves its demand, binds its streams, and the supervisors are told (R40, R330,
R340, R346, R403). -/
def State.takeJob (s : State) (h : CmdHdr) (slot : Nat) (vec : Byte) (openEnd : Bool) (e : U32) (bs : List Binding)
    (start first : U32) : State :=
  let c := s.lodeOf slot
  let gs := maskGeodes (s.hub.slots.getD slot {}).mask
  let swap := first + BitVec.ofNat 32 (8 * lodeK c)
  let over_ := e + BitVec.ofNat 32 (lodeK c)
  let j0 : Job :=
    { id := h.job, fn := h.fn.val, slot := slot, vec := vec, geodes := gs, openEnd := openEnd, start := start, first := first
      last := e, bindings := bs, k := lodeK c, yf := lodeYf c, bp := lodeBp c, kiw := lodeStaging c, ds := lodeDs c
      nextSwap := some swap, releaseAt := if openEnd then none else some over_, allowAt := now56 s.aon }
  let r := s.placeRings s.reserving j0 ((List.range gs.length).map (fun i => (resSwords c i + 1023) / 1024))
  let j := r.1
  let s1 := (r.2.onHub (fun x => { x with jobs := x.jobs ++ [j] })).mailAll j (.lode (Fin.ofNat 16 slot) 0 start)
  let s2 := (if openEnd then s1 else s1.mailRelease j over_).mailSwap j swap
  (bs.zip (List.range bs.length)).foldl (fun t p => t.bindStream c gs h.job p.2 p.1) s2.fixPeriod

/-! ### Lode slots (R318, R320) -/

def State.slotOf (s : State) (n : Nat) : LodeSlot := s.hub.slots.getD n {}
def State.onSlot (s : State) (n : Nat) (f : LodeSlot → LodeSlot) : State :=
  s.onHub (fun h => { h with slots := modAt h.slots n f })

/-- The image pages of a slot go back through zeroing (R267, R320). -/
def State.freeImages (s : State) (n : Nat) : State :=
  ((s.slotOf n).pages.foldl (fun t p => t.onGeode p.1 (fun g => freePages g p.2)) s).onSlot n (fun x => { x with pages := [] })

/-- A slot becomes EMPTY (R320). -/
def State.emptySlot (s : State) (n : Nat) : State := (s.freeImages n).onSlot n (fun _ => {})

/-- An admitted job uses the slot. -/
def State.slotUsed (s : State) (n : Nat) : Bool := s.reserving.any (fun j => j.slot == n)

/-- Words of a page become free values: an image's layout in its pages is not given (log entry 70). -/
def State.fillPage (s : State) (g page : Nat) : State :=
  let r := s.freshWords 4096
  (r.1.zip (List.range r.1.length)).foldl (fun t p => t.shmWrite g (4096 * page + p.2) (BitVec.ofNat 14 p.1)) r.2

/-- Image pages that a slot holds on a geode. -/
def slotPages (x : LodeSlot) (g : Nat) : List Nat := ((x.pages.find? (fun p => p.1 == g)).map (fun p => p.2)).getD []

/-- Image pages on one geode, lowest-numbered first, filled (R318). -/
def State.takePages (s : State) (slot g n : Nat) : State :=
  let ps := (s.geode g).pool.take n
  let s1 := (s.onGeode g (fun x => { x with pool := x.pool.drop n })).onSlot slot
    (fun x => { x with pages := x.pages.filter (fun p => p.1 != g) ++ [(g, slotPages x g ++ ps)] })
  ps.foldl (fun t k => t.fillPage g k) s1

/-- The images that have come are placed: their geodes' pages grow to what these bytes take (R318). Nothing is placed before
the section table is whole. -/
def State.placeImages (s : State) (n : Nat) : State :=
  let x := s.slotOf n
  let gs := maskGeodes x.mask
  if x.bytes.length < 64 + 16 * lodeNsect x.bytes then s
  else (gs.zip (List.range gs.length)).foldl (fun t p =>
    t.takePages n p.1 (imagePages x.bytes p.2 - (slotPages x p.1).length)) s

/-- A signature is to be checked before any image page is written (R350, log entry 153). -/
def State.signDue (s : State) (n : Nat) : Bool :=
  let x := s.slotOf n
  x.monitor.isNone && (s.hub.require || leAt x.bytes 25 1 % 2 == 1)

/-- Bytes of a container have arrived (R318). -/
def State.bytesIn (s : State) (n : Nat) : State := if s.signDue n then s else s.placeImages n

/-- The verifier's answer (R320, R321, R350): VERIFIED with its image pages; or REFUSED with its report, and its pages are
free. -/
def State.settleSlot (s : State) (n : Nat) : State :=
  let x := s.slotOf n
  let sig := if x.monitor.isSome then none else checkSignature s.hub.require s.hub.keys x.bytes
  let t := if sig.isSome then s else s.placeImages n
  match t.verifyFrom n x.mask x.bytes sig with
  | some r => (t.freeImages n).onSlot n (fun y => { y with state := .refused, report := some r })
  | none => t.onSlot n (fun y => { y with state := .verified })

/-- Largest verification time in µs (R327): 1 ms, 2 ms for a signature, 8 hub cycles per syllable and variant and per
claim record. -/
def verifyLimit (c : List Byte) : Nat :=
  let total := fun (t : Nat) => ((sects c).filter (fun x => x.type == t)).map (fun x => (unitsOf c x).length) |>.sum
  let vars := (((sects c).map (fun x => x.var)).eraseDups).length
  let claimsN := ((sects c).filter (fun x => x.type == 9)).map (fun x => x.size / 16) |>.sum
  1000 + (if leAt c 25 1 % 2 = 1 then 2000 else 0) + (8 * (total 1 * vars + claimsN)) / 1200

/-! ### Jobs that end early (R332, R448, R458, R466) -/

/-- The next beacon. -/
def State.nextBeaconNo (s : State) : U32 := s.beaconNow + 1

/-- A release beacon for a job, unless it is to be released earlier. -/
def setRelease (j : Job) (r : U32) : Job :=
  { j with releaseAt := match j.releaseAt with | some x => if atOrAfter r x then some x else some r | none => some r }

/-! ### Ring registers and BAR0 (R425–R428) -/

/-- A ring register write that is refused (R16, R425, R428). -/
def State.fnCfgerr (s : State) (f : Nat) : State := s.onFn f (fun x => { x with cfgerr := true })

/-- Entries that wait are written, as long as the hub runs. -/
def State.tryFlush (s : State) (f : Nat) : State := if s.hubUp then s.flushRing f ((s.fn f).waitq.length + 1) else s

/-- CRTAIL is written (R428). -/
def State.writeCrtail (s : State) (f v : Nat) : State :=
  let o := v % 2 ^ 24
  if o % 16 ≠ 0 ∨ ringSize (s.fn f).crlog2 ≤ o then s.fnCfgerr f
  else (s.onFn f (fun x => { x with crtail := BitVec.ofNat 24 o })).hubLine (41 + f)

/-- RRHEAD is written (R428, R436). -/
def State.writeRrhead (s : State) (f v : Nat) : State :=
  let o := v % 2 ^ 24
  if o % 16 ≠ 0 ∨ ringSize (s.fn f).rrlog2 ≤ o then s.fnCfgerr f
  else ((s.onFn f (fun x => { x with rrhead := BitVec.ofNat 24 o })).hubLine (41 + f)).tryFlush f

/-- CREN changes (R428). -/
def State.setCren (s : State) (f : Nat) (on : Bool) : State :=
  if (s.fn f).cren == on then s
  else if on then s.onFn f (fun x => { x with cren := true, crhead := 0, crtail := 0, crstop := false })
  else s.onFn f (fun x => { x with cren := false })

/-- A record on its way into a ring that changes is to be sent again from its start. -/
def State.dropPosts (s : State) (f : Nat) : State :=
  s.onHub (fun h => { h with jobs := h.jobs.map (fun j => if j.fn == f then { j with post := none } else j) })

/-- RREN changes (R428). -/
def State.setRren (s : State) (f : Nat) (on : Bool) : State :=
  if (s.fn f).rren == on then s
  else
    let s1 := s.dropPosts f
    if on then
      ((s1.onFn f (fun x => { x with rren := true, rrhead := 0, rrtail := 0 })).emit (.terminator f 0)).tryFlush f
    else s1.onFn f (fun x => { x with rren := false })

/-- DEVCTL.WAKE (R426, R461, R462): it starts the wake from Dusk. -/
def State.startWake (s : State) : State := if s.aon.devstate = .dusk then s.setDev .waking else s

/-- Base and size registers are held while their ring is enabled; sizes of 16 to 24 alone exist (R426, R428). -/
def State.writeBase (s : State) (f : Nat) (on : Bool) (g : Fn → Fn) : State :=
  if on then s.fnCfgerr f else s.onFn f g
def State.writeSize (s : State) (f : Nat) (on : Bool) (v : Nat) (g : BitVec 5 → Fn → Fn) : State :=
  let n := v % 32
  if on || decide (n < 16) || decide (24 < n) then s.fnCfgerr f else s.onFn f (g (BitVec.ofNat 5 n))

/-- Low and high halves of a base register. -/
def baseLo (b : U64) (v : Nat) : U64 := BitVec.ofNat 64 (b.toNat / 2 ^ 32 * 2 ^ 32 + v % 2 ^ 32 / 4096 * 4096)
def baseHi (b : U64) (v : Nat) : U64 := BitVec.ofNat 64 (v % 2 ^ 32 * 2 ^ 32 + b.toNat % 2 ^ 32)

/-- The MSI-X table is written: reserved bits read 0; a vector that is unmasked with its pending bit set sends its message
(R429). -/
def State.writeMsix (s : State) (f i v : Nat) : State :=
  let keep := match i % 4 with | 0 => v % 2 ^ 32 / 4 * 4 | 3 => (v % 2) ^^^ 1 | _ => v % 2 ^ 32
  let s1 := s.onFn f (fun x => { x with msix := smPut x.msix i (BitVec.ofNat 32 keep) })
  let k := i / 4
  let w := 512 + k / 32
  if i % 4 = 3 ∧ v % 2 = 0 ∧ bitOf (smGet (s1.fn f).msix w) (k % 32) then
    (s1.onFn f (fun x => { x with msix := smPut x.msix w (smGet x.msix w &&& ~~~(1#32 <<< (k % 32))) })).sendMsix f k
  else s1

/-- A 32-bit register of BAR0 is written (R426, R428). -/
def State.barWrite (s : State) (f off v : Nat) : State :=
  let x := s.fn f
  if off = 0x4 then (s.setCren f (v % 2 == 1)).setRren f (v / 2 % 2 == 1)
  else if off = 0x8 then
    s.onFn f (fun y =>
      { y with cfgerr := y.cfgerr && v / 256 % 2 == 0, gap := y.gap && v / 128 % 2 == 0, late := y.late && v / 64 % 2 == 0 })
  else if off = 0xC then
    let s1 := s.onFn f (fun y =>
      { y with irqTime := BitVec.ofNat 16 (v / 65536), irqCount := if v % 65536 = 0 then y.irqCount else BitVec.ofNat 16 v })
    if v % 65536 = 0 then s1.fnCfgerr f else s1
  else if off = 0x10 then s.writeBase f x.cren (fun y => { y with crbase := baseLo y.crbase v })
  else if off = 0x14 then s.writeBase f x.cren (fun y => { y with crbase := baseHi y.crbase v })
  else if off = 0x18 then s.writeSize f x.cren v (fun n y => { y with crlog2 := n })
  else if off = 0x1C then s.writeCrtail f v
  else if off = 0x30 then s.writeBase f x.rren (fun y => { y with rrbase := baseLo y.rrbase v })
  else if off = 0x34 then s.writeBase f x.rren (fun y => { y with rrbase := baseHi y.rrbase v })
  else if off = 0x38 then s.writeSize f x.rren v (fun n y => { y with rrlog2 := n })
  else if off = 0x3C then s.writeRrhead f v
  else if 0x1000 ≤ off ∧ off < 0x1400 then s.writeMsix f ((off - 0x1000) / 4) v
  else if off = 0x8000 ∧ f = 0 ∧ v % 2 = 1 then s.startWake
  else s

/-- A 32-bit register of BAR0 reads (R426). -/
def State.barRead (s : State) (f off : Nat) : U32 :=
  let x := s.fn f
  let n := if off = 0x0 then 0x100 + f
    else if off = 0x4 then b2n x.rren * 2 + b2n x.cren
    else if off = 0x8 then
      b2n x.cfgerr * 256 + b2n x.gap * 128 + b2n x.late * 64 + b2n x.rrfull * 32 + b2n x.crstop * 16 + devCode s.aon.devstate
    else if off = 0xC then x.irqTime.toNat * 65536 + x.irqCount.toNat
    else if off = 0x10 then x.crbase.toNat % 2 ^ 32
    else if off = 0x14 then x.crbase.toNat / 2 ^ 32
    else if off = 0x18 then x.crlog2.toNat
    else if off = 0x1C then x.crtail.toNat
    else if off = 0x20 then x.crhead.toNat
    else if off = 0x30 then x.rrbase.toNat % 2 ^ 32
    else if off = 0x34 then x.rrbase.toNat / 2 ^ 32
    else if off = 0x38 then x.rrlog2.toNat
    else if off = 0x3C then x.rrhead.toNat
    else if off = 0x40 then x.rrtail.toNat
    else if (0x1000 ≤ off ∧ off < 0x1400) ∨ (0x1800 ≤ off ∧ off < 0x1808) then (msixWord x ((off - 0x1000) / 4)).toNat
    else if off = 0x8004 ∧ f = 0 then b2n s.aon.talarm * 16 + devCode s.aon.devstate
    else if off = 0x8008 ∧ f = 0 then s.aon.tj.toNat
    else 0
  BitVec.ofNat 32 n

/-- REGISTER_WRITE into BAR0 (R425, R449). -/
def State.barAccess (s : State) (f off bytes : Nat) (poisoned : Bool) (v : U64) : State :=
  if !s.fnOn f then s.emit (.unsupported f)
  else if poisoned then s
  else if 8 < bytes then s.emit (.unsupported f)
  else if off % 4 ≠ 0 ∨ !(bytes = 4 ∨ bytes = 8) then s.fnCfgerr f
  else
    let s1 := s.barWrite f off (v.toNat % 2 ^ 32)
    if bytes = 8 then s1.barWrite f (off + 4) (v.toNat / 2 ^ 32) else s1

/-! ### Function resets (R309, R448, R449) -/

/-- A function as its reset leaves it: CMD_MALFORMED belongs to the hub's counters. -/
def resetFn (x : Fn) : Fn := { malformed := x.malformed }

/-- Host channels of a function stop (R309). -/
def State.stopChannels (s : State) (f : Nat) : State := s.dmaStopAll .host 2 (fun c => c.fn.toNat == f)

/-- A function's LOADING slots become EMPTY (R448 step 2). -/
def State.dropLoading (s : State) (f : Nat) : State :=
  (List.range 16).foldl (fun t n => if (t.slotOf n).state = .loading ∧ (t.slotOf n).owner = f then t.emptySlot n else t) s

/-- Jobs of a function are released at the next beacon and post nothing more (R448 step 3). -/
def State.dropJobs (s : State) (f : Nat) : State :=
  let r := s.nextBeaconNo
  let s1 := s.onHub (fun h => { h with jobs := h.jobs.map (fun j =>
    if j.fn == f then
      { setRelease j r with discard := true, frames := [], gaps := [], inputGaps := [], lateDue := [], post := none }
    else j) })
  ((ofFn s.hub.jobs f).foldl (fun t j => t.mailRelease j r) s1).fixPeriod

/-- FUNCTION_LEVEL_RESET of one function (R448): steps 1 and 2; step 3 is due at the next beacon. In Dusk the hub does its
part at the wake (R449). -/
def State.flrOne (s : State) (f : Nat) : State :=
  let wasTs := match s.aon.timeSet with | some t => t.hdr.fn.val == f | none => false
  let s1 := s.onFn f (fun x => { resetFn x with flr := true })
  if s1.aon.islandsOff then s1
  else
    let s2 := (s1.stopChannels f).dropLoading f
    let s3 := if wasTs then s2.onAon (fun a => { a with timeSet := none }) else s2
    s3.dropJobs f

/-- The PF's reset clears VF Enable, and so resets every VF (R449). -/
def State.flr (s : State) (f : Nat) : State :=
  if f = 0 then
    ((List.range 8).foldl (fun t k => t.flrOne k) s).onLink (fun l => { l with vfs := 0 })
  else s.flrOne f

/-- VF Enable is cleared (R449). -/
def State.disableVfs (s : State) : State :=
  ((List.range 7).foldl (fun t k => t.flrOne (k + 1)) s).onLink (fun l => { l with vfs := 0 })

/-- Step 3 of R448 in the hub: VERIFIED and REFUSED slots of the function become EMPTY. -/
def State.flrSlots (s : State) : State :=
  (List.range 8).foldl (fun t f =>
    if (t.fn f).flr then
      ((List.range 16).foldl (fun u n => if (u.slotOf n).state ≠ .empty ∧ (u.slotOf n).owner = f then u.emptySlot n else u)
        t).onFn f (fun x => { x with flr := false })
    else t) s

/-! ### Text of the bench monitor (R479–R481) -/

/-- ASCII text as bytes. -/
def ascii (t : String) : List Byte := t.toList.map (fun c => byteOf c.toNat)

/-- `n` hexadecimal digits of a number, in upper case. -/
def hexDigit (d : Nat) : Char := if d < 10 then Char.ofNat (48 + d) else Char.ofNat (55 + d)
def hexText : Nat → Nat → List Char
  | 0, _ => []
  | n + 1, v => hexText n (v / 16) ++ [hexDigit (v % 16)]
def hexBytes (bs : List Byte) : List Byte := bs.flatMap (fun b => (hexText 2 b.toNat).map (fun c => byteOf c.toNat))

/-- Text leaves by a port (R480, R489). -/
def State.say (s : State) (p : Port) (bs : List Byte) : State :=
  match p with
  | .uart => s.emit (.uart bs)
  | .jtag => s.emit (.jtag bs)

/-- A line of text, and the prompt (R479, R481). -/
def State.sayLine (s : State) (p : Port) (bs : List Byte) : State := s.say p (bs ++ [13, 10])
def State.prompt (s : State) (p : Port) : State := s.say p (ascii "> ")

/-- The banner line and the prompt (R479): revision, ROM and patch versions, FAULTREC.CAUSE where VALID = 1. -/
def State.bannerText (s : State) : List Byte :=
  let hex := fun (n v : Nat) => (hexText n v).map (fun c => byteOf c.toNat)
  let cause := if bitOf s.aon.faultrec 13 then s.aon.faultrec.toNat % 256 else 0
  ascii "GLEVON FJ3214-HB REV " ++ hex 2 1 ++ ascii " ROM " ++ hex 8 Config.romVersion.toNat ++ ascii " PATCH " ++
    hex 8 (if s.hub.patch.state = 0 then 0 else s.hub.patch.version.toNat) ++ ascii " FAULT " ++ hex 2 cause
def State.banner (s : State) (p : Port) : State := (s.sayLine p s.bannerText).prompt p

end Sys2Proof.Machine
end

