-- ==== Sys2Proof/Machine/Beacons.lean ====
section
/-! DEFINITION. Time and beacons (chapter 1): device time (R504), the beacon train (R27, R28), what a beacon does in a
geode (R46), in a core, and in the hub (R48, R346, R403, R470), and the supervisor's answers to failed cores
(R464, R465). -/

namespace Sys2Proof.Machine
open Sys2Proof

/-- The steps of R452 that time alone brings, each at the end of the time that R452 allows it (log entry 79): fuses loaded
and the hub and supervisors running, monitor input, the banner, configuration space, the lane windows in quad order. -/
def State.startStep (s : State) : State :=
  let e := s.aon.time.toNat - s.aon.started.toNat
  let ms := fun (k : Nat) => decide (k * 2 ^ 80 ≤ 1000 * e)
  let next := s.onAon (fun a => { a with stage := a.stage + 1 })
  match s.aon.stage with
  | 0 =>
    if ms 15 then
      { next.onAon (fun a => { a with fuseW := [], fuseLoaded := true }) with
        cores := modRange next.cores 72 9 (fun c => { c with halted := false }) }
    else s
  | 1 => if ms 30 then next.onMon (fun m => { m with open_ := true }) else s
  | 2 => if ms 40 then next.banner .uart else s
  | 3 => if ms 80 then next.onLink (fun l => { l with cfgReady := true }) else s
  | 4 => if ms 100 then next.onHub (fun h => { h with windowQ := List.range 8 }) else s
  | _ => s

/-- PPS_OUT falls 100 ms after it rose (R507). -/
def State.ppsFall (s : State) : State :=
  let sec := BitVec.ofNat 42 (s.aon.time.toNat / 2 ^ 80)
  if s.aon.ppsHigh && (s.aon.ppsOut != some sec || decide (2 ^ 80 ≤ 10 * (s.aon.time.toNat % 2 ^ 80))) then
    (s.onAon (fun a => { a with ppsHigh := false })).emit (.ppsOut false)
  else s

/-- TIMEREF_TICK (R452, R504, R507): device time advances by the rate word; not before a power-up reset is released
(R454). -/
def execTimerefTick (s : State) : Host.Outcome State Fault Refusal :=
  .next (if s.aon.inReset && s.aon.startKind == 1 then s
    else
      let s1 := (s.onAon (fun a => { a with time := a.time + BitVec.ofNat 122 a.rate })).ppsFall
      if s1.aon.inReset then s1 else s1.startStep)

/-- The beacon's own change of the always-on domain: a new period takes it as its origin (R28); counters are captured
(R48). -/
def aonBeacon (a : Aon) (n : U32) : Aon :=
  let a1 := match a.newPeriod with
    | some (b, f, fs) =>
      if b = n then { a with t0 := dtOf56 (beaconTime a n).toNat, n0 := n, f := f, fs := fs, newPeriod := none } else a
    | none => a
  { a1 with lastBeacon := some n, nextBeacon := n + 1, snap := some (n, [a.ppsEdges.toNat, a.irigErr]) }

/-- BEACON_EMIT (R27, R31): the next beacon leaves at the first tick at or after its time, for the hub and the geodes that
are powered. -/
def execBeaconEmit (s : State) : Host.Outcome State Fault Refusal :=
  let n := s.aon.nextBeacon
  .next (if s.aon.inReset || decide ((now56 s.aon : Int) < beaconTime s.aon n) then s
    else
      let s1 := s.onAon (fun a => aonBeacon a n)
      if s1.aon.islandsOff then s1
      else
        ({ s1 with geodes := s1.geodes.map (fun (g : Geode) => { g with beacons := g.beacons ++ [n] }) }).onHub
          (fun h => { h with beacons := h.beacons ++ [n] }))

/-! ### Counters (R475) -/

/-- A geode's fabric, lane and quad counters: indices 0 to 55 of its block. -/
def State.fabricCounters (s : State) (g : Nat) : List Nat :=
  let x := s.geode g
  [x.eccCorr, x.eccUnc, x.scrubPasses, x.dmaBeats, x.wdogMiss, x.eclipses] ++
    (List.range 4).flatMap (fun l => (s.pos (4 * g + l)).ctrs) ++ [(s.quad g).dlDiscard, (s.quad g).dlBcn]

/-- A core's counters. -/
def coreCounters (c : Core) : List Nat := [c.issued, c.flushed, c.vwakes, c.offAcc, c.offStall, c.eccCorr, c.eccUnc]

/-- The hub's counters but for the beacon number. -/
def State.hubCounters (s : State) : List Nat :=
  [s.hub.pcieCorr, s.hub.eccCorr, s.hub.eccUnc, s.hub.uartEarly] ++ s.fns.map (fun f => f.malformed) ++ [s.hub.dmaBeats]

/-! ### A beacon in a geode (R46) -/

/-- INJECT off and IDLE for the LIVE modules of a quad (R391, R468). -/
def State.quietModules (s : State) (g : Nat) : State :=
  ((List.range 4).map (fun l => 4 * g + l)).foldl (fun t b =>
    if (t.pos b).mod == .live then
      let t1 := if (t.pos b).inject then t.sendInject b false else t
      t1.sendCtl b 2 0
    else t) s

/-- Marks of the frame that runs at beacon n on a geode (R53, R337). -/
def State.geodeMarks (s : State) (j : Job) (g : Nat) (n : U32) : State :=
  let x := s.geode g
  let f := frameAt j.k n
  let degraded := !x.lost.isEmpty || (match x.eclipse with
    | some e => !(match e.takeover with | some t => atOrAfter n t && e.copied | none => false)
    | none => false)
  let gap := decide (0x20 ≤ x.variant.toNat)
  let s1 := if degraded then s.markFrame j.id f g none 1 else s
  if gap then s1.markFrame j.id f g none 0x10 else s1

/-- LODE_SWITCH, step 3 (R46, R331–R334): a release comes before anything else of its beacon; a lode is activated that the
hub has ordered (R40). -/
def State.lodeStep (s : State) (j : Job) (g : Nat) (n : U32) : State :=
  if j.done.contains g then s
  else if (match j.releaseAt with | some r => atOrAfter n r | none => false) then (s.releaseGeode j g).fixPeriod
  else if suspendedAt j n then s
  else
    let order := MailMsg.lode (Fin.ofNat 16 j.slot) 0 j.start
    let s1 := if atOrAfter n j.start && (s.geode g).lodeSlot.isNone && (s.geode g).mailbox.contains order then s.activate j g else s
    let s2 := if n = j.first || j.resumeAt = some n then s1.firstFrame j g else s1
    let s3 := if atOrAfter n j.first then
        (s2.switchVariant j g (variantAt (s2.geode g) n)).geodeMarks j g n
      else s2
    s3.controlPage j g n

/-- Steps 2 to 4 for the job that holds the geode; then BSTN is made ready for the next beacon (R45). -/
def State.jobSteps (s : State) (g : Nat) (n : U32) : State :=
  match s.jobOn g with
  | none => s
  | some j =>
    let s1 := (s.calStep j g n).lodeStep j g n
    let s2 := if (s1.geode g).lodeSlot.isNone || suspendedAt j n then s1 else s1.takeover j g n
    s2.prepTable j g n

/-- A hub halt has put the device in FAULT (R468): the geode's job stops. -/
def State.faultStep (s : State) (g : Nat) : State :=
  let s1 := match s.jobOn g with
    | some j => if j.done.contains g then s else (s.releaseGeode j g).fixPeriod
    | none => s
  s1.quietModules g

/-- Step 5: the beacon goes on to the geode's cores, and to the supervisor's line 0 (R123, R142). -/
def State.beaconToCores (s : State) (g : Nat) (n : U32) : State :=
  ({ s with cores := modRange s.cores (9 * g) 9 (fun c => { c with beacons := c.beacons ++ [n] }) }).raiseSup g 0

/-- BEACON_ARRIVAL_GEODE (R46, R305): steps 1 to 4 in their order, then the cores' event sets out. -/
def execBeaconArrivalGeode (g : Fin 8) (s : State) : Host.Outcome State Fault Refusal :=
  .next (match (s.geode g.val).beacons with
    | [] => s
    | n :: rest =>
      let s0 := s.onGeode g.val (fun x => { x with beacons := rest })
      if (s0.geode g.val).inReset || s0.aon.islandsOff then s0
      else
        let snap := s0.fabricCounters g.val
        let s1 := s0.onGeode g.val (fun x => { x with beacon := some n, snap := some (n, snap) })
        let s2 := if s1.hub.halted then s1.faultStep g.val else s1.jobSteps g.val n
        (s2.dmaBeacon (.geode g)).beaconToCores g.val n)

/-- Beacon n opens a frame of the geode's job (R29). -/
def State.opensFrame (s : State) (g : Nat) (n : U32) : Bool :=
  match s.jobOn g with
  | some j => atOrAfter n j.first && n.toNat % Nat.max 1 j.k == 0 && !suspendedAt j n
  | none => false

/-- The core holds a role of the lode that is active on its geode (R331, R334). -/
def holdsRole (x : Geode) (c : Nat) : Bool :=
  x.lodeSlot.isSome && x.role.contains c && !(lostSlots x).contains (x.role.idxOf c)

/-- BEACON_EVENT_CORE_ARRIVAL (R46 step 5, R123, R125): the core captures its counters; an L0 window still open
closes; line 0 becomes pending. A core in service, or with a role, owes its checkpoint from its frame's first beacon on
(R41, R325). -/
def execBeaconEventCoreArrival (g : Fin 8) (c : Fin 9) (s : State) : Host.Outcome State Fault Refusal :=
  .next (match (s.core (.sig g c)).beacons with
    | [] => s
    | n :: rest =>
      let opens := s.opensFrame g.val n
      s.onCore (.sig g c) (fun k =>
        raiseLine { k with beacons := rest, snap := coreCounters k, l0open := false
                           checkpointDue := k.checkpointDue || (opens && (k.svc || holdsRole (s.geode g.val) c.val)) } 0))

/-! ### A beacon in the hub (R48, R346, R403, R470) -/

/-- The least-squares slope of temperature readings, as U of R403; none while it is not defined. -/
def slopeU (rs : List (Nat × Int)) : Option Nat :=
  let t0 : Int := (rs.headD (0, 0)).1
  let n : Int := rs.length
  let st := (rs.map (fun r => (r.1 : Int) - t0)).sum
  let sy := (rs.map (fun r => r.2)).sum
  let sty := (rs.map (fun r => ((r.1 : Int) - t0) * r.2)).sum
  let stt := (rs.map (fun r => ((r.1 : Int) - t0) * ((r.1 : Int) - t0))).sum
  let den := (n * stt - st * st).toNat
  let num := (n * sty - st * sy).natAbs * 2 ^ 56
  if den = 0 then none
  else if num ≤ 4 * den then some 64
  else if num ≤ 16 * den then some 32
  else if num ≤ 64 * den then some 16
  else some 8

/-- U of a stream: its module's readings of the last second, else the junction's (R403); where they give no slope, a free
choice of the four (log entry 68). -/
def State.streamU (s : State) (b : Nat) : Nat × State :=
  let now := now56 s.aon
  let recent := fun (l : List (Nat × Int)) => l.filter (fun r => decide (now < r.1 + 2 ^ 56))
  let own := recent (s.pos b).temps
  match slopeU (if own.isEmpty then recent s.aon.tjs else own) with
  | some u => (u, s)
  | none => let r := s.fresh; ([64, 32, 16, 8].getD (r.1 % 4) 64, r.2)

/-- W of R403 for a U. -/
def avgW (u : Nat) : Nat := 2 * u

/-- SWAP_FIXED (R403): at a swap beacon the hub fixes the next one, and tells every supervisor of the job. -/
def State.fixSwap (s : State) (id : U16) (n : U32) : State :=
  let d := s.decideSwap id n
  match d.1.jobOf id with
  | none => d.1
  | some j =>
    if j.nextSwap != some n then d.1
    else
      let bs := d.1.boundAt id
      let r := bs.foldl (fun (acc : Nat × State) b =>
        let q := acc.2.streamU b
        (Nat.min acc.1 q.1, q.2)) (64, d.1)
      let b1 := n + BitVec.ofNat 32 (r.1 * j.k)
      let s1 := (r.2.onJob id (fun x => { x with swapU := r.1, nextSwap := some b1 })).mailSwap j b1
      bs.foldl (fun t b => t.onStream b (fun x => { x with avg := Nat.min x.avg (avgW r.1) })) s1

/-- A frame joins the ranges of frames replaced by gap records (R346). -/
def addGap (l : List (U32 × Nat)) (f : U32) (k : Nat) : List (U32 × Nat) :=
  match l.getLast? with
  | some (a, n) => if a + BitVec.ofNat 32 (n * k) = f then l.dropLast ++ [(a, n + 1)] else l ++ [(f, 1)]
  | none => [(f, 1)]

/-- Results of a frame, from the results section (R316, R438). -/
def recordsOf (c : List Byte) : List (Nat × Nat) :=
  ((lodeResults c).filter (fun r => r.2.2 != 0)).map (fun r => (r.1, r.2.2))

/-- RESULT_GAP (R346): an unposted part of a frame whose slot is needed again is replaced by a gap record. -/
def State.replaceFrame (s : State) (j : Job) (f : U32) : State :=
  if j.frames.any (fun x => x.num == f) then
    (s.onJob j.id (fun x =>
      { x with
        frames := x.frames.filter (fun y => y.num != f), gaps := addGap x.gaps f x.k, gapped := x.gapped + 1
        post := x.post.filter (fun p => match p.item with | .frame y => y.num != f | _ => true) })).log
      { kind := 0x18, fn := byteOf j.fn, job := j.id, a := f, b := 1 }
  else s

/-- The beacon opens and ends frames of a job (R30, R346, R406). -/
def State.jobBeacon (s : State) (id : U16) (n : U32) : State :=
  let s1 := s.fixSwap id n
  match s1.jobOf id with
  | none => s1
  | some j =>
    if n.toNat % Nat.max 1 j.k ≠ 0 then s1
    else
      let f := n - BitVec.ofNat 32 j.k
      let ran := j.state != .admitted && frameRuns j f
      let s2 := if ran then
          (s1.replaceFrame j (f - BitVec.ofNat 32 (j.ds * j.k))).onJob id (fun x =>
            { x with frames := x.frames ++ [{ num := f, left := recordsOf (s1.lodeOf j.slot), gen := x.genOpen }] })
        else s1
      s2.onJob id (fun x =>
        { x with genOpen := x.gen
                 state := if x.state = .running && x.releaseAt.isSome && atOrAfter n x.last then .draining else x.state })

/-- BEACON_ARRIVAL_HUB (R48, R305, R346, R403, R448, R470). -/
def execBeaconArrivalHub (s : State) : Host.Outcome State Fault Refusal :=
  .next (match s.hub.beacons with
    | [] => s
    | n :: rest =>
      let counts := s.hubCounters
      let s0 := s.onHub (fun h => { h with beacons := rest })
      if s0.aon.islandsOff then s0
      else
        let s1 := s0.onHub (fun h =>
          { h with beacon := some n, snap := some (n, counts), log := h.log.map (fun e => { e with readable := true }) })
        let s2 := s1.dmaBeacon .host
        if s2.hub.halted || s2.hub.resetting then s2
        else (((s2.hub.jobs.map (fun j => j.id)).foldl (fun t id => t.jobBeacon id n) s2).flrSlots).raiseHub 0)

/-! ### Mailboxes (R40, R41, R142) -/

/-- HUB_MAILBOX_MESSAGE (R24, R40, R142): the message sent to a supervisor first reaches it, and its line 10 becomes
pending; a message that is not the next one changes nothing. -/
def execHubMailboxMessage (g : Fin 8) (m : MailMsg) (s : State) : Host.Outcome State Fault Refusal :=
  .next (if (s.hub.mail.find? (fun e => e.1 == g.val)).map (fun e => e.2) == some m then
      ((s.onHub (fun h => { h with mail := h.mail.erase (g.val, m) })).onGeode g.val
        (fun x => { x with mailbox := x.mailbox ++ [m] })).raiseSup g.val 10
    else s)

/-- GEODE_MAILBOX_MESSAGE (R41, R142): the hub's line of the geode. What it reports, the supervisor has already logged
with the event itself. -/
def execGeodeMailboxMessage (g : Fin 8) (_m : GeodeReport) (s : State) : Host.Outcome State Fault Refusal :=
  .next (s.raiseHub (1 + g.val))

/-! ### Failed cores (R41, R464, R465) -/

/-- WATCHDOG_MISS (R41, R325, R464): of a core that has not reached the checkpoint that it owes; while L3ACT = 1 it is a
double fault (R135). -/
def execWatchdogMiss (g : Fin 8) (c : Fin 9) (s : State) : Host.Outcome State Fault Refusal :=
  let k := s.core (.sig g c)
  .next (if k.stop.isSome || !k.checkpointDue || s.supWaits g.val then s
    else
      let s0 := s.onGeode g.val (fun x => { x with wdogMiss := ctrAdd 16 x.wdogMiss 1 })
      let s1 := if k.l3act then
          (s0.onCore (.sig g c) (fun x => { doubleFault x with attn := false })).raiseSup g.val (1 + c.val)
        else s0
      s1.eclipseCore g.val c.val (if k.l3act then 2 else 3))

/-- A core that the supervisor replaces when it fails (R271, R336): one in service, one that holds a role of an activated
lode, and the spare that is to take a slot. -/
def replaced (x : Geode) (k : Core) (c : Nat) : Bool :=
  k.svc || holdsRole x c || (x.spare == some c && x.eclipse.isSome)

/-- CORE_ATTENTION (R135, R271, R336, R464): the supervisor answers a core's attention line. -/
def execCoreAttention (g : Fin 8) (c : Fin 9) (s : State) : Host.Outcome State Fault Refusal :=
  let k := s.core (.sig g c)
  .next (if !k.attn || s.supWaits g.val then s
    else
      let s1 := s.onCore (.sig g c) (fun x => { x with attn := false })
      if replaced (s.geode g.val) k c.val then s1.eclipseCore g.val c.val (if k.stop = some .doubleFault then 2 else 1) else s1)

/-- SPARE_IMAGE_COPY_COMPLETE (R43, R45, R464 step 3): the spare holds the role's image. Where the job is released by the
takeover beacon, the image is that of the lode that runs then: its activation loads it. -/
def execSpareImageCopyComplete (g : Fin 8) (s : State) : Host.Outcome State Fault Refusal :=
  let x := s.geode g.val
  .next (match x.eclipse, x.spare, s.jobOn g.val with
    | some e, some sp, some j =>
      if e.copied || s.supWaits g.val then s
      else
        let over_ := match j.releaseAt, e.takeover with
          | some r, some t => atOrAfter t r
          | _, _ => false
        let s1 := s.coreReset g.val sp
        let s2 := if over_ then s1 else s1.installRole (s.lodeOf j.slot) g.val (lodeGeode j g.val) e.slot sp
        (s2.onGeode g.val (fun y => { y with eclipse := some { e with copied := true } })).prepTable j g.val (x.beacon.getD 0)
    | _, _, _ => s)

/-- CORE_SELF_TEST_COMPLETE (R42, R464 step 6, R465): an eclipsed core becomes the spare or is retired; a spare that fails
is retired. The spare tests itself between takeovers, not while it is to take a slot. -/
def execCoreSelfTestComplete (g : Fin 8) (c : Fin 9) (pass : Bool) (s : State) : Host.Outcome State Fault Refusal :=
  let x := s.geode g.val
  let was := x.eclipsed.contains c.val
  .next (if x.retired.contains c.val || !(was || (x.spare == some c.val && x.eclipse.isNone)) || s.supWaits g.val ||
      (s.core (.sig g c)).held then s
    else
      let s1 := s.coreReset g.val c.val
      let s2 := s1.onGeode g.val (fun y => { y with eclipsed := y.eclipsed.filter (· != c.val) })
      if pass then
        (s2.onGeode g.val (fun y => { y with spare := if y.spare.isNone then some c.val else y.spare })).resumeSolves g.val
      else
        (s2.onGeode g.val (fun y =>
          { y with retired := y.retired ++ [c.val], spare := if y.spare = some c.val then none else y.spare })).log
          { kind := 0x0F, geode := byteOf g.val, unit := byteOf c.val, a := 0 })

end Sys2Proof.Machine
end

