-- ==== Sys2Proof/Machine/Calibration.lean ====
section
/-! DEFINITION. The events of live calibration (chapter 12): epochs (R392, R394, R407), shadow sets (R404), the resending
of INJECT (R408), and the solves (R413, R414). A halted supervisor does none of its duties (R487). -/

namespace Sys2Proof.Machine
open Sys2Proof

/-! ### Epochs (R392, R394, R407) -/

/-- PNR of at least 20 dB, and below 6 dB (R394, R407). -/
def pnrGood (r : EpochResult) : Bool := decide (20 ≤ r.pnr)
def pnrLow (r : EpochResult) : Bool := decide (r.pnr < 6)

/-- The estimate is accepted (R394): an empty average has no limits. -/
def accepted (st : Stream) (r : EpochResult) : Bool := pnrGood r && (st.avg == 0 || r.inLimits)

/-- W of the stream's job (R394, R403). -/
def State.avgWOf (s : State) (job : U16) : Nat :=
  match s.jobOf job with
  | some j => 2 * j.swapU
  | none => 128

/-- The average takes an estimate, or is being filled by 8 consecutive ones (R394); while the cause of a hold lasts no
epoch counts (R410). -/
def averageEpoch (w : Nat) (st : Stream) (r : EpochResult) : Stream :=
  if !st.cleared then st
  else if 0 < st.avg then (if accepted st r then { st with avg := Nat.min w (st.avg + 1) } else st)
  else if !pnrGood r then { st with fill := 0 }
  else
    let n := if st.fill = 0 || r.nearPrevious then st.fill + 1 else 1
    if 8 ≤ n then { st with avg := 8, fill := 0 } else { st with fill := n }

/-- Runs of rejected estimates and of low PNR (R407). -/
def judgeEpoch (st : Stream) (r : EpochResult) : Stream :=
  { st with
    rejects := if accepted st r || pnrLow r then 0 else st.rejects + 1
    lowPnr := if pnrLow r then st.lowPnr + 1 else 0 }

/-- An epoch of a bound stream. -/
def State.streamEpoch (s : State) (b : Nat) (st : Stream) (r : EpochResult) : State :=
  let st1 := judgeEpoch st r
  let s1 := s.onStream b (fun _ => averageEpoch (s.avgWOf st.job) st1 r)
  if 2 ≤ st1.lowPnr then s1.hold b 2
  else if 8 ≤ st1.rejects then s1.hold b 1
  else s1

/-- EPOCH_END (R392, R394, R407): a discarded epoch counts for nothing; an epoch of a solve counts in the solve (R413). -/
def execEpochEnd (p : Fin 32) (r : EpochResult) (s : State) : Host.Outcome State Fault Refusal :=
  let b := p.val
  .next (if s.supWaits (b / 4) || r.discarded then s
    else match (s.pos b).solving, (s.pos b).stream with
      | some k, _ =>
        if s.solveWaits (b / 4) then s
        else s.onPos b (fun x => { x with solving := some (if pnrGood r && r.inLimits then k + 1 else k) })
      | none, some st => if injects st && (s.pos b).inject then s.streamEpoch b st r else s
      | none, none => s)

/-! ### Shadow sets (R402, R404) -/

/-- A shadow may be written now (R404): the average holds 8 estimates, and K beacons have passed since the set stopped
being lit. -/
def State.shadowFree (s : State) (b : Nat) (st : Stream) : Bool :=
  let k := match s.jobOf st.job with | some j => j.k | none => 1
  decide (8 ≤ st.avg) && injects st && !(s.pos b).changed &&
    (match st.unlit, (s.geode (b / 4)).beacon with
     | some u, some n => atOrAfter n (u + BitVec.ofNat 32 k)
     | some _, none => false
     | none, _ => true)

/-- The shadow of a stream, built from its average (R400, R404): what the average holds is free (log entry 43). -/
def State.buildShadow (s : State) (b : Nat) (st : Stream) : State :=
  let e := s.freshWords 17
  let d := (BitVec.ofNat 28 (e.1.headD 0)).toInt
  let sresp := (e.1.drop 1).map (fun v => (BitVec.ofNat 14 v : Word))
  let dref := match (e.2.jobOf st.job).bind (fun j => j.dref) with | some x => x | none => 0
  let r := e.2.makeSet st d sresp dref (s.pos b).inject
  (r.2.putSet (b / 4) st (!st.lit) r.1).onStream b (fun x => { x with valid := true })

/-- SHADOW_BUILD_COMPLETE (R402, R404, R407): a stream out of range is held. -/
def execShadowBuildComplete (p : Fin 32) (outOfRange : Bool) (s : State) : Host.Outcome State Fault Refusal :=
  let b := p.val
  .next (match (s.pos b).stream with
    | none => s
    | some st =>
      if s.supWaits (b / 4) || !s.shadowFree b st then s
      else if outOfRange then s.hold b 4
      else s.buildShadow b st)

/-- INJECT_RESEND_TIMEOUT (R408): 10 ms of a hold of cause 011. -/
def execInjectResendTimeout (p : Fin 32) (s : State) : Host.Outcome State Fault Refusal :=
  let b := p.val
  .next (match (s.pos b).stream with
    | none => s
    | some st =>
      if (st.holdDue.getD (if st.held then st.cause else 0)) == 3 && !s.supWaits (b / 4) then s.sendInject b true else s)

/-! ### Solves (R413, R414) -/

/-- Two pages more leave every resident lode of the geode what R319 counts. -/
def State.solveFits (s : State) (g : Nat) : Bool :=
  let solving := ((List.range 4).map (fun l => (s.pos (4 * g + l)).solvePages.length)).sum
  decide (2 ≤ (s.geode g).pool.length) &&
    (s.hub.slots.all (fun x =>
      match (if x.state == .verified then x.pages.find? (fun q => q.1 == g) else none) with
      | none => true
      | some _ =>
        let lg := (maskGeodes x.mask).idxOf g
        decide (s.residentPages g 16 + 1 + resStatic x.bytes lg + resPool x.bytes lg + solving + 2 ≤ 511)))

/-- A position solve may begin (R414), or one that CAL_SOLVE asked for (R444). -/
def State.solveDue (s : State) (b : Nat) : Bool :=
  let p := s.pos b
  let seeded := match p.est with | some e => e.source == .seed | none => false
  p.mod == .live && p.stream.isNone && recInjCap p.record && p.solving.isNone && (seeded || p.solveReq) &&
    s.aon.devstate != .starting && !s.solveWaits (b / 4) && s.solveFits (b / 4)

/-- POSITION_SOLVE_START (R391, R414). -/
def execPositionSolveStart (p : Fin 32) (s : State) : Host.Outcome State Fault Refusal :=
  .next (if s.solveDue p.val && !s.supWaits (p.val / 4) then s.beginSolve p.val else s)

/-- SOLVE_COMPLETE (R396, R413, R414): 32 estimates make the record SOLVED. -/
def execSolveComplete (p : Fin 32) (estimates : Nat) (s : State) : Host.Outcome State Fault Refusal :=
  let b := p.val
  .next (if (s.pos b).solving.isNone || s.supWaits (b / 4) || s.solveWaits (b / 4) then s
    else
      let s1 := if 32 ≤ estimates then s.measuredEst b .solved
        else s.log { kind := 0x27, geode := byteOf (b / 4), unit := byteOf b, a := u32 estimates }
      s1.stopSolve b)

end Sys2Proof.Machine
end

