-- ==== Sys2Proof/Machine/ExecA.lean ====
section
/-! DEFINITION. The meanings of the address class (R226): each operation reaches its core, and the last one of a
bundle issues it (R58, R59, R63). What an operation reads, raises and does is its answer in OpTable.lean; what its
bundle does with the answers is Issue.lean. -/

namespace Sys2Proof.Machine
open Sys2Proof

/-- LD Dd, ea (R226, R250). Its bundle issues with its last operation. -/
def execLd (i : Site) (f : AMF) (s : State) : Host.Outcome State Fault Refusal :=
  .next (issueOp i (.ld i f) s)

/-- LD.D Dk, ea (R252). Its bundle issues with its last operation. -/
def execLdD (i : Site) (f : AMF) (s : State) : Host.Outcome State Fault Refusal :=
  .next (issueOp i (.ldD i f) s)

/-- ST ea, Ds (R226, R250). Its bundle issues with its last operation. -/
def execSt (i : Site) (f : AMF) (s : State) : Host.Outcome State Fault Refusal :=
  .next (issueOp i (.st i f) s)

/-- ST.D ea, Dk (R252). Its bundle issues with its last operation. -/
def execStD (i : Site) (f : AMF) (s : State) : Host.Outcome State Fault Refusal :=
  .next (issueOp i (.stD i f) s)

/-- VLD Vd, ea (R194). Its bundle issues with its last operation. -/
def execVld (i : Site) (f : AMF) (s : State) : Host.Outcome State Fault Refusal :=
  .next (issueOp i (.vld i f) s)

/-- VST ea, Vs (R194). Its bundle issues with its last operation. -/
def execVst (i : Site) (f : AMF) (s : State) : Host.Outcome State Fault Refusal :=
  .next (issueOp i (.vst i f) s)

/-- VLDS Vd, (An), Mm (R194). Its bundle issues with its last operation. -/
def execVlds (i : Site) (f : AMF) (s : State) : Host.Outcome State Fault Refusal :=
  .next (issueOp i (.vlds i f) s)

/-- VSTS (An), Mm, Vs (R194). Its bundle issues with its last operation. -/
def execVsts (i : Site) (f : AMF) (s : State) : Host.Outcome State Fault Refusal :=
  .next (issueOp i (.vsts i f) s)

/-- VLDX Vd, (An), Vt (R194, R197). Its bundle issues with its last operation. -/
def execVldx (i : Site) (f : AXF) (s : State) : Host.Outcome State Fault Refusal :=
  .next (issueOp i (.vldx i f) s)

/-- VSTX (An), Vt, Vs (R194, R197). Its bundle issues with its last operation. -/
def execVstx (i : Site) (f : AXF) (s : State) : Host.Outcome State Fault Refusal :=
  .next (issueOp i (.vstx i f) s)

/-- AADD An, Mm (R250). Its bundle issues with its last operation. -/
def execAadd (i : Site) (f : AMF) (s : State) : Host.Outcome State Fault Refusal :=
  .next (issueOp i (.aadd i f) s)

/-- AADDI An, #i12 (R250). Its bundle issues with its last operation. -/
def execAaddi (i : Site) (slot : ASlot) (an : BitVec 4) (imm : BitVec 12) (s : State) : Host.Outcome State Fault Refusal :=
  .next (issueOp i (.aaddi i slot an imm) s)

/-- AMV Rd, Rs (R226, R225). Its bundle issues with its last operation. -/
def execAmv (i : Site) (slot : ASlot) (rd : BitVec 6) (rs : BitVec 6) (s : State) : Host.Outcome State Fault Refusal :=
  .next (issueOp i (.amv i slot rd rs) s)

/-- AMOVL R, #u12 (R226). Its bundle issues with its last operation. -/
def execAmovl (i : Site) (slot : ASlot) (r : BitVec 6) (imm : BitVec 12) (s : State) : Host.Outcome State Fault Refusal :=
  .next (issueOp i (.amovl i slot r imm) s)

/-- AMOVH R, #u12 (R226). Its bundle issues with its last operation. -/
def execAmovh (i : Site) (slot : ASlot) (r : BitVec 6) (imm : BitVec 12) (s : State) : Host.Outcome State Fault Refusal :=
  .next (issueOp i (.amovh i slot r imm) s)

/-- PALLOC An (R265). Its bundle issues with its last operation. -/
def execPalloc (i : Site) (f : AMF) (s : State) : Host.Outcome State Fault Refusal :=
  .next (issueOp i (.palloc i f) s)

/-- PFREE An (R265). Its bundle issues with its last operation. -/
def execPfree (i : Site) (f : AMF) (s : State) : Host.Outcome State Fault Refusal :=
  .next (issueOp i (.pfree i f) s)

end Sys2Proof.Machine
end

