-- ==== Sys2Proof/Machine/ExecC.lean ====
section
/-! DEFINITION. The meanings of the control class (R230) and the user decode operation (R240): each operation reaches its core, and the last one of a
bundle issues it (R58, R59, R63). What an operation reads, raises and does is its answer in OpTable.lean; what its
bundle does with the answers is Issue.lean. -/

namespace Sys2Proof.Machine
open Sys2Proof

/-- NOP; the short no-operation occupies no slot (R61). Its bundle issues with its last operation. -/
def execNop (i : Site) (s : State) : Host.Outcome State Fault Refusal :=
  .next (issueOp i (.nop i) s)

/-- B.cc and B.cc.A (R73–R79). Its bundle issues with its last operation. -/
def execBCc (i : Site) (cc : BitVec 4) (a : Bool) (disp : BitVec 12) (s : State) : Host.Outcome State Fault Refusal :=
  .next (issueOp i (.bCc i cc a disp) s)

/-- BRA (R77). Its bundle issues with its last operation. -/
def execBra (i : Site) (a : Bool) (disp : IAddr) (s : State) : Host.Outcome State Fault Refusal :=
  .next (issueOp i (.bra i a disp) s)

/-- CALL (R78). Its bundle issues with its last operation. -/
def execCall (i : Site) (a : Bool) (disp : IAddr) (s : State) : Host.Outcome State Fault Refusal :=
  .next (issueOp i (.call i a disp) s)

/-- CALLO (R130). Its bundle issues with its last operation. -/
def execCallo (i : Site) (a : Bool) (disp : IAddr) (s : State) : Host.Outcome State Fault Refusal :=
  .next (issueOp i (.callo i a disp) s)

/-- JMP An (R77). Its bundle issues with its last operation. -/
def execJmp (i : Site) (a : Bool) (an : BitVec 4) (s : State) : Host.Outcome State Fault Refusal :=
  .next (issueOp i (.jmp i a an) s)

/-- CALL An (R77, R78). Its bundle issues with its last operation. -/
def execCallAn (i : Site) (a : Bool) (an : BitVec 4) (s : State) : Host.Outcome State Fault Refusal :=
  .next (issueOp i (.callAn i a an) s)

/-- CALLO An (R130). Its bundle issues with its last operation. -/
def execCalloAn (i : Site) (a : Bool) (an : BitVec 4) (s : State) : Host.Outcome State Fault Refusal :=
  .next (issueOp i (.calloAn i a an) s)

/-- RET (R78). Its bundle issues with its last operation. -/
def execRet (i : Site) (a : Bool) (s : State) : Host.Outcome State Fault Refusal :=
  .next (issueOp i (.ret i a) s)

/-- RETO (R130). Its bundle issues with its last operation. -/
def execReto (i : Site) (a : Bool) (s : State) : Host.Outcome State Fault Refusal :=
  .next (issueOp i (.reto i a) s)

/-- RTE: levels L2 and L3 alone (R128). Its bundle issues with its last operation. -/
def execRte (i : Site) (s : State) : Host.Outcome State Fault Refusal :=
  .next (issueOp i (.rte i) s)

/-- LOOP (R87, R88, R91, R230): LTAIL within instruction memory and not inside the LOOP bundle, a free loop level. Its bundle issues with its last operation. -/
def execLoop (i : Site) (f : LoopF) (s : State) : Host.Outcome State Fault Refusal :=
  .next (issueOp i (.loop i f) s)

/-- REP (R95, R96): with I = 0 a register count above 1,024 is illegal. Its bundle issues with its last operation. -/
def execRep (i : Site) (f : RepF) (s : State) : Host.Outcome State Fault Refusal :=
  .next (issueOp i (.rep i f) s)

/-- BARP #b (R83). Its bundle issues with its last operation. -/
def execBarp (i : Site) (b : Bool) (s : State) : Host.Outcome State Fault Refusal :=
  .next (issueOp i (.barp i b) s)

/-- FLUSHP (R83). Its bundle issues with its last operation. -/
def execFlushp (i : Site) (s : State) : Host.Outcome State Fault Refusal :=
  .next (issueOp i (.flushp i) s)

/-- SIGNAL #u3: C[5:3] are reserved (R230, R275). Its bundle issues with its last operation. -/
def execSignal (i : Site) (c : BitVec 6) (s : State) : Host.Outcome State Fault Refusal :=
  .next (issueOp i (.signal i c) s)

/-- WAITE: illegal at level L2, a double fault at level L3 (R126, R135). Its bundle issues with its last operation. -/
def execWaite (i : Site) (s : State) : Host.Outcome State Fault Refusal :=
  .next (issueOp i (.waite i) s)

/-- TSTART c, Ds (R236). Its bundle issues with its last operation. -/
def execTstart (i : Site) (ds : BitVec 5) (c : BitVec 6) (s : State) : Host.Outcome State Fault Refusal :=
  .next (issueOp i (.tstart i ds c) s)

/-- TRESUME c (R236). Its bundle issues with its last operation. -/
def execTresume (i : Site) (c : BitVec 6) (s : State) : Host.Outcome State Fault Refusal :=
  .next (issueOp i (.tresume i c) s)

/-- TSTOP c (R236). Its bundle issues with its last operation. -/
def execTstop (i : Site) (c : BitVec 6) (s : State) : Host.Outcome State Fault Refusal :=
  .next (issueOp i (.tstop i c) s)

/-- TSET Dc, Ds: Dc[5:0] names the context, Ds[1:0] is the priority (R236). Its bundle issues with its last operation. -/
def execTset (i : Site) (f : R3) (s : State) : Host.Outcome State Fault Refusal :=
  .next (issueOp i (.tset i f) s)

/-- User decode operation (R242): every substituted field is checked and every page translated at the bundle's issue;
micro-operation 0 issues with the bundle, the others follow one by one. Its bundle issues with its last operation. -/
def execUserDecodeOperation (i : Site) (uidx : BitVec 4) (p0 : BitVec 5) (p1 : BitVec 5) (p2 : BitVec 5) (p3 : BitVec 4) (s : State) : Host.Outcome State Fault Refusal :=
  .next (issueOp i (.userDecodeOperation i uidx p0 p1 p2 p3) s)

end Sys2Proof.Machine
end

