-- ==== Sys2Proof/Machine/ExecD.lean ====
section
/-! DEFINITION. The meanings of the D family (R227): each operation reaches its core, and the last one of a
bundle issues it (R58, R59, R63). What an operation reads, raises and does is its answer in OpTable.lean; what its
bundle does with the answers is Issue.lean. -/

namespace Sys2Proof.Machine
open Sys2Proof

/-- ADD Dd, Ds, Dt and ADD Dd, Ds, #i8 (R150). Its bundle issues with its last operation. -/
def execAdd (i : Site) (f : AluF) (s : State) : Host.Outcome State Fault Refusal :=
  .next (issueOp i (.add i f) s)

/-- ADC (R150). Its bundle issues with its last operation. -/
def execAdc (i : Site) (f : R3) (s : State) : Host.Outcome State Fault Refusal :=
  .next (issueOp i (.adc i f) s)

/-- SUB Dd, Ds, Dt and SUB Dd, Ds, #i8 (R150). Its bundle issues with its last operation. -/
def execSub (i : Site) (f : AluF) (s : State) : Host.Outcome State Fault Refusal :=
  .next (issueOp i (.sub i f) s)

/-- SBC: the borrow in is 1 − C (R150). Its bundle issues with its last operation. -/
def execSbc (i : Site) (f : R3) (s : State) : Host.Outcome State Fault Refusal :=
  .next (issueOp i (.sbc i f) s)

/-- CMP Ds, Dt and CMP Ds, #i8 (R150). Its bundle issues with its last operation. -/
def execCmp (i : Site) (f : CmpF) (s : State) : Host.Outcome State Fault Refusal :=
  .next (issueOp i (.cmp i f) s)

/-- NEG (R150). Its bundle issues with its last operation. -/
def execNeg (i : Site) (f : R3) (s : State) : Host.Outcome State Fault Refusal :=
  .next (issueOp i (.neg i f) s)

/-- ABS: C is unchanged (R148, R150). Its bundle issues with its last operation. -/
def execAbs (i : Site) (f : R3) (s : State) : Host.Outcome State Fault Refusal :=
  .next (issueOp i (.abs i f) s)

/-- MIN, signed (R150). Its bundle issues with its last operation. -/
def execMin (i : Site) (f : R3) (s : State) : Host.Outcome State Fault Refusal :=
  .next (issueOp i (.min i f) s)

/-- MAX, signed (R150). Its bundle issues with its last operation. -/
def execMax (i : Site) (f : R3) (s : State) : Host.Outcome State Fault Refusal :=
  .next (issueOp i (.max i f) s)

/-- MINU, unsigned (R150). Its bundle issues with its last operation. -/
def execMinu (i : Site) (f : R3) (s : State) : Host.Outcome State Fault Refusal :=
  .next (issueOp i (.minu i f) s)

/-- MAXU, unsigned (R150). Its bundle issues with its last operation. -/
def execMaxu (i : Site) (f : R3) (s : State) : Host.Outcome State Fault Refusal :=
  .next (issueOp i (.maxu i f) s)

/-- AND (R150). Its bundle issues with its last operation. -/
def execAnd (i : Site) (f : R3) (s : State) : Host.Outcome State Fault Refusal :=
  .next (issueOp i (.and i f) s)

/-- OR (R150). Its bundle issues with its last operation. -/
def execOr (i : Site) (f : R3) (s : State) : Host.Outcome State Fault Refusal :=
  .next (issueOp i (.or i f) s)

/-- XOR (R150). Its bundle issues with its last operation. -/
def execXor (i : Site) (f : R3) (s : State) : Host.Outcome State Fault Refusal :=
  .next (issueOp i (.xor i f) s)

/-- ANDN: s and not t (R150). Its bundle issues with its last operation. -/
def execAndn (i : Site) (f : R3) (s : State) : Host.Outcome State Fault Refusal :=
  .next (issueOp i (.andn i f) s)

/-- NOT (R150). Its bundle issues with its last operation. -/
def execNot (i : Site) (f : R3) (s : State) : Host.Outcome State Fault Refusal :=
  .next (issueOp i (.not i f) s)

/-- MOV (R150). Its bundle issues with its last operation. -/
def execMov (i : Site) (f : R3) (s : State) : Host.Outcome State Fault Refusal :=
  .next (issueOp i (.mov i f) s)

/-- MOVI (R150). Its bundle issues with its last operation. -/
def execMovi (i : Site) (x : BitVec 5) (imm : Word) (s : State) : Host.Outcome State Fault Refusal :=
  .next (issueOp i (.movi i x imm) s)

/-- ADD.D (R150). Its bundle issues with its last operation. -/
def execAddD (i : Site) (f : R3) (s : State) : Host.Outcome State Fault Refusal :=
  .next (issueOp i (.addD i f) s)

/-- ADC.D (R150). Its bundle issues with its last operation. -/
def execAdcD (i : Site) (f : R3) (s : State) : Host.Outcome State Fault Refusal :=
  .next (issueOp i (.adcD i f) s)

/-- SUB.D (R150). Its bundle issues with its last operation. -/
def execSubD (i : Site) (f : R3) (s : State) : Host.Outcome State Fault Refusal :=
  .next (issueOp i (.subD i f) s)

/-- SBC.D (R150). Its bundle issues with its last operation. -/
def execSbcD (i : Site) (f : R3) (s : State) : Host.Outcome State Fault Refusal :=
  .next (issueOp i (.sbcD i f) s)

/-- CMP.D Dm, Dn (R150). Its bundle issues with its last operation. -/
def execCmpD (i : Site) (f : R3) (s : State) : Host.Outcome State Fault Refusal :=
  .next (issueOp i (.cmpD i f) s)

/-- NEG.D (R150). Its bundle issues with its last operation. -/
def execNegD (i : Site) (f : R3) (s : State) : Host.Outcome State Fault Refusal :=
  .next (issueOp i (.negD i f) s)

/-- MOV.D (R150). Its bundle issues with its last operation. -/
def execMovD (i : Site) (f : R3) (s : State) : Host.Outcome State Fault Refusal :=
  .next (issueOp i (.movD i f) s)

/-- MVAD (R150, R227): B[0] = 0 moves Dk to An, B[0] = 1 moves An to Dk; B[1] is unused. Its bundle issues with its last operation. -/
def execMvad (i : Site) (f : R3) (s : State) : Host.Outcome State Fault Refusal :=
  .next (issueOp i (.mvad i f) s)

/-- LSH Dd, Ds, Dt (R152). Its bundle issues with its last operation. -/
def execLsh (i : Site) (f : R3) (s : State) : Host.Outcome State Fault Refusal :=
  .next (issueOp i (.lsh i f) s)

/-- ASH Dd, Ds, Dt (R152). Its bundle issues with its last operation. -/
def execAsh (i : Site) (f : R3) (s : State) : Host.Outcome State Fault Refusal :=
  .next (issueOp i (.ash i f) s)

/-- LSL Dd, Ds, #u5: the encoded count I is u5 (R152, R227). Its bundle issues with its last operation. -/
def execLsl (i : Site) (f : RI6) (s : State) : Host.Outcome State Fault Refusal :=
  .next (issueOp i (.lsl i f) s)

/-- LSR Dd, Ds, #u5: the encoded count I is −u5 (R152, R227). Its bundle issues with its last operation. -/
def execLsr (i : Site) (f : RI6) (s : State) : Host.Outcome State Fault Refusal :=
  .next (issueOp i (.lsr i f) s)

/-- ASL Dd, Ds, #u5 (R152, R227). Its bundle issues with its last operation. -/
def execAsl (i : Site) (f : RI6) (s : State) : Host.Outcome State Fault Refusal :=
  .next (issueOp i (.asl i f) s)

/-- ASR Dd, Ds, #u5 (R152, R227). Its bundle issues with its last operation. -/
def execAsr (i : Site) (f : RI6) (s : State) : Host.Outcome State Fault Refusal :=
  .next (issueOp i (.asr i f) s)

/-- LSH.D (R152). Its bundle issues with its last operation. -/
def execLshD (i : Site) (f : R3) (s : State) : Host.Outcome State Fault Refusal :=
  .next (issueOp i (.lshD i f) s)

/-- ASH.D (R152). Its bundle issues with its last operation. -/
def execAshD (i : Site) (f : R3) (s : State) : Host.Outcome State Fault Refusal :=
  .next (issueOp i (.ashD i f) s)

/-- MPY (R157). Its bundle issues with its last operation. -/
def execMpy (i : Site) (f : R3) (s : State) : Host.Outcome State Fault Refusal :=
  .next (issueOp i (.mpy i f) s)

/-- MAC (R157). Its bundle issues with its last operation. -/
def execMac (i : Site) (f : R3) (s : State) : Host.Outcome State Fault Refusal :=
  .next (issueOp i (.mac i f) s)

/-- MSU (R157). Its bundle issues with its last operation. -/
def execMsu (i : Site) (f : R3) (s : State) : Host.Outcome State Fault Refusal :=
  .next (issueOp i (.msu i f) s)

/-- CMPY (R157). Its bundle issues with its last operation. -/
def execCmpy (i : Site) (f : R3) (s : State) : Host.Outcome State Fault Refusal :=
  .next (issueOp i (.cmpy i f) s)

/-- CMAC (R157). Its bundle issues with its last operation. -/
def execCmac (i : Site) (f : R3) (s : State) : Host.Outcome State Fault Refusal :=
  .next (issueOp i (.cmac i f) s)

/-- CMACJ (R157). Its bundle issues with its last operation. -/
def execCmacj (i : Site) (f : R3) (s : State) : Host.Outcome State Fault Refusal :=
  .next (issueOp i (.cmacj i f) s)

/-- ADDA (R157). Its bundle issues with its last operation. -/
def execAdda (i : Site) (f : R3) (s : State) : Host.Outcome State Fault Refusal :=
  .next (issueOp i (.adda i f) s)

/-- SUBA (R157). Its bundle issues with its last operation. -/
def execSuba (i : Site) (f : R3) (s : State) : Host.Outcome State Fault Refusal :=
  .next (issueOp i (.suba i f) s)

/-- NEGA (R157). Its bundle issues with its last operation. -/
def execNega (i : Site) (f : R3) (s : State) : Host.Outcome State Fault Refusal :=
  .next (issueOp i (.nega i f) s)

/-- ASHA: left fits, right truncates (R157). Its bundle issues with its last operation. -/
def execAsha (i : Site) (f : RI6) (s : State) : Host.Outcome State Fault Refusal :=
  .next (issueOp i (.asha i f) s)

/-- CLRA: no flags, latency 1 (R148, R157). Its bundle issues with its last operation. -/
def execClra (i : Site) (f : R3) (s : State) : Host.Outcome State Fault Refusal :=
  .next (issueOp i (.clra i f) s)

/-- MVP (R105, R157, R159, R227): Z[1:0] is the part, B[0] the direction; other bits of Z and B are unused. Its bundle issues with its last operation. -/
def execMvp (i : Site) (f : R3) (s : State) : Host.Outcome State Fault Refusal :=
  .next (issueOp i (.mvp i f) s)

/-- MULF (R157, R166). Its bundle issues with its last operation. -/
def execMulf (i : Site) (f : R3) (s : State) : Host.Outcome State Fault Refusal :=
  .next (issueOp i (.mulf i f) s)

/-- MUL.D: exact; illegal in wide mode (R157, R166). Its bundle issues with its last operation. -/
def execMulD (i : Site) (f : R3) (s : State) : Host.Outcome State Fault Refusal :=
  .next (issueOp i (.mulD i f) s)

/-- MVR (R163, R166). Its bundle issues with its last operation. -/
def execMvr (i : Site) (f : R3) (s : State) : Host.Outcome State Fault Refusal :=
  .next (issueOp i (.mvr i f) s)

/-- MVI (R163, R166). Its bundle issues with its last operation. -/
def execMvi (i : Site) (f : R3) (s : State) : Host.Outcome State Fault Refusal :=
  .next (issueOp i (.mvi i f) s)

/-- EXPD: D7 keeps the unsigned maximum (R164). Its bundle issues with its last operation. -/
def execExpd (i : Site) (f : R3) (s : State) : Host.Outcome State Fault Refusal :=
  .next (issueOp i (.expd i f) s)

/-- EXPD.S (R164): B is 1 in its encoding. Its bundle issues with its last operation. -/
def execExpdS (i : Site) (f : R3) (s : State) : Host.Outcome State Fault Refusal :=
  .next (issueOp i (.expdS i f) s)

/-- DIV (R168–R170). Its bundle issues with its last operation. -/
def execDiv (i : Site) (f : R3) (s : State) : Host.Outcome State Fault Refusal :=
  .next (issueOp i (.div i f) s)

/-- DIVU (R168–R170). Its bundle issues with its last operation. -/
def execDivu (i : Site) (f : R3) (s : State) : Host.Outcome State Fault Refusal :=
  .next (issueOp i (.divu i f) s)

/-- DADD (R174). Its bundle issues with its last operation. -/
def execDadd (i : Site) (f : R3) (s : State) : Host.Outcome State Fault Refusal :=
  .next (issueOp i (.dadd i f) s)

/-- DSUB (R174). Its bundle issues with its last operation. -/
def execDsub (i : Site) (f : R3) (s : State) : Host.Outcome State Fault Refusal :=
  .next (issueOp i (.dsub i f) s)

/-- DAJ (R174). Its bundle issues with its last operation. -/
def execDaj (i : Site) (f : R3) (s : State) : Host.Outcome State Fault Refusal :=
  .next (issueOp i (.daj i f) s)

/-- MVS (R106, R235): DIR = 0 reads, DIR = 1 writes with latency 1. An MVS of FSTAT on a signal core uses the F
state (R136). Its bundle issues with its last operation. -/
def execMvs (i : Site) (x : BitVec 5) (sys : BitVec 8) (dir : Bool) (s : State) : Host.Outcome State Fault Refusal :=
  .next (issueOp i (.mvs i x sys dir) s)

/-- TGET Dd, Dc: Lorner-S only; a number not below the context count reads 0 (R236). Its bundle issues with its last operation. -/
def execTget (i : Site) (f : R3) (s : State) : Host.Outcome State Fault Refusal :=
  .next (issueOp i (.tget i f) s)

end Sys2Proof.Machine
end

