-- ==== Sys2Proof/Machine/ExecF.lean ====
section
/-! DEFINITION. The meanings of the floating-point class (R229): each operation reaches its core, and the last one of a
bundle issues it (R58, R59, R63). What an operation reads, raises and does is its answer in OpTable.lean; what its
bundle does with the answers is Issue.lean. -/

namespace Sys2Proof.Machine
open Sys2Proof

/-- FADD (R209). Its bundle issues with its last operation. -/
def execFadd (i : Site) (f : R3) (s : State) : Host.Outcome State Fault Refusal :=
  .next (issueOp i (.fadd i f) s)

/-- FSUB (R209). Its bundle issues with its last operation. -/
def execFsub (i : Site) (f : R3) (s : State) : Host.Outcome State Fault Refusal :=
  .next (issueOp i (.fsub i f) s)

/-- FMUL (R209). Its bundle issues with its last operation. -/
def execFmul (i : Site) (f : R3) (s : State) : Host.Outcome State Fault Refusal :=
  .next (issueOp i (.fmul i f) s)

/-- FMA: Fd is read at issue (R209). Its bundle issues with its last operation. -/
def execFma (i : Site) (f : R3) (s : State) : Host.Outcome State Fault Refusal :=
  .next (issueOp i (.fma i f) s)

/-- FDIV: the divide and square-root unit lands it (R68, R213). Its bundle issues with its last operation. -/
def execFdiv (i : Site) (f : R3) (s : State) : Host.Outcome State Fault Refusal :=
  .next (issueOp i (.fdiv i f) s)

/-- FSQRT (R68, R213). Its bundle issues with its last operation. -/
def execFsqrt (i : Site) (f : R3) (s : State) : Host.Outcome State Fault Refusal :=
  .next (issueOp i (.fsqrt i f) s)

/-- FMIN (R209). Its bundle issues with its last operation. -/
def execFmin (i : Site) (f : R3) (s : State) : Host.Outcome State Fault Refusal :=
  .next (issueOp i (.fmin i f) s)

/-- FMAX (R209). Its bundle issues with its last operation. -/
def execFmax (i : Site) (f : R3) (s : State) : Host.Outcome State Fault Refusal :=
  .next (issueOp i (.fmax i f) s)

/-- FCMP (R211). Its bundle issues with its last operation. -/
def execFcmp (i : Site) (f : R3) (s : State) : Host.Outcome State Fault Refusal :=
  .next (issueOp i (.fcmp i f) s)

/-- FCMPE (R211). Its bundle issues with its last operation. -/
def execFcmpe (i : Site) (f : R3) (s : State) : Host.Outcome State Fault Refusal :=
  .next (issueOp i (.fcmpe i f) s)

/-- FCVT.F.D Fd, Ds, #u5: exact (R209). Its bundle issues with its last operation. -/
def execFcvtFD (i : Site) (f : RI5) (s : State) : Host.Outcome State Fault Refusal :=
  .next (issueOp i (.fcvtFD i f) s)

/-- FCVT.F.DD Fd, Dk, #u5 (R209). Its bundle issues with its last operation. -/
def execFcvtFDD (i : Site) (f : RI5) (s : State) : Host.Outcome State Fault Refusal :=
  .next (issueOp i (.fcvtFDD i f) s)

/-- FCVT.D.F Dd, Fs, #u5 (R212). Its bundle issues with its last operation. -/
def execFcvtDF (i : Site) (f : RI5) (s : State) : Host.Outcome State Fault Refusal :=
  .next (issueOp i (.fcvtDF i f) s)

/-- FCVT.DD.F Dk, Fs, #u5 (R212). Its bundle issues with its last operation. -/
def execFcvtDDF (i : Site) (f : RI5) (s : State) : Host.Outcome State Fault Refusal :=
  .next (issueOp i (.fcvtDDF i f) s)

/-- FMOV (R209). Its bundle issues with its last operation. -/
def execFmov (i : Site) (f : R3) (s : State) : Host.Outcome State Fault Refusal :=
  .next (issueOp i (.fmov i f) s)

/-- FNEG inverts S (R209). Its bundle issues with its last operation. -/
def execFneg (i : Site) (f : R3) (s : State) : Host.Outcome State Fault Refusal :=
  .next (issueOp i (.fneg i f) s)

/-- FABS clears S (R209). Its bundle issues with its last operation. -/
def execFabs (i : Site) (f : R3) (s : State) : Host.Outcome State Fault Refusal :=
  .next (issueOp i (.fabs i f) s)

/-- FMVF Fd, Dk (R209). Its bundle issues with its last operation. -/
def execFmvf (i : Site) (f : R3) (s : State) : Host.Outcome State Fault Refusal :=
  .next (issueOp i (.fmvf i f) s)

/-- FMVD Dk, Fs (R209). Its bundle issues with its last operation. -/
def execFmvd (i : Site) (f : R3) (s : State) : Host.Outcome State Fault Refusal :=
  .next (issueOp i (.fmvd i f) s)

/-- FKIND Dd, Fs (R209). Its bundle issues with its last operation. -/
def execFkind (i : Site) (f : R3) (s : State) : Host.Outcome State Fault Refusal :=
  .next (issueOp i (.fkind i f) s)

/-- FBAR lands at p + 3 and waits for the divide and square-root unit (R219). Its bundle issues with its last operation. -/
def execFbar (i : Site) (s : State) : Host.Outcome State Fault Refusal :=
  .next (issueOp i (.fbar i) s)

end Sys2Proof.Machine
end

