-- ==== Sys2Proof/Machine/ExecV.lean ====
section
/-! DEFINITION. The meanings of the V family (R228): each operation reaches its core, and the last one of a
bundle issues it (R58, R59, R63). What an operation reads, raises and does is its answer in OpTable.lean; what its
bundle does with the answers is Issue.lean. -/

namespace Sys2Proof.Machine
open Sys2Proof

/-- VADD (R184). Its bundle issues with its last operation. -/
def execVadd (i : Site) (f : R3) (s : State) : Host.Outcome State Fault Refusal :=
  .next (issueOp i (.vadd i f) s)

/-- VSUB (R184). Its bundle issues with its last operation. -/
def execVsub (i : Site) (f : R3) (s : State) : Host.Outcome State Fault Refusal :=
  .next (issueOp i (.vsub i f) s)

/-- VADDS (R184). Its bundle issues with its last operation. -/
def execVadds (i : Site) (f : R3) (s : State) : Host.Outcome State Fault Refusal :=
  .next (issueOp i (.vadds i f) s)

/-- VSUBS (R184). Its bundle issues with its last operation. -/
def execVsubs (i : Site) (f : R3) (s : State) : Host.Outcome State Fault Refusal :=
  .next (issueOp i (.vsubs i f) s)

/-- VADDH (R184). Its bundle issues with its last operation. -/
def execVaddh (i : Site) (f : R3) (s : State) : Host.Outcome State Fault Refusal :=
  .next (issueOp i (.vaddh i f) s)

/-- VSUBH (R184). Its bundle issues with its last operation. -/
def execVsubh (i : Site) (f : R3) (s : State) : Host.Outcome State Fault Refusal :=
  .next (issueOp i (.vsubh i f) s)

/-- VNEG (R184). Its bundle issues with its last operation. -/
def execVneg (i : Site) (f : R3) (s : State) : Host.Outcome State Fault Refusal :=
  .next (issueOp i (.vneg i f) s)

/-- VABS (R184). Its bundle issues with its last operation. -/
def execVabs (i : Site) (f : R3) (s : State) : Host.Outcome State Fault Refusal :=
  .next (issueOp i (.vabs i f) s)

/-- VMIN (R184). Its bundle issues with its last operation. -/
def execVmin (i : Site) (f : R3) (s : State) : Host.Outcome State Fault Refusal :=
  .next (issueOp i (.vmin i f) s)

/-- VMAX (R184). Its bundle issues with its last operation. -/
def execVmax (i : Site) (f : R3) (s : State) : Host.Outcome State Fault Refusal :=
  .next (issueOp i (.vmax i f) s)

/-- VAND (R184). Its bundle issues with its last operation. -/
def execVand (i : Site) (f : R3) (s : State) : Host.Outcome State Fault Refusal :=
  .next (issueOp i (.vand i f) s)

/-- VOR (R184). Its bundle issues with its last operation. -/
def execVor (i : Site) (f : R3) (s : State) : Host.Outcome State Fault Refusal :=
  .next (issueOp i (.vor i f) s)

/-- VXOR (R184). Its bundle issues with its last operation. -/
def execVxor (i : Site) (f : R3) (s : State) : Host.Outcome State Fault Refusal :=
  .next (issueOp i (.vxor i f) s)

/-- VANDN: s and not t (R184). Its bundle issues with its last operation. -/
def execVandn (i : Site) (f : R3) (s : State) : Host.Outcome State Fault Refusal :=
  .next (issueOp i (.vandn i f) s)

/-- VLSH (R152, R184). Its bundle issues with its last operation. -/
def execVlsh (i : Site) (f : R3) (s : State) : Host.Outcome State Fault Refusal :=
  .next (issueOp i (.vlsh i f) s)

/-- VASH (R152, R184). Its bundle issues with its last operation. -/
def execVash (i : Site) (f : R3) (s : State) : Host.Outcome State Fault Refusal :=
  .next (issueOp i (.vash i f) s)

/-- VLSL (R184). Its bundle issues with its last operation. -/
def execVlsl (i : Site) (f : RI6) (s : State) : Host.Outcome State Fault Refusal :=
  .next (issueOp i (.vlsl i f) s)

/-- VLSR (R184). Its bundle issues with its last operation. -/
def execVlsr (i : Site) (f : RI6) (s : State) : Host.Outcome State Fault Refusal :=
  .next (issueOp i (.vlsr i f) s)

/-- VASL (R184). Its bundle issues with its last operation. -/
def execVasl (i : Site) (f : RI6) (s : State) : Host.Outcome State Fault Refusal :=
  .next (issueOp i (.vasl i f) s)

/-- VASR (R184). Its bundle issues with its last operation. -/
def execVasr (i : Site) (f : RI6) (s : State) : Host.Outcome State Fault Refusal :=
  .next (issueOp i (.vasr i f) s)

/-- VMULF: illegal in wide mode (R184, R188). Its bundle issues with its last operation. -/
def execVmulf (i : Site) (f : R3) (s : State) : Host.Outcome State Fault Refusal :=
  .next (issueOp i (.vmulf i f) s)

/-- VCMULF (R184). Its bundle issues with its last operation. -/
def execVcmulf (i : Site) (f : R3) (s : State) : Host.Outcome State Fault Refusal :=
  .next (issueOp i (.vcmulf i f) s)

/-- VCMULJF (R184). Its bundle issues with its last operation. -/
def execVcmuljf (i : Site) (f : R3) (s : State) : Host.Outcome State Fault Refusal :=
  .next (issueOp i (.vcmuljf i f) s)

/-- VCONJ (R184). Its bundle issues with its last operation. -/
def execVconj (i : Site) (f : R3) (s : State) : Host.Outcome State Fault Refusal :=
  .next (issueOp i (.vconj i f) s)

/-- VMULJ (R184). Its bundle issues with its last operation. -/
def execVmulj (i : Site) (f : R3) (s : State) : Host.Outcome State Fault Refusal :=
  .next (issueOp i (.vmulj i f) s)

/-- VSWRI (R184). Its bundle issues with its last operation. -/
def execVswri (i : Site) (f : R3) (s : State) : Host.Outcome State Fault Refusal :=
  .next (issueOp i (.vswri i f) s)

/-- VMOV (R184). Its bundle issues with its last operation. -/
def execVmov (i : Site) (f : R3) (s : State) : Host.Outcome State Fault Refusal :=
  .next (issueOp i (.vmov i f) s)

/-- VBCAST Vd, Ds (R184). Its bundle issues with its last operation. -/
def execVbcast (i : Site) (f : R3) (s : State) : Host.Outcome State Fault Refusal :=
  .next (issueOp i (.vbcast i f) s)

/-- VBCASTC Vd, Dk (R184). Its bundle issues with its last operation. -/
def execVbcastc (i : Site) (f : R3) (s : State) : Host.Outcome State Fault Refusal :=
  .next (issueOp i (.vbcastc i f) s)

/-- VPERM: offsets are the low five bits (R184). Its bundle issues with its last operation. -/
def execVperm (i : Site) (f : R3) (s : State) : Host.Outcome State Fault Refusal :=
  .next (issueOp i (.vperm i f) s)

/-- VSLIDE (R184, format VS). Its bundle issues with its last operation. -/
def execVslide (i : Site) (vd : BitVec 4) (vs : BitVec 4) (vt : BitVec 4) (u : BitVec 5) (s : State) : Host.Outcome State Fault Refusal :=
  .next (issueOp i (.vslide i vd vs vt u) s)

/-- VZIP (R184). Its bundle issues with its last operation. -/
def execVzip (i : Site) (f : R3) (s : State) : Host.Outcome State Fault Refusal :=
  .next (issueOp i (.vzip i f) s)

/-- VUNZ (R184). Its bundle issues with its last operation. -/
def execVunz (i : Site) (f : R3) (s : State) : Host.Outcome State Fault Refusal :=
  .next (issueOp i (.vunz i f) s)

/-- VEXT Dd, Vs, #u5 (R184). Its bundle issues with its last operation. -/
def execVext (i : Site) (f : RI5) (s : State) : Host.Outcome State Fault Refusal :=
  .next (issueOp i (.vext i f) s)

/-- VINS Vd, #u5, Ds (R184). Its bundle issues with its last operation. -/
def execVins (i : Site) (f : RI5) (s : State) : Host.Outcome State Fault Refusal :=
  .next (issueOp i (.vins i f) s)

/-- VMPY (R186). Its bundle issues with its last operation. -/
def execVmpy (i : Site) (f : R3) (s : State) : Host.Outcome State Fault Refusal :=
  .next (issueOp i (.vmpy i f) s)

/-- VMAC (R186). Its bundle issues with its last operation. -/
def execVmac (i : Site) (f : R3) (s : State) : Host.Outcome State Fault Refusal :=
  .next (issueOp i (.vmac i f) s)

/-- VMSU (R186). Its bundle issues with its last operation. -/
def execVmsu (i : Site) (f : R3) (s : State) : Host.Outcome State Fault Refusal :=
  .next (issueOp i (.vmsu i f) s)

/-- VMACS: Dt a word, or a wide datum of a pair in wide mode (R186, R188). Its bundle issues with its last operation. -/
def execVmacs (i : Site) (f : R3) (s : State) : Host.Outcome State Fault Refusal :=
  .next (issueOp i (.vmacs i f) s)

/-- VMPYP (R186). Its bundle issues with its last operation. -/
def execVmpyp (i : Site) (f : R3) (s : State) : Host.Outcome State Fault Refusal :=
  .next (issueOp i (.vmpyp i f) s)

/-- VMACP (R186). Its bundle issues with its last operation. -/
def execVmacp (i : Site) (f : R3) (s : State) : Host.Outcome State Fault Refusal :=
  .next (issueOp i (.vmacp i f) s)

/-- VCMPY (R186). Its bundle issues with its last operation. -/
def execVcmpy (i : Site) (f : R3) (s : State) : Host.Outcome State Fault Refusal :=
  .next (issueOp i (.vcmpy i f) s)

/-- VCMAC (R186). Its bundle issues with its last operation. -/
def execVcmac (i : Site) (f : R3) (s : State) : Host.Outcome State Fault Refusal :=
  .next (issueOp i (.vcmac i f) s)

/-- VCMACJ (R186). Its bundle issues with its last operation. -/
def execVcmacj (i : Site) (f : R3) (s : State) : Host.Outcome State Fault Refusal :=
  .next (issueOp i (.vcmacj i f) s)

/-- VCMACS: the pair is Dk, Dk+1 (R186). Its bundle issues with its last operation. -/
def execVcmacs (i : Site) (f : R3) (s : State) : Host.Outcome State Fault Refusal :=
  .next (issueOp i (.vcmacs i f) s)

/-- VCLRA: every element, whatever VL; latency 1 (R186). Its bundle issues with its last operation. -/
def execVclra (i : Site) (f : R3) (s : State) : Host.Outcome State Fault Refusal :=
  .next (issueOp i (.vclra i f) s)

/-- VMVR (R190). Its bundle issues with its last operation. -/
def execVmvr (i : Site) (f : R3) (s : State) : Host.Outcome State Fault Refusal :=
  .next (issueOp i (.vmvr i f) s)

/-- VMVI (R190). Its bundle issues with its last operation. -/
def execVmvi (i : Site) (f : R3) (s : State) : Host.Outcome State Fault Refusal :=
  .next (issueOp i (.vmvi i f) s)

/-- VEXPD (R190). Its bundle issues with its last operation. -/
def execVexpd (i : Site) (f : R3) (s : State) : Host.Outcome State Fault Refusal :=
  .next (issueOp i (.vexpd i f) s)

/-- VEXPD.S (R190): B is 1 in its encoding. Its bundle issues with its last operation. -/
def execVexpdS (i : Site) (f : R3) (s : State) : Host.Outcome State Fault Refusal :=
  .next (issueOp i (.vexpdS i f) s)

/-- VMAXI (R191). Its bundle issues with its last operation. -/
def execVmaxi (i : Site) (f : R3) (s : State) : Host.Outcome State Fault Refusal :=
  .next (issueOp i (.vmaxi i f) s)

/-- VMINI (R191). Its bundle issues with its last operation. -/
def execVmini (i : Site) (f : R3) (s : State) : Host.Outcome State Fault Refusal :=
  .next (issueOp i (.vmini i f) s)

/-- VMAXIR (R191). Its bundle issues with its last operation. -/
def execVmaxir (i : Site) (f : R3) (s : State) : Host.Outcome State Fault Refusal :=
  .next (issueOp i (.vmaxir i f) s)

/-- VMINIR (R191). Its bundle issues with its last operation. -/
def execVminir (i : Site) (f : R3) (s : State) : Host.Outcome State Fault Refusal :=
  .next (issueOp i (.vminir i f) s)

/-- VMAXIR.S (R191): B is 1 in the encoding of a start form. Its bundle issues with its last operation. -/
def execVmaxirS (i : Site) (f : R3) (s : State) : Host.Outcome State Fault Refusal :=
  .next (issueOp i (.vmaxirS i f) s)

/-- VMINIR.S (R191). Its bundle issues with its last operation. -/
def execVminirS (i : Site) (f : R3) (s : State) : Host.Outcome State Fault Refusal :=
  .next (issueOp i (.vminirS i f) s)

/-- VMAXIA (R191). Its bundle issues with its last operation. -/
def execVmaxia (i : Site) (f : R3) (s : State) : Host.Outcome State Fault Refusal :=
  .next (issueOp i (.vmaxia i f) s)

/-- VMINIA (R191). Its bundle issues with its last operation. -/
def execVminia (i : Site) (f : R3) (s : State) : Host.Outcome State Fault Refusal :=
  .next (issueOp i (.vminia i f) s)

/-- VMAXIA.S (R191). Its bundle issues with its last operation. -/
def execVmaxiaS (i : Site) (f : R3) (s : State) : Host.Outcome State Fault Refusal :=
  .next (issueOp i (.vmaxiaS i f) s)

/-- VMINIA.S (R191). Its bundle issues with its last operation. -/
def execVminiaS (i : Site) (f : R3) (s : State) : Host.Outcome State Fault Refusal :=
  .next (issueOp i (.vminiaS i f) s)

/-- SETVL Dd, Ds: it does not need the vector unit. Its bundle issues with its last operation. -/
def execSetvl (i : Site) (f : R3) (s : State) : Host.Outcome State Fault Refusal :=
  .next (issueOp i (.setvl i f) s)

/-- SETVL #u6: I is read as unsigned; 33–63 are reserved. Its bundle issues with its last operation. -/
def execSetvlImmediate (i : Site) (f : RI6) (s : State) : Host.Outcome State Fault Refusal :=
  .next (issueOp i (.setvlImmediate i f) s)

end Sys2Proof.Machine
end

