-- ==== Sys2Proof/Machine/Lanes.lean ====
section
/-! DEFINITION. The events of lanes and modules (chapter 11). An event whose condition does not hold changes nothing. -/

namespace Sys2Proof.Machine
open Sys2Proof

/-! ### The sideband (R372–R375) -/

/-- A module leaves its position: nothing of its record stays but the estimate record (R396). -/
def State.leave (s : State) (b : Nat) : State :=
  let s0 := if (s.pos b).solving.isSome then s.stopSolve b else s
  let s1 := (s0.span b).foldl (fun t p =>
    t.onPos p (fun x => { x with rate := 3, framed := false, runAck := false, rxsig := false, seqNext := none, badRun := 0 })) s0
  (s1.setMod b .absent).onPos b (fun x =>
    { x with mrst := true, record := [], reason := 0, ctl := none, ctlQ := [], inject := false, reread := false, tries := 0
             solveReq := false, temps := [] })

/-- MPRES_N_CHANGE (R373, R374, R379–R381): the accepted level; not sampled in Dusk (R462). A stream bound to a module that
goes stays eclipsed until its job's release. -/
def execMpresNChange (p : Fin 32) (present : Bool) (s : State) : Host.Outcome State Fault Refusal :=
  let b := p.val
  .next (if s.aon.islandsOff || s.aon.inReset || (s.pos b).present == present then s
    else
      let s1 := (s.onPos b (fun x => { x with present := present })).onQuad (b / 4) (fun q => { q with busStopped := false })
      if (s1.quad (b / 4)).dlMode then s1
      else if present then s1.setMod b .reading
      else if (s1.pos b).mod == .live || (s1.pos b).mod == .eclipsed then
        let s2 := s1.log { kind := 0x20, geode := byteOf (b / 4), unit := byteOf b }
        let s3 := if (s2.pos b).stream.isSome && (s2.pos b).mod == .live then (s2.laneLog b 0x1C 5 0).eclipseStream b else s2
        (s3.leave b).onPos b (fun x => { x with changed := x.stream.isSome })
      else s1.leave b)

/-- I2C_FAULT (R374): the bus makes no further transfer. -/
def State.busFault (s : State) (q why : Nat) : State :=
  (s.onQuad q (fun x => { x with i2cf := true, busStopped := true })).log
    { kind := 0x23, geode := byteOf q, unit := byteOf q, a := u32 why }

/-- A module whose record is judged (R377): WAITING with a window requested, or REFUSED. -/
def State.judge (s : State) (b : Nat) (reason : Nat) : State :=
  if reason = 0 then
    let s1 := (s.seedEst b).setMod b .waiting
    let s2 := s1.firstTrials (s1.span b)
    (s2.onPos b (fun x => { x with reason := 0, tries := 0, oldRate := 3, mrst := true })).wantWindow (b / 4)
  else
    ((s.setMod b .refused).onPos b (fun x => { x with reason := byteOf reason, mrst := true })).log
      { kind := 0x1F, geode := byteOf (b / 4), unit := byteOf b, a := u32 reason }

/-- CRC and SERIAL of two records agree (R380). -/
def sameModule (a b : List Byte) : Bool := leAt a 380 4 == leAt b 380 4 && (a.drop 32).take 16 == (b.drop 32).take 16

/-- ASSAY_RECORD_READ (R374, R376, R377, R380). -/
def execAssayRecordRead (p : Fin 32) (r : RecordRead) (s : State) : Host.Outcome State Fault Refusal :=
  let b := p.val
  let x := s.pos b
  .next (if !(x.mod == .reading || x.reread) || (s.quad (b / 4)).busStopped then s
    else match r with
      | .busFailed => ((s.busFault (b / 4) 1).onPos b (fun y => { y with reread := false })).judge b 1
      | .bytes bs =>
        if x.reread && sameModule x.record bs then
          (s.onPos b (fun y => { y with reread := false, mrst := false })).wantWindow (b / 4)
        else
          let s1 := if x.reread then
              (s.log { kind := 0x21, geode := byteOf (b / 4), unit := byteOf b }).onPos b
                (fun y => { y with changed := y.stream.isSome })
            else s
          let s2 := s1.onPos b (fun y => { y with reread := false, record := bs })
          s2.judge b (recordReason s2 b bs))

/-- QSTAT.ALERT follows the line: supervisor line 27 (R378). -/
def State.setAlert (s : State) (q : Nat) (low : Bool) : State :=
  if (s.quad q).alert == low then s else (s.onQuad q (fun x => { x with alert := low })).raiseSup q 27

/-- One module's alert byte (R375). -/
def State.alertByte (s : State) (b : Nat) (v : Byte) : State :=
  if v = 0 then s
  else
    let s1 := s.log { kind := 0x22, geode := byteOf (b / 4), unit := byteOf b, a := v.setWidth 32 }
    if bitOf v 3 then s1.hold b 3 else s1

/-- MALERT_N_ASSERTED (R375): one pass over the bus; the bytes read from lanes 0 to 3, none where one is unreadable. -/
def execMalertNAsserted (g : Fin 8) (bytes : List (Option Byte)) (s : State) : Host.Outcome State Fault Refusal :=
  let q := g.val
  let s0 := s.setAlert q true
  .next (if s.aon.islandsOff || s.aon.inReset then s
    else if (s0.quad q).alertIgnored then s0
    else
      let got := fun (l : Nat) =>
        let m := (s0.pos (4 * q + l)).mod
        if m == .absent || m == .refused || (s0.quad q).busStopped then none else (bytes[l]?).join
      let s1 := (List.range 4).foldl (fun t l => match got l with
        | some v => t.alertByte (4 * q + l) v
        | none => t) s0
      let found := (List.range 4).any (fun l => match got l with | some v => v != 0 | none => false)
      let n := if found then 0 else (s1.quad q).alertPasses + 1
      if 3 ≤ n then
        (s1.onQuad q (fun x => { x with alertPasses := n, alertIgnored := true })).log
          { kind := 0x23, geode := byteOf q, unit := byteOf q, a := 2 }
      else s1.onQuad q (fun x => { x with alertPasses := n }))

/-- MALERT_N_DEASSERTED (R375). -/
def execMalertNDeasserted (g : Fin 8) (s : State) : Host.Outcome State Fault Refusal :=
  .next ((s.setAlert g.val false).onQuad g.val (fun x => { x with alertPasses := 0, alertIgnored := false }))

/-! ### Training (R369, R370) -/

/-- QCTL.DLINK takes effect (R378, R383): a device link holds every module in reset and reads no record; a quad that
leaves it reads the modules that are present (log entry 61). -/
def State.applyDlink (s : State) (q : Nat) : State :=
  let on := (s.quad q).dlink
  if on == (s.quad q).dlMode then s
  else
    let s1 := s.onQuad q (fun x => { x with dlMode := on, dlup := false })
    let ps := (List.range 4).map (fun l => 4 * q + l)
    let s2 := ps.foldl (fun t b =>
      let t1 := (t.leave b)
      if !on && (t1.pos b).present then t1.setMod b .reading else t1) s1
    if on then s2.firstTrials ps else s2

/-- A lane begins to train in a window, or is off (R369 steps 1 and 2, R378, R519). Whether its partner then sends a signal
no command tells before the lane is framed: RXSIG is free until then (log entry 149). -/
def State.trainLane (s : State) (p : Nat) : State :=
  let r := s.fresh
  let s1 := r.2.onPos p (fun x =>
    { x with framed := false, runAck := false, rate := 3, seqNext := none, rxsig := x.en && r.1 % 2 == 1 })
  if (s1.pos p).en then s1.setLane p 2 else s1.setLane p 0

/-- A module that trains in this window. -/
def trains (m : ModState) : Bool := m == .waiting || m == .eclipsed || m == .retraining || m == .training

/-- A lane that no module covers and that is switched off or on takes effect. -/
def State.idleLane (s : State) (p : Nat) : State :=
  if (s.owner p).isSome then s
  else if !(s.pos p).en then s.setLane p 0
  else if (s.pos p).lstate == 0 then s.setLane p 6 else s

/-- TRAINING_WINDOW_OPEN (R369, R452 step 9): the first request's quad; not without the lane reference (R468). -/
def execTrainingWindowOpen (q : Fin 8) (s : State) : Host.Outcome State Fault Refusal :=
  .next (if s.hub.window.isSome || s.hub.windowQ.head? != some q.val || s.aon.noLaneRef || s.aon.islandsOff || s.aon.inReset ||
      s.aon.stage < 5 then s
    else
      let s0 := s.onHub (fun h => { h with window := some q.val, windowQ := h.windowQ.drop 1 })
      let s1 := (s0.onQuad q.val (fun x => { x with windows := x.windows + 1 })).applyDlink q.val
      let lanes := (List.range 4).map (fun l => 4 * q.val + l)
      if (s1.quad q.val).dlMode then
        if (s1.quad q.val).dlup then s1 else lanes.foldl State.trainLane s1
      else
        let s2 := lanes.foldl (fun t b =>
          if trains (t.pos b).mod then
            let t1 := (t.span b).foldl State.trainLane t
            if (t1.pos b).mod == .waiting then t1.onPos b (fun x => { x with mod := .training, mrst := false }) else t1
          else t) s1
        lanes.foldl State.idleLane s2)

/-- LANE_FRAMED (R369 steps 4 and 5, R370, R383): at the rate at which the lane trains; RUN goes to a module whose lanes are
all framed. -/
def execLaneFramed (p : Fin 32) (rate : BitVec 2) (s : State) : Host.Outcome State Fault Refusal :=
  let l := p.val
  let q := l / 4
  .next (if s.hub.window != some q || rate == 3 || rate != (s.pos l).trial || (s.pos l).lstate != 2 then s
    else
      let s1 := (s.onPos l (fun x => { x with framed := true, rate := rate, rxsig := true })).setLane l 3
      if (s1.quad q).dlMode then
        let four := (List.range 4).map (fun k => s1.pos (4 * q + k))
        if four.all (fun x => x.framed && x.rate == rate) then
          (((List.range 4).foldl (fun t k => t.onPos (4 * q + k) (fun x => { x with oldRate := 3, tries := 0 })) s1).onQuad q
            (fun x => { x with dlup := true })).endLaneVariant q 0
        else s1
      else match s1.owner l with
        | none => s1
        | some b => if s1.allFramed b then s1.sendCtl b 1 0 else s1)

/-- LANE_TRAIN_FAIL (R369 step 7, R379) of one lane. -/
def State.laneFails (s : State) (p : Nat) : State := (s.laneCtr p 11 1).laneLog p 0x1D (s.pos p).trial.toNat 0

/-- The lanes of a module framed at different rates (R370): every one trains again at the lowest; without an acknowledged RUN
the attempt has failed as well (R369 step 7). -/
def State.rateSplit (s : State) (b : Nat) : State :=
  let low := (s.span b).foldl (fun m p => Nat.max m (s.pos p).rate.toNat) 0
  let s0 := if (s.pos b).runAck then s
    else ((s.span b).foldl State.laneFails s).onPos b (fun x => { x with tries := x.tries + 1 })
  let s1 := (s.span b).foldl (fun t p => t.setTrial p low) s0
  if (s1.pos b).mod == .eclipsed then (s1.setMod b .eclipsed).wantWindow (b / 4) else s1.setMod b .retraining

/-- The rate of a lane's next attempt after `n` failed ones (R370, R380): an eclipsed lane keeps its rate for four attempts
and then goes down while the binding would stay valid; another goes down, and after the retries of the start begins again
at its highest. -/
def State.nextTrial (s : State) (p n : Nat) (eclipsed : Bool) (st : Option Stream) : Nat :=
  let x := s.pos p
  let l := s.laneRates p
  if eclipsed then
    let old := x.oldRate.toNat
    if n < 4 ∨ old = 3 then (if old = 3 then x.trial.toNat else old)
    else
      nextLowerOr (l.filter (fun k => match st with
        | some y => decide (streamRate y ≤ streamN y * laneCap k)
        | none => true)) x.trial.toNat
  else if n = 3 then l.headD 3
  else nextLower l x.trial.toNat

/-- A module's attempt has failed (R369 step 7, R370, R380). -/
def State.attemptFails (s : State) (b : Nat) : State :=
  let p := s.pos b
  let s1 := (s.span b).foldl (fun t l =>
    if (t.pos l).framed && p.runAck then t
    else t.laneFails l) s
  let n := p.tries + 1
  let was := p.mod == .eclipsed
  let s2 := s1.onPos b (fun x => { x with tries := n })
  let s3 := (s2.span b).foldl (fun t l => t.setTrial l (t.nextTrial l n was p.stream)) s2
  if was then
    let s4 := s3.setMod b .eclipsed
    if n % 8 = 0 then s4.onPos b (fun x => { x with mrst := true, reread := true }) else s4.wantWindow (b / 4)
  else s3.setMod b .retraining

/-- A device link has failed its window (R369, R370, R380, R519): every lane that is not framed has failed its attempt; an
eclipsed link asks again at once. Lanes framed at different rates train again at the lowest. -/
def State.linkFails (s : State) (q : Nat) : State :=
  let ps := (List.range 4).map (fun k => 4 * q + k)
  let was := ps.any (fun p => (s.pos p).oldRate != 3)
  let low := ps.foldl (fun m p => Nat.max m (s.pos p).rate.toNat) 0
  let split := ps.all (fun p => (s.pos p).framed)
  let st := (s.quad q).streams.findSome? id
  let s1 := ps.foldl (fun t p =>
    let n := (t.pos p).tries + 1
    let t1 := if (t.pos p).framed then t else (t.laneFails p).onPos p (fun x => { x with tries := n })
    let t2 := t1.setTrial p (if split then low else if (t1.pos p).framed then (t1.pos p).trial.toNat else t1.nextTrial p n was st)
    if (t2.pos p).en then t2.setLane p (if was then 4 else 5) else t2) s
  if was then s1.wantWindow q else s1

/-- TRAINING_WINDOW_CLOSE (R369): what has not become LIVE has failed; the first window of a quad starts its geode's
start-up calibration (R413). -/
def execTrainingWindowClose (q : Fin 8) (s : State) : Host.Outcome State Fault Refusal :=
  .next (if s.hub.window != some q.val then s
    else
      let s0 := s.onHub (fun h => { h with window := none })
      let s1 :=
        if (s0.quad q.val).dlMode then (if (s0.quad q.val).dlup then s0 else s0.linkFails q.val)
        else
          ((List.range 4).map (fun l => 4 * q.val + l)).foldl (fun t b =>
            if !trains (t.pos b).mod then t
            else if t.allFramed b && !t.oneRate b then t.rateSplit b
            else t.attemptFails b) s0
      if (s1.quad q.val).windows = 1 ∧ s1.aon.devstate = .starting then s1.startupCal q.val else s1)

/-- RETRY_WINDOW_TIMER (R370): a window for the lanes of a quad that are retraining. -/
def execRetryWindowTimer (q : Fin 8) (s : State) : Host.Outcome State Fault Refusal :=
  let ps := (List.range 4).map (fun l => s.pos (4 * q.val + l))
  let due := ps.any (fun p => p.mod == .retraining) ||
    ((s.quad q.val).dlMode && !(s.quad q.val).dlup && ps.any (fun p => p.lstate == 5))
  .next (if due then s.wantWindow q.val else s)

/-- EARLY_SIGNAL_DETECTED (R371): a millisecond of signal before the lane's window. -/
def execEarlySignalDetected (p : Fin 32) (s : State) : Host.Outcome State Fault Refusal :=
  .next (if (s.pos p.val).lstate == 2 || (s.pos p.val).lstate == 3 || s.aon.islandsOff || s.aon.inReset then s
    else (s.laneCtr p.val 10 1).onPos p.val (fun x => { x with early := true }))

/-! ### Codewords (R353–R364) -/

/-- An uncorrectable codeword, or one of a reserved TYPE (R379): the fourth in a row eclipses the lane. -/
def State.badCodeword (s : State) (p why : Nat) : State :=
  let s1 := ((s.laneCtr p 3 1).laneLog p 0x1B why 1).onPos p (fun x => { x with badRun := x.badRun + 1 })
  if (s1.pos p).badRun < 4 then s1
  else if (s1.quad (p / 4)).dlMode then
    if (s1.quad (p / 4)).dlup then s1.eclipseLink (p / 4) p .fec else s1
  else match s1.owner p with
    | some b => if (s1.pos b).mod == .live then s1.eclipse b .fec true else s1
    | none => s1

/-- A fill codeword of a lane (R355, R368). -/
def State.fillCodeword (s : State) (p : Nat) (tsel : BitVec 4) (tval : BitVec 12) : State :=
  let s1 := (s.laneCtr p 2 1).onPos p (fun x => { x with badRun := 0 })
  match s1.owner p with
  | some b => if tsel = 0xF then s1.ackCtl b tval else s1
  | none => s1

/-- SEQ against what the lane expects (R353, R379): the state, whether the codeword goes on, and whether SEQ broke off. -/
def State.checkSeq (s : State) (p : Nat) (seq : BitVec 14) : State × Bool × Bool :=
  match (s.pos p).seqNext with
  | none => (s.onPos p (fun x => { x with seqNext := some (seq + 1) }), true, false)
  | some e =>
    let d := (seq - e).toNat
    if d = 0 then (s.onPos p (fun x => { x with seqNext := some (seq + 1) }), true, false)
    else if d < 8192 then
      (((s.laneCtr p 5 1).laneLog p 0x1B 3 d).onPos p (fun x => { x with seqNext := some (seq + 1) }), true, true)
    else ((s.laneCtr p 5 1).laneLog p 0x1B 3 1, false, true)

/-- Blocks before one whose sample 0 has time t, counted from the first that holds a sample at or after tf (R360); none
for a block that lies before tf. -/
def firstBlock (tf t : Int) (rate : Nat) : Option Nat :=
  if t + samplesTime 359 rate < tf then none else some ((((t - tf) * rate) / 2 ^ 56 + 359) / 360).toNat

/-- The number of a block of a lane (R356, R360): behind the lane's last block by its OFFS under the same MARK; under a new
one by its SEQ, unless the timestamps contradict it by more than the clocks can differ; the lane's first block by its
timestamp alone (log entry 150). -/
def blockNum (st : Stream) (lane : Nat) (an : Anc) (seq : BitVec 14) (t : Int) : Int :=
  let n := streamN st
  let rate := streamRate st
  match st.last.getD lane none with
  | none =>
    let a : Int := (st.anchor.getD (0, 0, 0)).1
    let e := a + roundDiv ((t - sampleTime st a.toNat 0) * rate) (360 * 2 ^ 56)
    if st.last.all (fun l => l.isNone) then e
    else
      let off : Int := ((lane + n - st.lane0 % n) % n : Nat)
      off + n * roundDiv (e - off) n
  | some l =>
    if l.mark = an.mark then l.num + n * roundDiv ((an.offs : Int) - l.offs) (360 * n)
    else
      let k : Int := (seq - l.seq).toNat
      let d := (t - l.time) * rate
      let apart := (d - 360 * n * k * 2 ^ 56).natAbs
      if apart ≤ d.natAbs / 2500 + 180 * 2 ^ 56 then l.num + n * k
      else l.num + n * roundDiv d (360 * n * 2 ^ 56)

/-- Conditions of a block that hold calibration (R407 cause 010). -/
def State.blockCal (s : State) (b : Nat) (inj calv : Bool) : State :=
  match (s.pos b).stream with
  | none => s
  | some st =>
    if !((s.pos b).inject && injects st) then s
    else if !inj then s.hold b 2
    else if calv then s.onStream b (fun x => { x with noCalv := 0 })
    else
      let s1 := s.onStream b (fun x => { x with noCalv := x.noCalv + 1 })
      if 64 ≤ st.noCalv + 1 then s1.hold b 2 else s1

/-- Block 0 of a bound stream becomes known (R356, R360): the first block that holds a sample of the job's first frame. After
an eclipse or a wake, the first block that comes tells which lane carries which block. -/
def State.findBlocks (s : State) (b lane : Nat) (an : Anc) (seq : BitVec 14) (txt t : Int) : State :=
  match (s.pos b).stream with
  | none => s
  | some st =>
    let n := streamN st
    let lane0 := fun (num : Nat) => (lane + n - num % n) % n
    match st.anchor, s.jobOf st.job with
    | none, some j =>
      let tf := beaconTime s.aon j.first
      match firstBlock tf t (streamRate st) with
      | none => s
      | some num =>
        let st1 := { st with anchor := some (num, txt, an.offs), lane0 := lane0 num, nextJ := nextBlocks n (lane0 num) 0 }
        s.onStream b (fun _ =>
          { st1 with off0 := ((List.range 359).filter (fun k => decide (sampleTime st1 0 k < tf))).length })
    | some _, _ =>
      if st.last.all (fun l => l.isNone) then
        let z := lane0 (blockNum st lane an seq t).toNat
        s.onStream b (fun y => { y with lane0 := z, nextJ := nextBlocks n z y.base })
      else s
    | _, _ => s

/-- The lanes of a span stand more than 8 codewords apart (R356). -/
def skewed (st : Stream) (num : Nat) : Bool :=
  (List.range (streamN st)).any (fun l =>
    (st.last.getD l none).isSome && decide (st.nextJ.getD l 0 + 8 * streamN st < num))

/-- A data codeword above the declared rate is dropped (R359). -/
def State.overRate (s : State) (p : Nat) (frame : U32) : State := (s.laneCtr p 8 1).laneLog p 0x19 frame.toNat 1

/-- A block of a bound stream takes its place (R356, R359–R362): over-rate, missing blocks before it, its slot. -/
def State.placeBlock (s : State) (b lane blane : Nat) (txt t : Int) (an : Anc) (ovr inj : Bool) (seq : BitVec 14)
    (ws : List Word) (seqGap dropped : Bool) : State :=
  let x := StreamAt.lane b
  let s0 := s.findBlocks b lane an seq txt t
  match (s0.pos b).stream with
  | none => s0
  | some st =>
    if st.anchor.isNone then s0
    else
      let num := blockNum st lane an seq t
      let j := num.toNat
      let want := st.nextJ.getD lane 0
      if num < want then
        if dropped then s0.overRate (b + lane) (s0.frameOfTime st.job t)
        else if num < st.lateTo || seqGap then s0
        else (s0.laneCtr (b + lane) 5 1).laneLog (b + lane) 0x1B 3 1
      else if skewed st j then (s0.laneCtr (b + lane) 4 1).eclipse b .skew true
      else
        let s1 := if want < j && !seqGap then (s0.laneCtr (b + lane) 5 1).laneLog (b + lane) 0x1B 3 ((j - want) / streamN st)
          else s0
        let s2 := s1.onStream b (fun y =>
          { y with
            anchor := if decide ((y.anchor.getD (0, 0, 0)).1 ≤ j) then some (j, txt, an.offs) else y.anchor
            last := modAt y.last lane (fun _ => some { num := j, seq := seq, mark := an.mark, offs := an.offs, time := t }) })
        let s3 := (s2.missUpTo x lane j 3).onStream b (fun y =>
          { y with nextJ := modAt y.nextJ lane (fun _ => j + streamN st) })
        if dropped then (s3.overRate (b + lane) (s3.frameOfTime st.job t)).missBlock x j 2
        else (s3.writeSlot x j (slotWords ws t an.calph an.calv false ovr inj blane 0)).noteBlock x j none

/-- A solve's block goes to its ring (R413), in order of arrival. -/
def State.solveBlock (s : State) (b : Nat) (t : Int) (an : Anc) (ovr inj : Bool) (blane : Nat) (ws : List Word) : State :=
  let p := s.pos b
  match p.solvePages[p.solveNext / 10]? with
  | none => s
  | some k =>
    let a := 4096 * k + 384 * (p.solveNext % 10)
    let w := slotWords ws t an.calph an.calv false ovr inj blane 0
    ((w.zip (List.range w.length)).foldl (fun st q => st.shmWrite (b / 4) (a + q.2) q.1) s).onPos b
      (fun y => { y with solveNext := (y.solveNext + 1) % 20 })

/-- A data codeword of a LIVE module (R353–R364): first of all the over-rate credit, which every data codeword that arrives
uses (R359). -/
def State.liveData (s : State) (p b : Nat) (f : CwFields) : State :=
  let an := ancOf f.anc
  let c := if (s.pos b).solving.isSome then (s, true) else s.takeCredit (.lane b) (p - b)
  let q := if c.2 then c.1.checkSeq p f.seq else (c.1.onPos p (fun x => { x with seqNext := some (f.seq + 1) }), true, true)
  if !q.2.1 then q.1
  else match (q.1.pos p).marks.find? (fun m => m.1 == an.mark), (q.1.pos b).stream with
    | none, some st => if c.2 then (q.1.laneCtr p 6 1).laneLog p 0x1B 4 1 else q.1.overRate p (q.1.frameNow st.job)
    | none, none => (q.1.laneCtr p 6 1).laneLog p 0x1B 4 1
    | some m, st =>
      let rate := match st with
        | some st => streamRate st
        | none => Nat.max 1 (recFsMax (q.1.pos b).record)
      let txt : Int := (m.2.toNat / 2 ^ 24 : Nat)
      let t := txt + samplesTime an.offs rate
      if (q.1.pos b).solving.isSome then q.1.solveBlock b t an f.ovr f.inj f.blane.toNat f.samples
      else (q.1.placeBlock b (p - b) f.blane.toNat txt t an f.ovr f.inj f.seq f.samples q.2.2 (!c.2)).blockCal b f.inj an.calv

/-- A data codeword of a converter lane: counters, telemetry (R354, R368), its samples. -/
def State.dataCodeword (s : State) (p : Nat) (f : CwFields) (corrected : Nat) : State :=
  let an := ancOf f.anc
  let s1 := ((s.laneCtr p 0 corrected).laneCtr p 1 1).onPos p (fun x => { x with badRun := 0 })
  let s2 := if an.rsv then s1.laneCtr p 9 1 else s1
  match s2.owner p with
  | none => s2
  | some b =>
    let live := (s2.pos b).mod == .live
    let s3 := if an.tsel = 0 then s2.tempReading b an.tval
      else if an.tsel = 1 then s2.onPos b (fun x => { x with modStatus := an.tval })
      else if an.tsel = 0xF then s2.ackCtl b an.tval else s2
    if live then s3.liveData p b f else s3

/-- DATA_CODEWORD_RECEIVED (R351, R353, R354, R356–R364, R379): a codeword on a framed converter lane. -/
def execDataCodewordReceived (p : Fin 32) (cw : Codeword) (s : State) : Host.Outcome State Fault Refusal :=
  .next (if (s.pos p.val).lstate != 3 || (s.quad (p.val / 4)).dlMode then s
    else match cw with
      | .uncorrectable => s.badCodeword p.val 1
      | .decoded payload corrected =>
        let f := cwFields payload
        let a := ancOf f.anc
        if 15 < corrected then s.badCodeword p.val 1
        else if f.type = 0 then s.dataCodeword p.val f corrected
        else if f.type = 1 then s.fillCodeword p.val a.tsel a.tval
        else s.badCodeword p.val 2)

/-- FILL_CODEWORD_RECEIVED (R355, R368). -/
def execFillCodewordReceived (p : Fin 32) (tsel : BitVec 4) (tval : BitVec 12) (s : State) :
    Host.Outcome State Fault Refusal :=
  .next (if (s.pos p.val).lstate != 3 || (s.quad (p.val / 4)).dlMode then s else s.fillCodeword p.val tsel tval)

/-- Blocks of a stream that begin before a time, by the times of its newest block. -/
def blocksBefore (st : Stream) (te : Int) : Nat :=
  let a : Int := (st.anchor.getD (0, 0, 0)).1
  (a + ((te - sampleTime st a.toNat 0) * streamRate st + (360 * 2 ^ 56 - 1)) / (360 * 2 ^ 56)).toNat

/-- The deadline of R361 has passed for a stream's frames before beacon f, whose time is te: blocks of them that have not
arrived are missing. A stream of which no block has come counts its blocks from the job's first frame (log entry 64). -/
def State.lateBlocks (s : State) (x : StreamAt) (j : Job) (f : U32) : State :=
  let s0 := s.onStreamAt x (fun y =>
    if y.anchor.isSome then y
    else { y with anchor := some (0, beaconTime s.aon j.first, 0), nextJ := nextBlocks (streamN y) 0 0 })
  match s0.streamOf x with
  | none => s0
  | some st =>
    let lim := blocksBefore st (beaconTime s.aon f)
    let n := match x with | .lane _ => streamN st | .link _ _ => 1
    let s1 := (List.range n).foldl (fun t l =>
      let k := (lim - st.nextJ.getD l 0 + n - 1) / n
      if k = 0 then t
      else ((t.missUpTo x l lim 3).laneCtr (streamUnit x + l) 7 k).laneLog (streamUnit x + l) 0x1A
        (f - BitVec.ofNat 32 j.k).toNat k) s0
    let s2 := match x with
      | .lane _ => s1
      | .link q ch =>
        let k := BitVec.ofNat 14 (lim - st.nextJ.getD 0 0)
        s1.onQuad q (fun y => { y with rxSeq := modAt y.rxSeq ch (fun e => e.map (fun v => v + k)) })
    (s2.onStreamAt x (fun y => { y with lateTo := Nat.max y.lateTo lim })).flushGap x

/-- The same for one stream of a lane or a device link, of the last frame whose deadline t(n + K) + 2 µs has passed. -/
def State.lateStream (s : State) (x : StreamAt) : State :=
  match s.streamOf x, s.streamOf x |>.bind (fun st => s.jobOf st.job) with
  | some _, some j =>
    let at_ : Int := (now56 s.aon : Int) - (2 * 2 ^ 56 / 1000000 : Nat)
    let f := frameAt j.k (beaconAt s.aon at_)
    if !atOrAfter f (j.first + BitVec.ofNat 32 j.k) || j.state == .admitted || s.aon.islandsOff ||
      suspendedAt j (f - BitVec.ofNat 32 j.k) then s
    else s.lateBlocks x j f
  | _, _ => s

/-- LATE_BLOCK_DEADLINE (R361, R386): of the stream at a position, or of every logical channel of the quad's device link. -/
def execLateBlockDeadline (p : Fin 32) (s : State) : Host.Outcome State Fault Refusal :=
  let q := p.val / 4
  .next (if (s.quad q).dlMode then (List.range 16).foldl (fun t c => t.lateStream (.link q c)) s
    else s.lateStream (.lane p.val))

/-! ### Outbound (R363, R365, R388) -/

/-- An outbound lane sends codewords: its module is out of reset, or its quad is a device link. -/
def State.sends (s : State) (p : Nat) : Bool :=
  (s.pos p).en && !s.aon.islandsOff && !s.aon.inReset &&
    ((s.quad (p / 4)).dlMode ||
      (match s.owner p with
       | some b => !(s.pos b).mrst
       | none => false))

/-- The time mark due now (R363): the multiple of 100 µs, mod 256. -/
def markNow (a : Aon) : Byte := byteOf (now56 a * 10000 / 2 ^ 56)

/-- The place of a lane within its module's span, and whether the module is to inject (R365). -/
def State.outPlace (s : State) (p : Nat) : Nat × Bool :=
  if (s.quad (p / 4)).dlMode then (p % 4, false)
  else match s.owner p with
    | some b => (p - b, (s.pos b).inject)
    | none => (0, false)

/-- TIME_MARK_SEND (R363, R365, R366): a mark in the next codeword of every outbound lane of the quad, in a codeword that
carries no chips (log entry 148); the last four are kept. -/
def execTimeMarkSend (q : Fin 8) (s : State) : Host.Outcome State Fault Refusal :=
  .next (((List.range 4).map (fun l => 4 * q.val + l)).foldl (fun t p =>
    if t.sends p then
      let m := (markNow t.aon, dtOf56 (now56 t.aon))
      let o := t.outPlace p
      (t.emit (.codeword p (markPayload o.1 o.2 m.1 m.2))).onPos p (fun x => { x with marks := (m :: x.marks).take 4 })
    else t) s)

/-- One step of the stimulus generator (R388), and `n` steps with their chips. -/
def lfsrStep (v : BitVec 23) : BitVec 23 := (v <<< 1) ||| (if bitOf v 22 != bitOf v 17 then 1 else 0)
def lfsrRun : Nat → BitVec 23 → List Bool × BitVec 23
  | 0, v => ([], v)
  | n + 1, v =>
    let r := lfsrRun n (lfsrStep v)
    (bitOf v 22 :: r.1, r.2)

/-- STIMULUS_CODEWORD_SEND (R365, R388, R389): the next 360 chips of a LIVE module's generator, on the span lane whose turn
it is; another lane of the span sends none now. -/
def execStimulusCodewordSend (p : Fin 32) (s : State) : Host.Outcome State Fault Refusal :=
  .next (match s.owner p.val with
    | none => s
    | some b =>
      let x := s.pos b
      if x.mod != .live || s.aon.islandsOff || b + x.outLane != p.val then s
      else
        let r := lfsrRun 360 x.lfsr
        (s.emit (.codeword p.val (stimPayload x.outLane x.inject x.phase r.1))).onPos b (fun y =>
          { y with lfsr := r.2, phase := BitVec.ofNat 23 ((y.phase.toNat + 360) % 8388607)
                   outLane := (y.outLane + 1) % modLanes x }))

/-- CONTROL_RESEND_TIMEOUT (R368): a message is sent again up to three times; then CTRL_TIMEOUT. -/
def execControlResendTimeout (p : Fin 32) (s : State) : Host.Outcome State Fault Refusal :=
  let b := p.val
  .next (match (s.pos b).ctl with
    | none => s
    | some m =>
      if m.sent < 4 then
        (s.emitCtl b m).onPos b (fun x => { x with ctl := some { m with sent := m.sent + 1 } })
      else
        let s1 := (s.laneLog b 0x1E m.cmd.toNat m.cseq.toNat).onPos b (fun x => { x with ctl := none })
        let s2 := if m.cmd = 3 then s1.hold b 3
          else if m.cmd = 2 then s1.onPos b (fun x => { x with mrst := true })
          else s1.onPos b (fun x => { x with runAck := false })
        s2.nextCtl b)

/-- LANE_ECLIPSE (R379, R380, R383). -/
def execLaneEclipse (p : Fin 32) (cause : EclipseCause) (s : State) : Host.Outcome State Fault Refusal :=
  let l := p.val
  let s0 := if cause = .skew then s.laneCtr l 4 1 else s
  .next (if (s.quad (l / 4)).dlMode then
      if (s.quad (l / 4)).dlup then s0.eclipseLink (l / 4) l cause else s
    else match s.owner l with
      | some b => if (s.pos b).mod == .live then s0.eclipse b cause true else s
      | none => s)

/-! ### Device links (R384, R386, R387) -/

/-- The slot of a device-link block (R386). -/
def dlSlot (aon : Aon) (ws : List Word) (bcn : U32) (nvalid blane : Nat) : List Word :=
  slotWords ws (beaconTime aon bcn) 0 false false false false blane nvalid

/-- NextJ of a link's stream after block j has come: past the blocks that had come early. -/
def linkNext (early : List Nat) : Nat → Nat → Nat
  | 0, j => j
  | n + 1, j => if early.contains j then linkNext early n (j + 1) else j

/-- A block of a bound logical channel (R359, R360, R386): over-rate first; in order, early within 8, or past a gap. -/
def State.linkBlock (s : State) (q ch blane : Nat) (seq : BitVec 14) (nvalid : Nat) (bcn : U32) (ws : List Word) : State :=
  let x := StreamAt.link q ch
  let p := 4 * q + blane
  match s.streamOf x, s.streamOf x |>.bind (fun st => s.jobOf st.job) with
  | some st, some j =>
    if !atOrAfter bcn j.first then s
    else
      let c := s.takeCredit x blane
      let want := ((s.quad q).rxSeq.getD ch none).getD seq
      let d := (seq - want).toNat
      let next := st.nextJ.getD 0 0
      if 8192 ≤ d then
        if !c.2 then c.1.overRate p (frameAt j.k bcn)
        else if next + d < 16384 + st.lateTo then c.1
        else (c.1.laneCtr p 5 1).laneLog p 0x1B 3 1
      else
        let num := next + d
        let s0 := c.1.onStreamAt x (fun y =>
          { y with anchor := if decide ((y.anchor.getD (0, 0, 0)).1 ≤ num) then some (num, beaconTime s.aon bcn, 0) else y.anchor })
        let s1 := if 8 < d then ((s0.laneCtr p 5 1).laneLog p 0x1B 3 d).missUpTo x 0 num 3 else s0
        let s2 := if c.2 then (s1.writeSlot x num (dlSlot s.aon ws bcn nvalid blane)).noteBlock x num none
          else (s1.overRate p (frameAt j.k bcn)).missBlock x num 2
        let inOrder := d == 0 || decide (8 < d)
        let after := if inOrder then linkNext st.early 16 (num + 1) else next
        let s3 := s2.onStreamAt x (fun y =>
          { y with
            nextJ := modAt y.nextJ 0 (fun _ => after)
            early := (if inOrder then y.early else y.early ++ [num]).filter (fun e => decide (after ≤ e)) })
        s3.onQuad q (fun y => { y with rxSeq := modAt y.rxSeq ch (fun _ => some (want + BitVec.ofNat 14 (after - next))) })
  | _, _ => s.onQuad q (fun y => { y with dlDiscard := ctrAdd 16 y.dlDiscard 1 })

/-- DL_CODEWORD_RECEIVED (R384, R386, R387). -/
def execDlCodewordReceived (q : Fin 8) (cw : Codeword) (s : State) : Host.Outcome State Fault Refusal :=
  let x := s.quad q.val
  .next (if !x.dlMode || !x.dlup then s
    else match cw with
      | .uncorrectable => s.badCodeword (4 * q.val) 1
      | .decoded payload corrected =>
        let f := cwFields payload
        let p := 4 * q.val + f.blane.toNat
        if 15 < corrected then s.badCodeword (4 * q.val) 1
        else if 2 ≤ f.type.toNat then s.badCodeword p 2
        else if f.type = 1 then (s.laneCtr p 2 1).onPos p (fun y => { y with badRun := 0 })
        else
          let s1 := ((s.laneCtr p 0 corrected).laneCtr p 1 1).onPos p (fun y => { y with badRun := 0 })
          let a := dlAnc f.anc
          let own := (s.geode q.val).beacon.getD 0
          let ok := decide (0 ≤ frameDiff own a.2.2) && decide (frameDiff own a.2.2 ≤ 2)
          let s2 := if ok then s1
            else (s1.onQuad q.val (fun y => { y with dlBcn := ctrAdd 16 y.dlBcn 1 })).log
              { kind := 0x24, geode := byteOf q.val, unit := byteOf q.val, a := a.2.2, b := own }
          s2.linkBlock q.val (a.1 % 16) f.blane.toNat f.seq a.2.1 a.2.2 f.samples)

end Sys2Proof.Machine
end

