-- ==== Sys2Proof/Machine/MonLine.lean ====
section
/-! DEFINITION. The line side of the bench monitor (R477–R482, R484): characters, lines, tokens, numbers, targets and
registers by name, and the commands that lines spell. -/

namespace Sys2Proof.Machine
open Sys2Proof

/-! ### Tokens and numbers (R480) -/

/-- Upper case. -/
def upperByte (b : Byte) : Byte := if 97 ≤ b.toNat ∧ b.toNat ≤ 122 then b - 32 else b

/-- The pieces of a text between separators, the empty ones too. -/
def splitAt_ (sep : Byte) : List Byte → List (List Byte)
  | [] => [[]]
  | b :: bs =>
    match splitAt_ sep bs with
    | [] => [[b]]
    | t :: ts => if b = sep then [] :: t :: ts else (b :: t) :: ts

/-- Tokens of a line, in upper case. -/
def tokensOf (l : List Byte) : List (List Byte) := (splitAt_ 32 (l.map upperByte)).filter (fun t => !t.isEmpty)

/-- A digit of a base. -/
def digitOf (base : Nat) (b : Byte) : Option Nat :=
  let v := b.toNat
  let d := if 48 ≤ v ∧ v ≤ 57 then some (v - 48) else if 65 ≤ v ∧ v ≤ 70 then some (v - 55) else none
  d.filter (fun k => decide (k < base))

/-- Digits as a number; none where there is none, or a character is no digit. -/
def digitsFrom (base : Nat) : Nat → List Byte → Option Nat
  | acc, [] => some acc
  | acc, b :: bs => (digitOf base b).bind (fun d => digitsFrom base (acc * base + d) bs)
def digitsOf (base : Nat) (t : List Byte) : Option Nat := if t.isEmpty then none else digitsFrom base 0 t

/-- A number: decimal, or hexadecimal with the prefix 0x (R480). -/
def numberOf (t : List Byte) : Option Nat :=
  match t with
  | 48 :: 88 :: h => digitsOf 16 h
  | _ => digitsOf 10 t

/-- A number below a bound. -/
def numBelow (n : Nat) (t : List Byte) : Option Nat := (numberOf t).filter (fun v => decide (v < n))

/-- A number below a bound as a finite number. -/
def finOf (n : Nat) [NeZero n] (t : List Byte) : Option (Fin n) := (numBelow n t).map (Fin.ofNat n)

/-! ### Targets and registers (R235, R482) -/

/-- A target: g.c, g.S, H, g.S.k or H.k. -/
def targetOf (t : List Byte) : Option Sys2Proof.Target :=
  match splitAt_ 46 t with
  | [h] => if h = [72] then some ⟨.hub, none⟩ else none
  | [a, b] =>
    if a = [72] then (finOf 64 b).map (fun k => ⟨.hub, some k⟩)
    else (finOf 8 a).bind (fun g => if b = [83] then some ⟨.sup g, none⟩ else (finOf 9 b).map (fun c => ⟨.sig g c, none⟩))
  | [a, b, k] => (finOf 8 a).bind (fun g => if b = [83] then (finOf 64 k).map (fun x => ⟨.sup g, some x⟩) else none)
  | _ => none

/-- A core target, without a context. -/
def coreOf (t : List Byte) : Option CoreRef := (targetOf t).bind (fun x => if x.ctx.isNone then some x.core else none)

/-- System registers that stand alone, and those that are numbered: name, first number, how many. -/
def sysNames : List (List Byte × Nat) :=
  [ (ascii "STAT", 0x00), (ascii "MODE", 0x01), (ascii "FSTAT", 0x02), (ascii "VL", 0x03), (ascii "VSTART", 0x04)
  , (ascii "LSTAT", 0x05), (ascii "REPC", 0x06), (ascii "WSTAT", 0x07), (ascii "LRUN0", 0x08), (ascii "LHEAD0", 0x09)
  , (ascii "LTAIL0", 0x0A), (ascii "LRUN1", 0x0B), (ascii "LHEAD1", 0x0C), (ascii "LTAIL1", 0x0D), (ascii "XPC", 0x10)
  , (ascii "XCONT", 0x11), (ascii "XREPC", 0x12), (ascii "XCAUSE", 0x13), (ascii "XADDR", 0x14), (ascii "CORECTL", 0x20)
  , (ascii "L2VEC", 0x21), (ascii "EXVEC", 0x22), (ascii "TMR", 0x23), (ascii "L0WIN", 0x24), (ascii "UDTSTAT", 0x25)
  , (ascii "SPBASE", 0x2C), (ascii "SPP", 0x30), (ascii "SPLIM", 0x34), (ascii "FXPC", 0x38), (ascii "FXOP", 0x39)
  , (ascii "FXA", 0x3A), (ascii "FXB", 0x3B), (ascii "FXC", 0x3C), (ascii "TCTL", 0x50), (ascii "XCTX", 0x51)
  , (ascii "CTXNUM", 0x52) ]
def sysRows : List (List Byte × Nat × Nat) :=
  [ (ascii "FSAVE", 0x28, 4), (ascii "SPBASE", 0x2C, 4), (ascii "SPP", 0x30, 4), (ascii "SPLIM", 0x34, 4)
  , (ascii "EVPEND", 0x40, 10), (ascii "EVCFG", 0x80, 128) ]

/-- A register by its letters and its number. -/
def numberedReg (letters : List Byte) (n : Nat) : Option RegName :=
  if letters = ascii "A" then if n < 16 then some (.a (Fin.ofNat 16 n)) else none
  else if letters = ascii "M" then if n < 8 then some (.m (Fin.ofNat 8 n)) else none
  else if letters = ascii "B" then if n < 8 then some (.b (Fin.ofNat 8 n)) else none
  else if letters = ascii "L" then if n < 8 then some (.l (Fin.ofNat 8 n)) else none
  else if letters = ascii "D" then if n < 32 then some (.d (Fin.ofNat 32 n)) else none
  else if letters = ascii "AC" then if n < 8 then some (.ac (Fin.ofNat 8 n)) else none
  else if letters = ascii "V" then if n < 16 then some (.v (Fin.ofNat 16 n)) else none
  else if letters = ascii "VA" then if n < 4 then some (.va (Fin.ofNat 4 n)) else none
  else if letters = ascii "F" then if n < 16 then some (.f (Fin.ofNat 16 n)) else none
  else match sysRows.find? (fun r => r.1 == letters) with
    | some r => if n < r.2.2 then some (.sys (BitVec.ofNat 8 (r.2.1 + n))) else none
    | none => none

/-- A register by its mnemonic (R103, R235). -/
def regOf (t : List Byte) : Option RegName :=
  match sysNames.find? (fun r => r.1 == t) with
  | some r => some (.sys (BitVec.ofNat 8 r.2))
  | none =>
    let letters := t.takeWhile (fun b => (digitOf 10 b).isNone)
    (digitsOf 10 (t.drop letters.length)).bind (numberedReg letters)

/-! ### Commands that lines spell (R483) -/

/-- What a line spells: nothing known, a known command with a mistake, a command, or a LODE whose bytes follow. -/
inductive LineCmd where
  | unknown
  | bad
  | cmd (i : MonCmd)
  | lode (slot : Fin 16) (mask : Byte) (len : Nat)
deriving DecidableEq, Repr

/-- A command whose operands read well, or a mistake. -/
def lineOf (o : Option MonCmd) : LineCmd := match o with | some i => .cmd i | none => .bad

/-- A space with its address, and the tokens behind it (R482). -/
def spaceOf (ts : List (List Byte)) : Option (Space × List (List Byte)) :=
  match ts with
  | [72] :: a :: r => (numBelow (2 ^ 19) a).map (fun x => (.hub (BitVec.ofNat 19 x), r))
  | [83] :: g :: a :: r => (finOf 8 g).bind (fun k => (numBelow (2 ^ 21) a).map (fun x => (.shared k (BitVec.ofNat 21 x), r)))
  | [67] :: t :: a :: r => (coreOf t).bind (fun k => (numBelow (2 ^ 17) a).map (fun x => (.core k (BitVec.ofNat 17 x), r)))
  | [73] :: t :: a :: r => (coreOf t).bind (fun k => (numBelow (2 ^ 14) a).map (fun x => (.instr k (BitVec.ofNat 14 x), r)))
  | [70] :: g :: a :: r => (finOf 8 g).bind (fun k => (numBelow (2 ^ 12) a).map (fun x => (.fabric k (BitVec.ofNat 12 x), r)))
  | [80] :: f :: a :: r => (finOf 8 f).bind (fun k => (numBelow (2 ^ 16) a).map (fun x => (.bar0 k (BitVec.ofNat 16 x), r)))
  | _ => none

/-- An operand that may be missing. -/
def optNum (n : Nat) (ts : List (List Byte)) : Option (Option Nat) :=
  match ts with
  | [] => some none
  | [t] => (numBelow n t).map some
  | _ => none

/-- A level in the second place of REG, where a register follows it. -/
def levelOf (ts : List (List Byte)) : Option (Fin 4) × List (List Byte) :=
  match ts with
  | [76, d] :: r :: rest =>
    match (digitOf 4 d), numberOf r with
    | some k, none => (some (Fin.ofNat 4 k), r :: rest)
    | _, _ => (none, ts)
  | _ => (none, ts)

/-- REG's operands. -/
def regLine (ts : List (List Byte)) : Option MonCmd :=
  match ts with
  | t :: r =>
    let l := levelOf r
    (targetOf t).bind (fun x => match l.2 with
      | n :: v => (regOf n).bind (fun k => (optNum (2 ^ 1792) v).map (fun w => .reg x l.1 k (w.map (BitVec.ofNat 1792))))
      | [] => none)
  | [] => none

/-- RESET's operands. -/
def resetLine (ts : List (List Byte)) : Option MonCmd :=
  match ts with
  | [k] => if k = ascii "DEV" then some .resetDev else if k = ascii "HUB" then some .resetHub else none
  | [k, t] =>
    if k = ascii "G" then (finOf 8 t).map (fun g => .resetG g)
    else if k = ascii "C" then
      match coreOf t with
      | some (.sig g c) => some (.resetC g c)
      | _ => none
    else none
  | _ => none

/-- LOG's operands: one alone is a sequence number. -/
def logLine (ts : List (List Byte)) : Option MonCmd :=
  match ts with
  | [] => some (.log none none)
  | [a] => (numBelow (2 ^ 32) a).map (fun q => .log (some (u32 q)) none)
  | [a, b] => (numBelow (2 ^ 32) a).bind (fun q => (numberOf b).map (fun n => .log (some (u32 q)) (some n)))
  | _ => none

/-- The command of a line (R483). -/
def commandOf (ts : List (List Byte)) : LineCmd :=
  match ts with
  | [] => .bad
  | k :: r =>
    if k = ascii "VER" then lineOf (if r.isEmpty then some .ver else none)
    else if k = ascii "STATE" then lineOf (if r.isEmpty then some .state else none)
    else if k = ascii "MR" then
      lineOf ((spaceOf r).bind (fun a => (optNum 65536 a.2).map (fun n => .mr a.1 (n.getD 1))))
    else if k = ascii "MW" then lineOf ((spaceOf r).bind (fun a => (a.2.mapM numberOf).map (fun vs => .mw a.1 vs)))
    else if k = ascii "REG" then lineOf (regLine r)
    else if k = ascii "HALT" then
      lineOf (match r with | [t] => (targetOf t).map (fun x => .halt x) | _ => none)
    else if k = ascii "RUN" then
      lineOf (match r with | [t] => (targetOf t).map (fun x => .run x) | _ => none)
    else if k = ascii "STEP" then
      lineOf (match r with
        | t :: n => (targetOf t).bind (fun x => (optNum 65536 n).map (fun m => .step x (m.getD 1)))
        | [] => none)
    else if k = ascii "BRK" then
      lineOf (match r with
        | [t, i, a] => (targetOf t).bind (fun x => (finOf 2 i).bind (fun j =>
            if a = ascii "OFF" then some (.brk x j none)
            else (numBelow 16384 a).map (fun v => .brk x j (some (BitVec.ofNat 14 v)))))
        | _ => none)
    else if k = ascii "ATTN" then
      lineOf (match r with | [t] => (targetOf t).map (fun x => .attn x) | _ => none)
    else if k = ascii "LODE" then
      match r with
      | [a, m, n] =>
        match finOf 16 a, numBelow 256 m, numBelow (2 ^ 32) n with
        | some slot, some mask, some len => .lode slot (byteOf mask) len
        | _, _, _ => .bad
      | _ => .bad
    else if k = ascii "LOG" then lineOf (logLine r)
    else if k = ascii "CTR" then
      lineOf (match r with
        | [b] => (finOf 10 b).map (fun x => .ctr x false)
        | [b, l] => if l = ascii "L" then (finOf 10 b).map (fun x => .ctr x true) else none
        | _ => none)
    else if k = ascii "FUSE" then
      lineOf (match r with
        | i :: v => (numBelow 256 i).bind (fun x => (optNum 16384 v).map (fun w => .fuse (byteOf x) (w.map (BitVec.ofNat 14))))
        | [] => none)
    else if k = ascii "FAULTREC" then
      lineOf (match r with
        | [] => some (.faultrec false)
        | [c] => if c = ascii "CLR" then some (.faultrec true) else none
        | _ => none)
    else if k = ascii "RESET" then lineOf (resetLine r)
    else .unknown

/-! ### Answers (R481) -/

/-- The text behind E nn: the meaning that R481's table gives (log entry 81). -/
def errText (k : Nat) : List Byte :=
  ascii (match k with
    | 1 => "E 01 Unknown command"
    | 2 => "E 02 Syntax error, or an argument out of range"
    | 3 => "E 03 Line too long, framing error, or input overflow"
    | 4 => "E 04 Target not halted"
    | 5 => "E 05 Target island powered off, or target core retired or geode faulted"
    | 6 => "E 06"
    | _ => "E 07 Data read with an uncorrectable ECC error")

/-- An answer: the state, the data lines, the error code (0: OK) and what follows E 06. -/
structure MonAns where
  st    : State
  lines : List (List Byte) := []
  code  : Nat := 0
  extra : List Byte := []
deriving DecidableEq, Repr

/-- Data lines, one final line, the prompt (R481). -/
def MonAns.send (a : MonAns) (p : Port) : State :=
  let s1 := a.lines.foldl (fun t l => t.sayLine p l) a.st
  (s1.sayLine p (if a.code = 0 then ascii "OK" else errText a.code ++ a.extra)).prompt p

/-! ### Lines (R480, R481, R484) -/

/-- A command of the UART runs: its row has not come, or the verification of the slot it loads has not ended. -/
def State.monBusy (s : State) : Bool :=
  s.mon.ready.isSome || s.hub.slots.any (fun x => x.monitor == some .uart && decide (x.len ≤ x.bytes.length))

/-- Why the monitor may not load a slot, as the status that the PF would receive (R320, R441, R481, R484); 0: it may. -/
def State.lodeStatus (s : State) (slot : Nat) : Nat :=
  let x := s.slotOf slot
  if s.aon.devstate ≠ .ready then 0x0301
  else if x.state = .empty then 0
  else if x.owner ≠ 0 then 0x0305
  else if x.state ≠ .loading then 0x0311
  else if x.waiting.isSome || x.monitor.isSome then 0x0306
  else 0

/-- The status behind E 06. -/
def statusText (k : Nat) : List Byte := 32 :: (hexText 4 k).map (fun c => byteOf c.toNat)

/-- The slot that the monitor begins to load. -/
def monSlot (p : Port) (mask : Byte) (len : Nat) (bytes : List Byte) : LodeSlot :=
  { state := .loading, owner := 0, mask := mask, len := len, bytes := bytes, monitor := some p }

/-- LODE's line: `=`, and the bytes are to follow (R484). -/
def State.beginLode (s : State) (slot : Fin 16) (mask : Byte) (len : Nat) : State :=
  let st := s.lodeStatus slot.val
  if st ≠ 0 then ({ st := s, code := 6, extra := statusText st } : MonAns).send .uart
  else
    let s1 := s.sayLine .uart (ascii "=")
    if len = 0 then s1.onMon (fun m => { m with ready := some (.lode slot mask []) })
    else (s1.onSlot slot.val (fun _ => monSlot .uart mask len [])).onMon
      (fun m => { m with lode := some { slot := slot, mask := mask, len := len, bytes := [] } })

/-- Hexadecimal digits as bytes. -/
def hexPairs : List Byte → Option (List Byte)
  | [] => some []
  | a :: b :: r =>
    match digitOf 16 (upperByte a), digitOf 16 (upperByte b), hexPairs r with
    | some x, some y, some l => some (byteOf (16 * x + y) :: l)
    | _, _, _ => none
  | _ => none

/-- A mistake in LODE's lines ends the load, and the slot is EMPTY (log entry 82). -/
def State.abortLode (s : State) (l : MonLode) (code : Nat) : State :=
  let s1 := s.onMon (fun m => { m with lode := none })
  let s2 := if (s1.slotOf l.slot.val).monitor = some .uart then s1.emptySlot l.slot.val else s1
  ({ st := s2, code := code } : MonAns).send .uart

/-- A line of LODE's bytes. -/
def State.lodeLine (s : State) (l : MonLode) (line : List Byte) : State :=
  match hexPairs line with
  | none => s.abortLode l 2
  | some bs =>
    let all := l.bytes ++ bs
    if l.len < all.length then s.abortLode l 2
    else if all.length = l.len then s.onMon (fun m => { m with lode := none, ready := some (.lode l.slot l.mask all) })
    else ((s.onMon (fun m => { m with lode := some { l with bytes := all } })).onSlot l.slot.val
      (fun x => { x with bytes := all })).bytesIn l.slot.val

/-- A line has ended (R480, R481). -/
def State.lineEnd (s : State) : State :=
  let m := s.mon
  let s1 := s.onMon (fun x => { x with line := [], tooLong := false, badByte := false })
  let wrong := if m.tooLong then 3 else if m.badByte then 2 else 0
  match m.lode with
  | some l => if wrong ≠ 0 then s1.abortLode l wrong else s1.lodeLine l m.line
  | none =>
    if wrong ≠ 0 then ({ st := s1, code := wrong } : MonAns).send .uart
    else if (tokensOf m.line).isEmpty then s1.prompt .uart
    else match commandOf (tokensOf m.line) with
      | .unknown => ({ st := s1, code := 1 } : MonAns).send .uart
      | .bad => ({ st := s1, code := 2 } : MonAns).send .uart
      | .cmd i => s1.onMon (fun x => { x with ready := some i })
      | .lode slot mask len => s1.beginLode slot mask len

/-- A printable character, or CR or LF. -/
def printable (b : Byte) : Bool := decide (32 ≤ b.toNat) && decide (b.toNat ≤ 126)
def isEol (b : Byte) : Bool := b == 13 || b == 10

/-- A character joins the line, or ends it (R480). -/
def State.lineIn (s : State) (x : MonIn) : State :=
  match x with
  | .lost => s.onMon (fun m => { m with tooLong := true })
  | .char b framing =>
    if framing then s.onMon (fun m => { m with tooLong := true, lastCr := false })
    else if b = 10 ∧ s.mon.lastCr then s.onMon (fun m => { m with lastCr := false })
    else if isEol b then (s.onMon (fun m => { m with lastCr := b == 13 })).lineEnd
    else if printable b then
      s.onMon (fun m =>
        if 128 ≤ m.line.length then { m with tooLong := true, lastCr := false }
        else { m with line := m.line ++ [b], lastCr := false })
    else s.onMon (fun m => { m with badByte := true, lastCr := false })

/-- Buffered characters are taken while no command runs (R481). -/
def State.drainBuf (s : State) : Nat → State
  | 0 => s
  | n + 1 =>
    if s.monBusy then s
    else match s.mon.buf with
      | [] => s
      | x :: rest => ((s.onMon (fun m => { m with buf := rest })).lineIn x).drainBuf n
def State.drainMon (s : State) : State := s.drainBuf s.mon.buf.length

/-- Characters in the buffer. -/
def bufChars (l : List MonIn) : Nat := (l.filter (fun x => x != .lost)).length

/-- A character enters the buffer, which holds 128; those beyond are lost with their line (R481). -/
def bufPut (m : Mon) (b : Byte) (framing : Bool) : List MonIn :=
  let marked := if m.buf.getLast? = some .lost then m.buf else m.buf ++ [.lost]
  if bufChars m.buf < 128 ∨ (b = 10 ∧ m.cr ∧ !framing) then m.buf ++ [.char b framing]
  else if isEol b && !framing then marked ++ [.char b false]
  else marked

/-- A byte arrives at UART_RX (R477, R480, R481). -/
def State.uartByte (s : State) (b : Byte) (framing : Bool) : State :=
  if !s.mon.open_ then s.onHub (fun h => { h with uartEarly := ctrAdd 16 h.uartEarly 1 })
  else
    let s1 := if !framing && (printable b || isEol b) then s.say .uart [b] else s
    (s1.onMon (fun m => { m with buf := bufPut m b framing, cr := b == 13 && !framing })).drainMon

end Sys2Proof.Machine
end

