-- ==== Sys2Proof/Machine/Posting.lean ====
section
/-! DEFINITION. Posting (R52, R345–R347, R434–R439): what a job posts next, its payloads, its allowance, and the
account of a late frame. -/

namespace Sys2Proof.Machine
open Sys2Proof

/-- The frame of an item. -/
def itemFrame : PostItem → Option U32
  | .input g => some g.frame
  | .gap f _ => some f
  | .frame f => some f.num
  | _ => none

/-- The first of a list whose frame no other precedes. -/
def earliestItem : List PostItem → Option PostItem
  | [] => none
  | x :: xs =>
    match itemFrame x, (earliestItem xs) with
    | some a, some y => match itemFrame y with
      | some b => if atOrAfter b a then some x else some y
      | none => some x
    | _, some y => some y
    | _, none => some x

/-- Nothing of the job is left to post, and every geode is released (R332). -/
def jobOver (j : Job) : Bool :=
  j.geodes.all (fun g => j.done.contains g) && j.frames.isEmpty && j.gaps.isEmpty && j.inputGaps.isEmpty && j.lateDue.isEmpty &&
    j.post.isNone

/-- What a job has to post next: in frame order, and within a frame input gaps, then the gap record, then results (log
entry 71). -/
def nextItem (j : Job) : Option PostItem :=
  match j.lateDue with
  | (f, n) :: _ => some (.late f n)
  | [] =>
    if jobOver j then (if j.discard then none else some .ended)
    else earliestItem ((j.inputGaps.take 1).map (fun g => PostItem.input g) ++
      (j.gaps.take 1).map (fun g => PostItem.gap g.1 g.2) ++ (j.frames.take 1).map (fun f => PostItem.frame f))

/-- Marks of a frame for a record of one binding, or of the whole job (R50, R53, R409). -/
def marksOf (j : Job) (f : U32) (bidx : Option Nat) : Byte :=
  let mine := j.marks.filter (fun m => m.frame == f && (match bidx with
    | none => true
    | some k => m.bidx == some k || (m.bidx.isNone && (match j.bindings[k]? with
        | some b => j.geodes.getD b.geode.toNat 99 == m.geode
        | none => true))))
  mine.foldl (fun v m => v ||| m.bits) 0

/-- Marks for a result record that geode `g` produced (R50): DEGRADED is that geode's own; a job-wide result takes the
other marks of every geode. -/
def recordMarks (j : Job) (f : U32) (g : Nat) (bidx : Option Nat) : Byte :=
  (j.marks.filter (fun m => m.frame == f)).foldl (fun v m =>
    if m.geode == g && (bidx.isNone || m.bidx.isNone || m.bidx == bidx) then v ||| m.bits
    else if bidx.isNone then v ||| (m.bits &&& 0xFE)
    else v) 0

/-- Nanoseconds past the deadline t(n + K) + LAT of a frame (R344), when it has passed. -/
def State.lateBy (s : State) (j : Job) (f : U32) : Option Nat :=
  let d : Int := (now56 s.aon : Int) - beaconTime s.aon (f + BitVec.ofNat 32 j.k)
  let past := d * 1000000000 - lodeLat (s.lodeOf j.slot) * 2 ^ 56
  if 0 < past then some (Nat.min 0xFFFFFFFF (past / 2 ^ 56).toNat) else none

/-- LATE of a record whose header is written now (R50, R347). -/
def State.lateMark (s : State) (j : Job) (f : U32) : Byte := if (s.lateBy j f).isSome then 8 else 0

/-- The packing that the results section names for a kind (R316). -/
def packOf (c : List Byte) (kind : Nat) : Nat :=
  match (lodeResults c).find? (fun r => r.1 == kind) with
  | some r => r.2.1
  | none => 0

/-- Words of hub memory that the hub reads for posting (R271, R345). -/
def State.hubReadN (s : State) : Nat → Nat → List Word × State
  | _, 0 => ([], s)
  | a, n + 1 =>
    let r := s.hubReadBy true a
    let q := r.1.hubReadN (a + 1) n
    (r.2 :: q.1, q.2)

/-- A result record's payload (R439). LDATA and the data are words that a geode staged in its slot of the frame (R36, R346).
Which geode, which words of the slot, how many units and which stream the spec leaves to the role: they are free, within
the slot and YF (log entry 72). A geode that stages nothing gives free words. -/
def State.resultPayload (s : State) (j : Job) (f : Frame) (kind : Nat) : List Byte × State :=
  let code := packOf (s.lodeOf j.slot) kind
  let rings := (j.stage.zip j.geodes).filter (fun p => p.1.2 != 0)
  let r0 := s.fresh
  let ring := rings[r0.1 % Nat.max 1 rings.length]?
  let g := match ring with | some p => p.2 | none => j.geodes.getD (r0.1 % Nat.max 1 j.geodes.length) 0
  let size := match ring with | some p => p.1.2 | none => 0
  let r1 := r0.2.fresh
  let at_ := r1.1 % (size - 8 + 1)
  let r2 := r1.2.fresh
  let n0 := r2.1 % (j.yf + 1)
  let n := if 64 + packLen code n0 ≤ j.yf && (decide (size = 0) || decide (at_ + 8 + unitWords code n0 ≤ size)) then n0 else 0
  let r3 := r2.2.fresh
  let mine := (List.range j.bindings.length).filter (fun i => match j.bindings[i]? with
    | some b => j.geodes.getD b.geode.toNat 99 == g
    | none => false)
  let bidx := mine[r3.1 % (mine.length + 1)]?
  let d := match ring with
    | some p => r3.2.hubReadN (p.1.1 + frameSlot j f.num * size + at_) (8 + unitWords code n)
    | none => let w := r3.2.freshWords (8 + unitWords code n); (w.1.map (BitVec.ofNat 14), w.2)
  let j1 := (d.2.jobOf j.id).getD j
  (leBytes 4 f.num.toNat ++ leBytes 2 f.gen.toNat ++ [recordMarks j1 f.num g bidx ||| s.lateMark j f.num, byteOf code] ++
    time56Bytes (beaconTime s.aon f.num) ++ leBytes 2 (bidx.getD 0xFFFF) ++ [0, 0] ++ leBytes 4 n ++
    ((d.1.take 8).flatMap (fun v => leBytes 2 v.toNat)) ++ pack code (unitsOfWords code (d.1.drop 8)), d.2)

/-- The frames of a gap record. -/
def gapFrames (j : Job) (f : U32) (n : Nat) : List U32 := (List.range n).map (fun k => f + BitVec.ofNat 32 (k * j.k))

/-- The payload of a gap, input gap, delivery-late or job-ended record (R438). The last frame of a job of which nothing was
posted is not stated: it is free. -/
def State.gapBytes (s : State) (j : Job) (f : U32) (n : Nat) : List Byte :=
  let marks := (gapFrames j f n).foldl (fun v a => v ||| marksOf j a none ||| s.lateMark j a) 0
  leBytes 4 f.toNat ++ leBytes 4 n ++ [1, marks] ++ List.replicate 6 0
def State.inputBytes (s : State) (j : Job) (g : InputGap) : List Byte :=
  leBytes 4 g.frame.toNat ++ [g.cause, marksOf j g.frame (some g.bidx) ||| s.lateMark j g.frame] ++ leBytes 2 g.bidx ++
    leBytes 8 g.first ++ leBytes 8 g.count
def lateBytes (f : U32) (ns : Nat) : List Byte := leBytes 4 f.toNat ++ leBytes 4 ns ++ List.replicate 8 0
def State.endedBytes (s : State) (j : Job) : List Byte × State :=
  let known := match j.cause.toNat, j.lastPost with
    | 0, _ => some (j.last - BitVec.ofNat 32 j.k)
    | 1, _ => some (j.last - BitVec.ofNat 32 j.k)
    | _, p => p
  let r := match known with
    | some f => (leBytes 4 f.toNat, s)
    | none => s.freshBytes 4
  (r.1 ++ leBytes 4 (j.releaseAt.getD 0).toNat ++ [j.cause] ++ List.replicate 7 0, r.2)

/-- The record of an item (R437, R438): its kind and payload. A result record longer than the ring takes gives way to a gap
record. -/
def State.recordFor (s : State) (j : Job) : PostItem → Nat × List Byte × State
  | .late f ns => (0xF2, lateBytes f ns, s)
  | .input g => (0xF1, s.inputBytes j g, s)
  | .gap f n => (0xF0, s.gapBytes j f n, s)
  | .ended => let e := s.endedBytes j; (0xF3, e.1, e.2)
  | .frame f =>
    let kind := (f.left.headD (0, 0)).1
    let p := s.resultPayload j f kind
    if ringSize (s.fn j.fn).rrlog2 < 16 + p.1.length + 32 then (0xF0, s.gapBytes j f.num 1, p.2) else (kind, p.1, p.2)

/-! ### Allowance and turn (R345) -/

/-- The allowance now, in bytes × 2⁵⁶. -/
def State.allowNow (s : State) (j : Job) : Nat :=
  Nat.min (j.yf * 2 ^ 56) (j.allow + j.bp * 1000000 * (now56 s.aon - j.allowAt))

/-- The job has something to post, and its function is not skipped for want of ring space. -/
def State.posting (s : State) (j : Job) : Bool :=
  let x := s.fn j.fn
  j.post.isSome || ((nextItem j).isSome && x.waitq.isEmpty && x.rren && !x.d3 && !x.rrfull)

/-- The job whose turn it is for capacity beyond the allowances: round-robin in ascending job id. -/
def State.turnOf (s : State) : Option U16 :=
  let ids := (s.hub.jobs.filter s.posting).map (fun j => j.id.toNat)
  let least := fun (l : List Nat) => l.foldl (fun (m : Option Nat) v => some (match m with | some w => Nat.min w v | none => v)) none
  match least (ids.filter (fun v => decide (s.hub.postTurn.toNat < v))) with
  | some v => some (BitVec.ofNat 16 v)
  | none => (least ids).map (BitVec.ofNat 16)

/-- A TLP carries at most Max_Payload_Size bytes of an entry. -/
def tlpLen (l : Link) (total sent : Nat) : Nat := Nat.min (128 * 2 ^ l.mps.toNat) (total - sent)

/-- Bytes of the next TLP of a job whose record is under way; else of the smallest entry. -/
def State.nextTlp (s : State) (j : Job) : Nat :=
  match j.post with
  | some p => tlpLen s.link (entryLen p.payload.length) p.sent
  | none => 32

/-- No other job's allowance takes the link, and it is this job's turn. -/
def State.myTurn (s : State) (j : Job) : Bool :=
  s.turnOf == some j.id &&
    s.hub.jobs.all (fun k => k.id == j.id || !s.posting k || decide (s.allowNow k < s.nextTlp k * 2 ^ 56))

/-! ### What follows a record -/

/-- FNSTAT.GAP or LATE is set, with vector 1 on the change (R426, R429). -/
def State.setGap (s : State) (f : Nat) : State :=
  if (s.fn f).gap then s else (s.onFn f (fun x => { x with gap := true })).notify f
def State.setLate (s : State) (f : Nat) : State :=
  if (s.fn f).late then s else (s.onFn f (fun x => { x with late := true })).notify f

/-- The last byte that stands for a frame has been sent: after its deadline a delivery-late record follows (R344, R347). -/
def State.noteLate (s : State) (j : Job) (f : U32) : State :=
  match s.lateBy j f with
  | none => s
  | some ns =>
    (s.onJob j.id (fun y => { y with late := y.late + 1, lateDue := y.lateDue ++ [(f, ns)] })).log
      { kind := 0x17, fn := byteOf j.fn, job := j.id, a := f, b := u32 ns }

/-- The last record of a frame has been posted (R347, R443). -/
def State.framePosted (s : State) (j : Job) (f : U32) : State :=
  (s.onJob j.id (fun y =>
    { y with frames := y.frames.filter (fun x => x.num != f), marks := y.marks.filter (fun m => m.frame != f)
             posted := y.posted + 1, lastPost := some f })).noteLate j f

/-- The result records of a frame that are left after the first of them. -/
def afterFirst : List (Nat × Nat) → List (Nat × Nat)
  | [] => []
  | (kind, n) :: more => if n ≤ 1 then more else (kind, n - 1) :: more

/-- A frame's next record is out. -/
def State.resultDone (s : State) (j : Job) (f : Frame) : State :=
  let rest := afterFirst f.left
  let s1 := s.onJob j.id (fun y =>
    { y with frames := y.frames.map (fun x => if x.num == f.num then { x with left := rest } else x) })
  if rest.isEmpty then s1.framePosted j f.num else s1

/-- `n` frames go from the front of the ranges of replaced frames (R346). -/
def dropGap (k n : Nat) : List (U32 × Nat) → List (U32 × Nat)
  | [] => []
  | (f, m) :: rest => if m ≤ n then rest else (f + BitVec.ofNat 32 (n * k), m - n) :: rest

/-- A record of a job is out (R345–R347, R437). -/
def State.recordDone (s : State) (j : Job) (kind : Nat) : PostItem → State
  | .late _ _ => (s.setLate j.fn).onJob j.id (fun y => { y with lateDue := y.lateDue.drop 1 })
  | .input g => s.onJob j.id (fun y => { y with inputGaps := y.inputGaps.erase g })
  | .gap f n =>
    (gapFrames j f n).foldl (fun t a =>
      (t.onJob j.id (fun y => { y with marks := y.marks.filter (fun m => m.frame != a) })).noteLate j a)
      ((s.setGap j.fn).onJob j.id (fun y => { y with gaps := dropGap y.k n y.gaps }))
  | .frame f => (if kind = 0xF0 then s.setGap j.fn else s).resultDone j f
  | .ended => s.onHub (fun h => { h with jobs := h.jobs.filter (fun y => y.id != j.id) })

/-! ### RESULT_POSTING -/

/-- The next TLP of a job's record leaves (R345, R435): it needs posted credits, and the allowance or the job's turn. The
last one makes the entry whole. `s0`: the state in which nothing left. -/
def State.sendTlp (s s0 : State) (j : Job) (p : Posting) : State :=
  let total := entryLen p.payload.length
  let n := tlpLen s.link total p.sent
  let covered := decide (n * 2 ^ 56 ≤ s.allowNow j)
  if s.link.credits < n || !(covered || s.myTurn j) then s0
  else
    let whole := decide (total ≤ p.sent + n)
    let s1 := (s.onLink (fun l => { l with credits := l.credits - n })).onJob j.id (fun y =>
      { y with allow := if covered then s.allowNow j - n * 2 ^ 56 else s.allowNow j, allowAt := now56 s.aon
               post := if whole then none else some { p with sent := p.sent + n } })
    let s2 := if covered then s1 else s1.onHub (fun h => { h with postTurn := j.id })
    if !whole then s2
    else
      let e : Entry := { status := 0, tag := BitVec.ofNat 16 p.kind, job := j.id, type := 2, payload := p.payload, vec := j.vec }
      ((s2.writeEntry j.fn e).recordDone j p.kind p.item).flushRing j.fn ((s2.fn j.fn).waitq.length + 1)

/-- A job's next record begins (R345, R436): its function's ring must take it. The ring that lacks space shows it. -/
def State.startRecord (s : State) (j : Job) (it : PostItem) : State :=
  let r := s.recordFor j it
  let x := s.fn j.fn
  if !x.waitq.isEmpty || s.ringBusy j.fn then s
  else if !entryFits x r.2.1.length then
    if x.rren && !x.d3 && !x.rrfull then (s.onFn j.fn (fun y => { y with rrfull := true })).notify j.fn else s
  else r.2.2.sendTlp s j { item := it, kind := r.1, payload := r.2.1, sent := 0 }

/-- RESULT_POSTING (R345–R347, R435, R438): the next TLP of a job leaves, if it may. A frame without records is posted at
once. -/
def execResultPosting (id : U16) (s : State) : Host.Outcome State Fault Refusal :=
  .next (if !s.hubUp then s
    else match s.jobOf id with
      | none => s
      | some j => match j.post, nextItem j with
        | some p, _ => s.sendTlp s j p
        | none, some (.frame f) => if f.left.isEmpty then s.framePosted j f.num else s.startRecord j (.frame f)
        | none, some it => s.startRecord j it
        | none, none => s)

/-- IRQ_MODERATION_TIMEOUT (R429): TIME has passed since a vector's first unsignalled record. -/
def execIrqModerationTimeout (f : Fin 8) (v : Fin 64) (s : State) : Host.Outcome State Fault Refusal :=
  let x := s.fn f.val
  .next (if x.irqTime = 0 || unsigOf x v.val = 0 then s
    else (s.onFn f.val (fun y => { y with unsig := y.unsig.filter (fun p => p.1 != v.val) })).sendMsix f.val v.val)

end Sys2Proof.Machine
end

