-- ==== Sys2Proof/Machine/HostCommands.lean ====
section
/-! DEFINITION. The commands of the host (R442, R444, R446), their fetch (R433, R440), and the events that complete them.
Log entry 44: a command executes when its row is given, whichever commands of its function were fetched before it. -/

namespace Sys2Proof.Machine
open Sys2Proof

/-! ### COMMAND_FETCH (R431, R433, R440) -/

/-- Opcodes of R442, R444 and R446. -/
def knownOpcode (o : Nat) : Bool :=
  [0x0000, 0x0001, 0x0002, 0x0100, 0x0101, 0x0102, 0x0103, 0x0200, 0x0201, 0x0202, 0x0203, 0x0204, 0x0300, 0x0301, 0x0302,
   0x0400, 0x0401, 0x0402, 0x0500, 0x0501, 0x0600, 0x0601, 0x0700, 0x0701, 0x0800, 0x0801, 0x0F00, 0x0F01, 0x0F02].contains o

/-- Opcodes that take a job id. -/
def jobOpcode (o : Nat) : Bool := [0x0200, 0x0201, 0x0202, 0x0401].contains o

/-- The range of MEM_READ and MEM_WRITE (R444): space, packing, words inside the memory, at most 1 MiB. -/
def memRangeOk (space geode core packing addr units : Nat) : Bool :=
  let size := match space with | 0 => 0x80000 | 1 => 0x200000 | _ => 0x20000
  decide (space ≤ 2) && decide (1 ≤ packing) && decide (packing ≤ 6) && (space == 0 || decide (geode < 8)) &&
    (space != 2 || decide (core < 9)) && decide (addr + unitWords packing units ≤ size) && decide (packLen packing units ≤ 0x100000)

/-- Operand ranges of SIGN_POLICY (R442). -/
def signOk (op arg keyLen : Nat) : Bool :=
  match op with
  | 0 => decide (arg < 2) && keyLen == 0
  | 1 => decide (arg < 4) && keyLen == 32
  | 2 => decide (arg < 4) && keyLen == 0
  | _ => false

/-- Operand ranges of JOB_START (R520, check 1). -/
def startRange (nstr vec : Nat) (openEnd : Bool) (e : U32) : Bool :=
  decide (1 ≤ nstr) && decide (nstr ≤ 32) && (vec == 0 || (decide (2 ≤ vec) && decide (vec ≤ 63))) && (!openEnd || e == 0)

/-- Payload length, reserved fields and ranges of each opcode (R440, R442, R444, R446). -/
def payloadOk (most : Nat) (o : Nat) (p : List Byte) : Bool :=
  let b := fun (k : Nat) => leAt p k 1
  let len := fun (n : Nat) => p.length == n
  let z := zeroBytes p
  match o with
  | 0x0100 => decide (16 ≤ p.length) && decide (b 0 < 16) && decide (b 1 < 4) && z 3 1 && z 12 4 && (b 1 % 2 == 1 || (b 2 == 0 && z 8 4))
  | 0x0F01 => decide (16 ≤ p.length) && b 0 == 0 && decide (b 1 < 4) && z 2 2 && z 12 4 && (b 1 % 2 == 1 || z 8 4)
  | 0x0101 | 0x0102 => len 4 && decide (b 0 < 16) && z 1 3
  | 0x0103 => decide (8 ≤ p.length) && signOk (b 0) (b 1) (p.length - 8) && z 2 6
  | 0x0200 =>
    decide (16 ≤ p.length) && len (16 + 24 * b 1) && decide (b 0 < 16) && decide (b 3 < 2) && z 12 4 &&
      startRange (b 1) (b 2) (b 3 == 1) (u32 (leAt p 8 4))
  | 0x0203 => len 12 && decide (b 0 < 8) && decide (b 1 ≤ 8) && z 2 2 && decide (leAt p 4 4 ≤ most) && decide (leAt p 8 4 ≤ 224)
  | 0x0204 => len 4 && decide (b 0 < 8) && z 1 3
  | 0x0300 | 0x0302 | 0x0400 | 0x0402 => len 4 && decide (b 0 < 32) && z 1 3
  | 0x0301 => len 12 && decide (b 0 < 8) && z 1 1 && (List.range 5).all (fun k => decide (leAt p (2 + 2 * k) 2 < 2 ^ 14))
  | 0x0501 => len 32 && decide (b 0 ≤ 1) && decide (b 1 ≤ 2) && z 2 2 && z 24 8
  | 0x0600 => len 16 && z 12 4 && memRangeOk (b 0) (b 1) (b 2) (b 3) (leAt p 4 4) (leAt p 8 4)
  | 0x0601 =>
    decide (16 ≤ p.length) && z 12 4 && memRangeOk (b 0) (b 1) (b 2) (b 3) (leAt p 4 4) (leAt p 8 4) &&
      len (16 + packLen (b 3) (leAt p 8 4))
  | 0x0800 => len 8 && decide (1 ≤ leAt p 4 2) && decide (leAt p 4 2 ≤ 4096) && z 6 2
  | 0x0801 => len 4 && decide (b 0 < 10) && decide (b 1 < 2) && z 2 2
  | _ => p.isEmpty

/-- The first check of R440 that a packet fails; 0: none. -/
def packetStatus (f : Fn) (most : Nat) (bs : List Byte) : Nat :=
  let n := leAt bs 8 4
  let p := (bs.drop 16).take n
  if leAt bs 3 1 ≠ 1 then 0x0202
  else if 1048576 < n ∨ ringSize f.crlog2 - 16 < n then 0x0203
  else if 2 ≤ leAt bs 2 1 then 0x0205
  else if leAt bs 12 4 ≠ (crcField p).toNat then 0x0204
  else if !knownOpcode (leAt bs 0 2) then 0x0201
  else if !payloadOk most (leAt bs 0 2) p || !jobFieldOk (jobOpcode (leAt bs 0 2)) (BitVec.ofNat 16 (leAt bs 6 2)) then 0x0206
  else 0

/-- The function's commands may be fetched (R433). -/
def State.mayFetch (s : State) (f : Nat) : Bool :=
  let x := s.fn f
  s.hubUp && s.fnOn f && s.aon.devstate == .ready && x.cren && x.rren && !x.crstop && !x.d3 && !x.rrfull && x.waitq.isEmpty &&
    x.crhead != x.crtail

/-- The function whose turn it is (R348, R433). -/
def State.fetchTurn (s : State) : Option Nat :=
  ((List.range 8).map (fun k => (s.hub.rrFn + k) % 8)).find? (fun f => s.mayFetch f)

/-- A host read of the ring has failed (R433). -/
def State.fetchFailed (s : State) (f : Nat) (cause : BitVec 4) : State :=
  let off := (s.fn f).crhead.toNat
  let s1 := ((s.onFn f (fun x => { x with crstop := true })).notify f).log
    { kind := 0x12, fn := byteOf f, a := cause.setWidth 32, b := u32 off }
  s1.postEntry f
    { status := 0x0402, tag := 0xFFFF, job := 0, type := 0, vec := 0
      payload := leBytes 4 off ++ [byteOf cause.toNat, 0, 0, 0] }

/-- The header of a packet as its command carries it. -/
def hdrOf (f : Fin 8) (bs : List Byte) : CmdHdr :=
  { fn := f, tag := BitVec.ofNat 16 (leAt bs 4 2), job := BitVec.ofNat 16 (leAt bs 6 2), nr := leAt bs 2 1 % 2 == 1 }

/-- A whole packet has been read. -/
def State.packet (s : State) (f : Fin 8) (bs : List Byte) : State :=
  let x := s.fn f.val
  let z := ringSize x.crlog2
  let off := x.crhead.toNat
  let avail := (x.crtail.toNat + z - off) % z
  let st := packetStatus x (admissible s.link) bs
  let whole := 16 + (leAt bs 8 4 + 15) / 16 * 16
  let early := st == 0x0202 || st == 0x0203
  let s0 := s.onHub (fun h => { h with rrFn := (f.val + 1) % 8 })
  if bs.length < 16 ∨ (!early && (decide (avail < whole) || decide (bs.length < whole))) then s0
  else
    let s1 := s0.onFn f.val (fun y =>
      { y with crhead := if early then y.crtail else BitVec.ofNat 24 ((off + whole) % z) })
    let h := hdrOf f bs
    if st ≠ 0 then s1.malformed h off (leAt bs 0 2) (BitVec.ofNat 16 st)
    else s1.onFn f.val (fun y =>
      { y with fetched := y.fetched ++
          [{ opcode := BitVec.ofNat 16 (leAt bs 0 2), off := off, hdr := h, payload := (bs.drop 16).take (leAt bs 8 4) }] })

/-- COMMAND_FETCH (R433, R440). -/
def execCommandFetch (f : Fin 8) (r : FetchResult) (s : State) : Host.Outcome State Fault Refusal :=
  .next (if s.fetchTurn != some f.val then s
    else match r with
      | .failed cause => s.fetchFailed f.val cause
      | .ok bs => s.packet f bs)

/-! ### Identity and status (R442, R443) -/

/-- Fuse shadow word `i` (R488). -/
def State.fuseWord (s : State) (i : Nat) : Word :=
  match s.aon.fuseW.find? (fun p => p.1 == i) with
  | some p => p.2
  | none => if s.aon.fuseLoaded then Config.fuse i else 0

/-- Bits for the geodes that `p` holds of. -/
def geodeMask (p : Nat → Bool) : Byte := (List.range 8).foldl (fun v g => if p g then v ||| (1#8 <<< g) else v) 0

/-- IDENTIFY's masks: geodes not faulted, and spares available (R443, R465). -/
def State.goodMask (s : State) : Byte := geodeMask (fun g => !(s.geode g).faulted)
def State.spareMask (s : State) : Byte := geodeMask (fun g => !(s.geode g).faulted && (s.geode g).spare.isSome)

/-- HOST_NOP (R442). -/
def execHostNop (h : CmdHdr) (s : State) : Host.Outcome State Fault Refusal :=
  .next (s.cmd h { opcode := 0x0000, exempt := true } (fun t => t.reply h 0 []))

/-- IDENTIFY (R442, R443): the two version fields carry the low 16 bits of the FW_INFO versions, the serial number a byte of
each fuse word (log entry 41). -/
def execIdentify (h : CmdHdr) (s : State) : Host.Outcome State Fault Refusal :=
  .next (s.cmd h { opcode := 0x0001, exempt := true } (fun t =>
    t.reply h 0
      (leBytes 2 0x3214 ++ [1, byteOf h.fn.val] ++ leBytes 2 Config.romVersion.toNat ++ leBytes 2 t.hub.patch.version.toNat ++
        [byteOf t.link.vfs, byteOf t.link.gen, byteOf t.link.width, byteOf t.link.mps.toNat] ++ leBytes 4 (admissible t.link) ++
        [t.goodMask, t.spareMask, byteOf ((t.hub.slots.filter (fun x => x.state == .empty)).length), 0] ++
        (List.range 8).map (fun k => byteOf (t.fuseWord k).toNat) ++ List.replicate 36 0)))

/-- Sequence number of the newest readable entry. -/
def State.newestLog (s : State) : U32 :=
  match (s.hub.log.filter (fun e => e.readable)).getLast? with
  | some e => e.seq
  | none => 0xFFFFFFFF

/-- STATUS (R442, R443). -/
def execStatus (h : CmdHdr) (s : State) : Host.Outcome State Fault Refusal :=
  .next (s.cmd h { opcode := 0x0002, exempt := true } (fun t =>
    t.reply h 0
      ([byteOf (devCode t.aon.devstate), byteOf (b2n t.aon.talarm)] ++ leBytes 2 t.aon.tj.toNat ++ leBytes 4 t.beaconNow.toNat ++
        leBytes 4 t.aon.f ++ List.replicate 4 0 ++ leBytes 8 t.aon.fs ++
        [geodeMask (fun g => (t.jobOn g).isSome), geodeMask (fun g => (t.geode g).faulted), byteOf t.reserving.length, 0] ++
        leBytes 4 t.newestLog.toNat)))

/-! ### Lodes (R318–R321, R441, R442) -/

/-- A command of the same function that names a slot waits for its verification (R441). -/
def State.slotWaits (s : State) (h : CmdHdr) (slot : Nat) : Bool :=
  match (s.slotOf slot).waiting with
  | some w => w.fn == h.fn
  | none => false

/-- A chunk is appended (R318, R320, R441): the reply to LAST waits for verification. -/
def State.takeChunk (s : State) (h : CmdHdr) (slot : Nat) (first last : Bool) (mask : Byte) (len : Nat) (bs : List Byte) : State :=
  let s1 := if first then
      s.onSlot slot (fun _ => { state := .loading, owner := h.fn.val, mask := mask, len := len, bytes := bs })
    else s.onSlot slot (fun x => { x with bytes := x.bytes ++ bs })
  let s2 := s1.bytesIn slot
  if last then s2.onSlot slot (fun x => { x with waiting := some h }) else s2.reply h 0 []

/-- LODE_CHUNK (R318, R320, R442). A chunk past the container length, or a LAST chunk that does not end at it, is out of
sequence (log entry 73). -/
def execLodeChunk (h : CmdHdr) (slot : Fin 16) (first last : Bool) (mask : Byte) (off len : U32) (bs : List Byte) (s : State) :
    Host.Outcome State Fault Refusal :=
  let ok := first || (mask == 0 && len == 0)
  .next (if s.slotWaits h slot.val then s
    else s.cmd h { opcode := 0x0100, ok := ok } (fun t =>
      let x := t.slotOf slot.val
      let total := if first then len.toNat else x.len
      let have_ := if first then 0 else x.bytes.length
      let ends := off.toNat + bs.length
      if x.state ≠ .empty ∧ x.owner ≠ h.fn.val then t.reply h 0x0305 []
      else if x.monitor.isSome then t.reply h 0x0306 []
      else if x.state = .verified ∨ x.state = .refused ∨ (x.state = .empty ∧ !first) then t.reply h 0x0311 []
      else if off.toNat ≠ have_ ∨ total < ends ∨ (last ∧ ends ≠ total) then t.reply h 0x0306 []
      else t.takeChunk h slot.val first last mask total bs))

/-- Image pages per geode that the reply names: the most of any geode (log entry 73). -/
def State.mostPages (s : State) (slot : Nat) : Nat :=
  ((s.slotOf slot).pages.map (fun p => p.2.length)).foldl Nat.max 0

/-- What the verification of a slot answers: to the host (R441, R442), or to the bench monitor (R484). -/
def State.answerSlot (s : State) (slot : Nat) (w : Option CmdHdr) (m : Option Port) : State :=
  let x := s.slotOf slot
  let report := match x.report with | some r => refusedBytes r | none => []
  match m, w with
  | some p, _ =>
    let a : MonAns :=
      if x.state = .refused then { st := s, code := 6, extra := ascii " 0310 " ++ hexBytes report } else { st := s }
    if p = .uart then (a.send p).drainMon else a.send p
  | none, some h =>
    if x.state = .refused then s.reply h 0x0310 report
    else
      let t := s.fresh
      t.2.reply h 0
        ([byteOf slot, byteOf (maskGeodes x.mask).length] ++ leBytes 2 (s.mostPages slot) ++
          leBytes 4 (t.1 % (verifyLimit x.bytes + 1)) ++ List.replicate 8 0)
  | none, none => s

/-- LODE_VERIFICATION (R320, R321, R327): a LOADING slot whose last chunk has come is verified. The time in the reply is free
within R327. -/
def execLodeVerification (slot : Fin 16) (s : State) : Host.Outcome State Fault Refusal :=
  let n := slot.val
  let x := s.slotOf n
  .next (if !s.hubUp || x.state != .loading || x.bytes.length < x.len || (x.waiting.isNone && x.monitor.isNone) then s
    else ((s.settleSlot n).onSlot n (fun y => { y with waiting := none, monitor := none })).answerSlot n x.waiting x.monitor)

/-- LODE_UNLOAD (R320, R442): a LOADING slot is in the wrong state (log entry 73). -/
def execLodeUnload (h : CmdHdr) (slot : Fin 16) (s : State) : Host.Outcome State Fault Refusal :=
  .next (if s.slotWaits h slot.val then s
    else s.cmd h { opcode := 0x0101 } (fun t =>
      let x := t.slotOf slot.val
      if x.state = .empty then t.reply h 0x0102 []
      else if x.owner ≠ h.fn.val ∧ h.fn.val ≠ 0 then t.reply h 0x0305 []
      else if x.state = .loading ∨ t.slotUsed slot.val then t.reply h 0x0311 []
      else (t.emptySlot slot.val).reply h 0 []))

/-- The code of a slot's state (R443). -/
def slotCode : SlotState → Nat
  | .empty => 0
  | .loading => 1
  | .verified => 2
  | .refused => 3

/-- LODE_QUERY (R442, R443): header fields that no byte received gives, and YF before VERIFIED, are free (log entry 73). -/
def execLodeQuery (h : CmdHdr) (slot : Fin 16) (s : State) : Host.Outcome State Fault Refusal :=
  .next (if s.slotWaits h slot.val then s
    else s.cmd h { opcode := 0x0102 } (fun t =>
      let x := t.slotOf slot.val
      let c := x.bytes
      let hd := decide (64 ≤ c.length)
      let a := t.bytesIf hd [byteOf (lodeG c)]
      let b := a.2.bytesIf hd (leBytes 8 (lodeTag c) ++ leBytes 2 (lodeK c))
      let d := b.2.bytesIf hd (leBytes 4 (lodeF c) ++ leBytes 8 (lodeFs c) ++ leBytes 4 (lodeLat c))
      let y := d.2.bytesIf (x.state == .verified) (leBytes 4 (lodeYf c))
      let owner := if x.state = .empty then 0xFF else x.owner
      y.2.reply h 0
        ([byteOf (slotCode x.state), byteOf owner, x.mask] ++ a.1 ++ leBytes 4 c.length ++ b.1 ++ [0, 0] ++ d.1 ++ y.1 ++
          List.replicate 8 0 ++ (match x.report with | some r => refusedBytes r | none => []))))

/-- SIGN_POLICY (R349, R442). -/
def execSignPolicy (h : CmdHdr) (op arg : Byte) (key : List Byte) (s : State) : Host.Outcome State Fault Refusal :=
  .next (s.cmd h { opcode := 0x0103, ok := signOk op.toNat arg.toNat key.length, denied := notPf h } (fun t =>
    (t.onHub (fun x =>
      if op = 0 then { x with require := arg == 1 }
      else { x with keys := modAt x.keys arg.toNat (fun _ => if op = 1 then some key else none) })).reply h 0 []))

/-! ### Jobs (R330, R332, R442, R520) -/

/-- The checks of R520 from order 8 on, at the admission decision, and the admission. -/
def State.decideStart (t : State) (h : CmdHdr) (slot : Nat) (vec : Byte) (openEnd : Bool) (start e : U32)
    (bs : List Binding) (off : Option Nat) : State :=
  let c := t.lodeOf slot
  let alone := t.reserving.isEmpty
  let q := t.jobTimes c start alone
  if !openEnd && decide (frameDiff e q.2.1 ≤ 0) then t.malformedAt h off 0x0200 0x0206
  else match t.noFit t.reserving h.fn.val slot bs with
    | some x =>
      let fit := if x.cond = 6 then none else t.earliestFit h.fn.val slot bs
      let r := t.refusal x fit
      r.2.reply h 0x0320 r.1
    | none =>
      (t.takeJob h slot vec openEnd e bs q.1 q.2.1).reply h (if q.1 = start then 0x0000 else 0x0101)
        (leBytes 4 q.1.toNat ++ leBytes 4 q.2.1.toNat ++ time56Bytes q.2.2)

/-- JOB_START (R330, R442, R520). -/
def execJobStart (h : CmdHdr) (slot : Fin 16) (vec : Byte) (openEnd : Bool) (start e : U32) (bs : List Binding) (s : State) :
    Host.Outcome State Fault Refusal :=
  let off := s.offsetOf h 0x0200
  .next (if s.slotWaits h slot.val then s
    else s.cmd h { opcode := 0x0200, job := true, ok := startRange bs.length vec.toNat openEnd e } (fun t =>
      let x := t.slotOf slot.val
      if x.state ≠ .empty ∧ x.owner ≠ h.fn.val then t.reply h 0x0305 []
      else if x.state ≠ .verified then t.reply h 0x0311 []
      else if !openEnd ∧ e.toNat % Nat.max 1 (lodeK x.bytes) ≠ 0 then t.malformedAt h off 0x0200 0x0206
      else if (t.jobOf h.job).isSome then t.reply h 0x0304 []
      else if (maskGeodes x.mask).any (fun g => (t.geode g).faulted) then t.reply h 0x0501 []
      else t.decideStart h slot.val vec openEnd start e bs off))

/-- The job of a command, if its function owns it. -/
def State.ownJob (s : State) (h : CmdHdr) : Option Job := (s.jobOf h.job).filter (fun j => j.fn == h.fn.val)

/-- A job ends at beacon e (R332): its supervisors are told (R40), and a beacon period that waited for it may go (R28). -/
def State.stopJob (s : State) (j : Job) (e : U32) : State :=
  let r := e + BitVec.ofNat 32 j.k
  ((s.onJob j.id (fun x => { x with openEnd := false, last := e, releaseAt := some r, cause := 1 })).mailRelease j r).fixPeriod

/-- JOB_STOP (R332, R442): as if E were the first multiple of K at least two beacons on. -/
def execJobStop (h : CmdHdr) (s : State) : Host.Outcome State Fault Refusal :=
  .next (s.cmd h { opcode := 0x0201, job := true } (fun t =>
    match t.ownJob h with
    | none => t.reply h 0x0303 []
    | some j =>
      let e := toMultiple j.k (t.beaconNow + 2)
      let k := BitVec.ofNat 32 j.k
      match j.releaseAt with
      | some r =>
        if j.cause != 0 || atOrAfter (e + k) r then t.reply h 0x0102 (leBytes 4 (r - k).toNat ++ leBytes 4 r.toNat)
        else (t.stopJob j e).reply h 0 (leBytes 4 e.toNat ++ leBytes 4 (e + k).toNat)
      | none => (t.stopJob j e).reply h 0 (leBytes 4 e.toNat ++ leBytes 4 (e + k).toNat)))

/-- JOB_QUERY (R442, R443). -/
def execJobQuery (h : CmdHdr) (s : State) : Host.Outcome State Fault Refusal :=
  .next (s.cmd h { opcode := 0x0202, job := true } (fun t =>
    match t.ownJob h with
    | none => t.reply h 0x0303 []
    | some j =>
      let code := match j.state with | .admitted => 0 | .running => 1 | .draining => 2
      t.reply h 0
        ([byteOf code, byteOf j.slot, 0, 0] ++ leBytes 4 j.start.toNat ++ leBytes 4 j.first.toNat ++
          leBytes 4 (if j.openEnd then 0 else j.last.toNat) ++ leBytes 4 j.posted ++ leBytes 4 j.gapped ++ leBytes 4 j.late ++
          leBytes 2 j.gen.toNat ++ [(t.geode (j.geodes.headD 0)).variant, byteOf (b2n j.openEnd)])))

/-- SHARE_SET (R339, R442). -/
def execShareSet (h : CmdHdr) (f : Fin 8) (geodes : Byte) (posting staging : U32) (s : State) :
    Host.Outcome State Fault Refusal :=
  let ok := decide (geodes.toNat ≤ 8) && decide (posting.toNat ≤ admissible s.link) && decide (staging.toNat ≤ 224)
  .next (s.cmd h { opcode := 0x0203, ok := ok, denied := notPf h } (fun t =>
    let d := demandOf (ofFn t.reserving f.val)
    let below := decide (geodes.toNat < d.1) || decide (posting.toNat < d.2.1) || decide (staging.toNat < d.2.2)
    (t.onHub (fun x => { x with shares := modAt x.shares f.val (fun _ =>
      { geodes := geodes.toNat, posting := posting.toNat, staging := staging.toNat, whole := false }) })).reply h
      (if below then 0x0103 else 0) []))

/-- SHARE_GET (R339, R442): a VF its own alone. -/
def execShareGet (h : CmdHdr) (f : Fin 8) (s : State) : Host.Outcome State Fault Refusal :=
  .next (s.cmd h { opcode := 0x0204, denied := notPf h && h.fn != f } (fun t =>
    let x := t.share f.val
    let d := demandOf (ofFn t.reserving f.val)
    t.reply h 0 (leBytes 4 x.geodes ++ leBytes 4 x.posting ++ leBytes 4 x.staging ++ leBytes 4 d.1 ++ leBytes 4 d.2.1 ++
      leBytes 4 d.2.2)))

/-! ### Lanes and calibration (R444, R445) -/

/-- Module states in the order of R373. -/
def modNumber : ModState → Nat
  | .absent => 0
  | .reading => 1
  | .refused => 2
  | .waiting => 3
  | .training => 4
  | .live => 5
  | .eclipsed => 6
  | .retraining => 7

/-- POSITION_QUERY (R444). -/
def execPositionQuery (h : CmdHdr) (p : Fin 32) (s : State) : Host.Outcome State Fault Refusal :=
  .next (s.cmd h { opcode := 0x0300 } (fun t =>
    let x := t.pos p.val
    let job := match x.stream with | some st => st.job.toNat | none => 0
    t.reply h 0 ([byteOf (modNumber x.mod), x.reason] ++ leBytes 2 (lstatWord x).toNat ++ leBytes 2 job ++ [0, 0] ++
      (x.record ++ List.replicate 384 0).take 384)))

/-- LANE_CONFIG (R378, R444). -/
def execLaneConfig (h : CmdHdr) (q : Fin 8) (qctl : Word) (lcfg : List Word) (s : State) : Host.Outcome State Fault Refusal :=
  .next (s.cmd h { opcode := 0x0301, ok := lcfg.length == 4, denied := notPf h } (fun t =>
    if t.quadBound q.val && bitOf qctl 13 != (t.quad q.val).dlink then t.reply h 0x0308 []
    else
      ((List.range 4).foldl (fun u l => u.writeLcfg (4 * q.val + l) (lcfg.getD l 0)) (t.writeQctl q.val qctl)).reply h 0 []))

/-- MODULE_RESET (R444): the module is held in reset and its record is read again (log entry 74). -/
def execModuleReset (h : CmdHdr) (p : Fin 32) (s : State) : Host.Outcome State Fault Refusal :=
  let b := p.val
  .next (s.cmd h { opcode := 0x0302, denied := notPf h } (fun t =>
    if (t.pos b).mod = .absent ∨ (t.pos b).stream.isSome then t.reply h 0x0309 []
    else ((t.leave b).setMod b .reading).reply h 0 []))

/-- The 576 bytes of R445. Without a record only the source and the reserved bytes are stated; the rest is free. -/
def State.recordBytes (s : State) (b : Nat) : List Byte × State :=
  match (s.pos b).est with
  | none =>
    let r := s.freshBytes (4 + 16 + 2 + 32 + 512)
    ([0xFF, 0, 0, 0] ++ r.1.take 22 ++ List.replicate 6 0 ++ r.1.drop 22, r.2)
  | some e =>
    let code := match e.source with | .seed => 0 | .solved => 1 | .tracked => 2
    ([byteOf code, 0, 0, 0] ++ leBytes 4 e.d.toNat ++ timeBytes e.time ++ leBytes 2 e.temp.toNat ++ List.replicate 6 0 ++
      ((e.sresp ++ List.replicate 16 0).take 16).flatMap (fun (v : Word) => leBytes 2 (v.signExtend 16).toNat) ++
      ((e.hr ++ List.replicate 64 (0, 0)).take 64).flatMap (fun (v : DWord × DWord) => leBytes 4 v.1.toNat ++ leBytes 4 v.2.toNat), s)

/-- CAL_RECORD_READ (R444, R445): the PF, or a VF one of whose jobs binds the position. -/
def execCalRecordRead (h : CmdHdr) (p : Fin 32) (s : State) : Host.Outcome State Fault Refusal :=
  let own := match (s.pos p.val).stream with
    | some st => (match s.jobOf st.job with | some j => j.fn == h.fn.val | none => false)
    | none => false
  .next (s.cmd h { opcode := 0x0400, denied := notPf h && !own } (fun t =>
    let r := t.recordBytes p.val
    r.2.reply h 0 r.1))

/-- The eight bytes of a converter stream in CAL_STATUS (R444). -/
def State.calBytes (s : State) (j : Job) (b : Nat) : List Byte :=
  match (s.pos b).stream with
  | none => []
  | some st => leBytes 2 st.bidx ++ leBytes 2 (s.calPeek (b / 4) st 0).toNat ++ leBytes 2 st.avg ++ [byteOf j.swapU, 0]

/-- CAL_STATUS (R444): streams in the order of their bindings. -/
def execCalStatus (h : CmdHdr) (s : State) : Host.Outcome State Fault Refusal :=
  .next (s.cmd h { opcode := 0x0401, job := true } (fun t =>
    match t.ownJob h with
    | none => t.reply h 0x0303 []
    | some j =>
      let bs := t.boundAt j.id
      let sorted := (List.range j.bindings.length).flatMap (fun i =>
        bs.filter (fun b => match (t.pos b).stream with | some st => st.bidx == i | none => false))
      t.reply h 0 (leBytes 2 j.gen.toNat ++ [byteOf bs.length, 0] ++ sorted.flatMap (fun b => t.calBytes j b))))

/-- CAL_SOLVE (R414, R444): a solve is asked for. -/
def execCalSolve (h : CmdHdr) (p : Fin 32) (s : State) : Host.Outcome State Fault Refusal :=
  let b := p.val
  .next (s.cmd h { opcode := 0x0402, denied := notPf h } (fun t =>
    if (t.pos b).mod ≠ .live ∨ (t.pos b).stream.isSome ∨ !recInjCap (t.pos b).record then t.reply h 0x0309 []
    else (t.onPos b (fun x => { x with solveReq := true })).reply h 0 []))

/-! ### Time (R444, R504) -/

/-- TIME_GET (R444). -/
def execTimeGet (h : CmdHdr) (s : State) : Host.Outcome State Fault Refusal :=
  .next (s.cmd h { opcode := 0x0500 } (fun t =>
    t.reply h 0 (timeBytes t.aon.time ++ leBytes 4 t.beaconNow.toNat ++ [byteOf t.aon.source.toNat, byteOf (b2n t.aon.locked)] ++
      List.replicate 10 0)))

/-- TIME_SET (R11, R444): its T takes effect at TIME_SET_APPLY; a second one waits for the first (log entry 75). -/
def execTimeSet (h : CmdHdr) (atOnce : Bool) (source : BitVec 2) (n : U32) (sec frac : U64) (s : State) :
    Host.Outcome State Fault Refusal :=
  let time := BitVec.ofNat 122 (sec.toNat % 2 ^ 42 * 2 ^ 80 + frac.toNat / 2 ^ 8 * 2 ^ 24)
  .next (if s.aon.timeSet.isSome then s
    else s.cmd h { opcode := 0x0501, ok := source != 3, denied := notPf h } (fun t =>
      if !t.hub.jobs.isEmpty then t.reply h 0x0308 []
      else t.onAon (fun a =>
        { a with timeSet := some { hdr := h, atOnce := atOnce, armed := atOnce, source := source, n := n, t := time } })))

/-- The nominal rate word (R504): 10 ns in units of 2⁻⁸⁰ s, rounded to the nearest. -/
def nominalRate : Nat := 12089258196146292

/-- TIME_SET_APPLY (R27, R444): at the tick, device time becomes T and the origin beacon N falls; the reply holds the tick's
time in the scale before. -/
def execTimeSetApply (s : State) : Host.Outcome State Fault Refusal :=
  .next (match s.aon.timeSet with
    | none => s
    | some r =>
      if !r.armed then s
      else
        let before := s.aon.time + BitVec.ofNat 122 s.aon.rate
        let w := s.fresh
        let off := match s.aon.irigSec with
          | some d => BitVec.ofNat 42 (r.t.toNat / 2 ^ 80) - d
          | none => BitVec.ofNat 42 w.1
        (w.2.onAon (fun a =>
          { a with
            time := r.t, t0 := r.t, n0 := r.n, nextBeacon := r.n, source := r.source, timeSet := none, newPeriod := none
            rate := if r.source = 0 then nominalRate else a.rate
            irigOff := if r.source = 2 then off else a.irigOff
            locked := false, goodEdges := 0, outEdges := 0, lastEdge := none })).reply r.hdr 0 (timeBytes before))

/-! ### Memory (R444) -/

/-- A memory that MEM_READ and MEM_WRITE name. -/
def State.coreReach (s : State) (g c : Nat) : Bool :=
  let k := s.coreAt (9 * g + c)
  k.isHalted || k.stop.isSome || (s.geode g).spare == some c

/-- A word is read for MEM_READ: as stored, and whether it was uncorrectable (R271, R444). -/
def State.cmdRead (s : State) (space g c a : Nat) : State × Word × Bool :=
  match space with
  | 0 =>
    let bad := s.hub.mem.unc.contains a
    let r := s.hubReadBy true a
    (r.1, r.2, bad)
  | 1 =>
    let bad := (s.geode g).mem.unc.contains a
    let r := s.shmRead g a
    (r.1, r.2, bad)
  | _ => s.dmaCoreRead (Fin.ofNat 8 g) c a

/-- Words from an address on. -/
def State.cmdReadN (s : State) (space g c : Nat) : Nat → Nat → State × List Word × Bool
  | _, 0 => (s, [], false)
  | a, n + 1 =>
    let r := s.cmdRead space g c a
    let q := r.1.cmdReadN space g c (a + 1) n
    (q.1, r.2.1 :: q.2.1, r.2.2 || q.2.2)

/-- Units as words of a packing: double words hold the low word first (R104). -/
def wordsOfUnits (packing : Nat) (us : List Nat) : List Word :=
  if packing = 2 ∨ packing = 5 ∨ packing = 6 then us.flatMap (fun u => [BitVec.ofNat 14 u, BitVec.ofNat 14 (u / 2 ^ 14)])
  else us.map (fun u => BitVec.ofNat 14 u)

/-- MEM_READ (R444). -/
def execMemRead (h : CmdHdr) (space geode core packing : Byte) (addr units : U32) (s : State) :
    Host.Outcome State Fault Refusal :=
  let ok := memRangeOk space.toNat geode.toNat core.toNat packing.toNat addr.toNat units.toNat &&
    replyFits (s.fn h.fn.val) (packLen packing.toNat units.toNat)
  .next (s.cmd h { opcode := 0x0600, ok := ok, denied := notPf h } (fun t =>
    if space = 2 ∧ !t.coreReach geode.toNat core.toNat then t.reply h 0x0307 []
    else
      let r := t.cmdReadN space.toNat geode.toNat core.toNat addr.toNat (unitWords packing.toNat units.toNat)
      r.1.reply h (if r.2.2 then 0x0401 else 0) (pack packing.toNat (unitsOfWords packing.toNat r.2.1))))

/-- A word is written for MEM_WRITE. -/
def State.cmdWrite (s : State) (space g c a : Nat) (v : Word) : State :=
  match space with
  | 0 => s.hubWrite a v
  | 1 => s.shmWrite g a v
  | _ => s.onCoreAt (9 * g + c) (fun k => writeData k a v)

/-- What MEM_WRITE may reach (R444). -/
def State.writeReach (s : State) (space g c a n : Nat) : Bool :=
  match space with
  | 0 => decide (0x78000 ≤ a) && decide (a + n ≤ 0x7F000)
  | 1 => (s.jobOn g).isNone
  | _ => s.coreReach g c

/-- MEM_WRITE (R444). -/
def execMemWrite (h : CmdHdr) (space geode core packing : Byte) (addr units : U32) (bs : List Byte) (s : State) :
    Host.Outcome State Fault Refusal :=
  let p := packing.toNat
  let ok := memRangeOk space.toNat geode.toNat core.toNat p addr.toNat units.toNat && bs.length == packLen p units.toNat
  .next (s.cmd h { opcode := 0x0601, ok := ok, denied := notPf h } (fun t =>
    let n := unitWords p units.toNat
    if !t.writeReach space.toNat geode.toNat core.toNat addr.toNat n then t.reply h 0x0307 []
    else
      let ws := wordsOfUnits p ((unpack p bs).take units.toNat)
      ((ws.zip (List.range ws.length)).foldl (fun u q => u.cmdWrite space.toNat geode.toNat core.toNat (addr.toNat + q.2) q.1)
        t).reply h 0 []))

/-! ### Power, log, counters, firmware (R446) -/

/-- DUSK_ENTER (R446, R459, R460): beacon D, and each running job's suspension. -/
def execDuskEnter (h : CmdHdr) (s : State) : Host.Outcome State Fault Refusal :=
  .next (s.cmd h { opcode := 0x0700, denied := notPf h } (fun t =>
    if t.reserving.any (fun j => j.state == .admitted) || t.hub.slots.any (fun x => x.state == .loading) then t.reply h 0x0308 []
    else
      let d := t.beaconNow + 2
      let t1 := (t.reply h 0 []).log { kind := 0x02, fn := byteOf h.fn.val, a := d }
      (t1.onHub (fun x =>
        { x with
          duskAt := some d
          jobs := x.jobs.map (fun j => if j.state = .running then { j with suspendAt := some (toMultiple j.k d) } else j) })).setDev
        .leaving))

/-- The job's last records before Dusk are posted (R460). -/
def quietJob (n : U32) (j : Job) : Bool :=
  match j.suspendAt with
  | some d => atOrAfter n (d + BitVec.ofNat 32 j.k) && j.frames.isEmpty && j.gaps.isEmpty && j.inputGaps.isEmpty && j.lateDue.isEmpty &&
      j.post.isNone
  | none => jobOver j

/-- A module for Dusk (R382, R391, R460): INJECT off, IDLE, MRST_N asserted, WAITING. -/
def State.duskModule (s : State) (b : Nat) : State :=
  let s1 := if (s.pos b).solving.isSome then s.stopSolve b else s
  let s2 := if (s1.pos b).inject then s1.sendInject b false else s1
  let s3 := if (s2.pos b).mod == .live then s2.sendCtl b 2 0 else s2
  let s4 := s3.emit (.mrst b true)
  let s5 := (s4.span b).foldl (fun t p =>
    t.onPos p (fun x => { x with framed := false, runAck := false, rate := 3, seqNext := none, badRun := 0 })) s4
  (s5.setMod b .waiting).onPos b (fun x => { x with mrst := true, ctl := none, ctlQ := [], tries := 0 })

/-- DUSK_QUIESCE (R382, R417, R460 steps 4 to 6): modules idle, averages empty, islands off, Dusk. -/
def execDuskQuiesce (s : State) : Host.Outcome State Fault Refusal :=
  let n := s.beaconNow
  .next (match s.hub.duskAt with
    | none => s
    | some d =>
      if !s.hubUp || s.aon.devstate != .leaving || !atOrAfter n d || !s.hub.jobs.all (quietJob n) then s
      else
        let s1 := (List.range 32).foldl (fun t b =>
          let t1 := if modIn (t.pos b) then t.duskModule b else t
          t1.onStream b (fun x => { x with avg := 0, fill := 0 })) s
        let s2 := { s1 with cores := s1.cores.map (fun (c : Core) => { c with vpow := false, vwaking := false }) }
        ((s2.onHub (fun x => { x with duskAt := none, window := none, windowQ := [] })).onAon
          (fun a => { a with islandsOff := true })).setDev .dusk)

/-- POWER_STATUS (R446): VIN and input power are measured; they are free. -/
def execPowerStatus (h : CmdHdr) (s : State) : Host.Outcome State Fault Refusal :=
  .next (s.cmd h { opcode := 0x0701 } (fun t =>
    let v := t.freshBytes 2
    let p := v.2.freshBytes 4
    p.2.reply h 0 (v.1 ++ leBytes 2 t.aon.tj.toNat ++ p.1 ++ List.replicate 8 0)))

/-- The 48 bytes of a log entry (R470). -/
def logBytes (e : LogEntry) : List Byte :=
  leBytes 4 e.seq.toNat ++ leBytes 2 e.kind.toNat ++ [byteOf (logClass e.kind.toNat), e.fn] ++ leBytes 2 e.job.toNat ++
    [e.geode, e.unit] ++ leBytes 2 e.count ++ [0, 0] ++ leBytes 4 e.beacon.toNat ++ leBytes 4 e.a.toNat ++ leBytes 4 e.b.toNat ++
    [0, 0, 0, 0] ++ timeBytes e.time

/-- Readable entries from a sequence number on (R470); from the oldest where that is older. -/
def State.logFrom (s : State) (first : U32) : List LogEntry := s.hub.log.filter (fun e => e.readable && atOrAfter e.seq first)

/-- LOG_READ (R446, R470): a VF sees entries whose FN is its own. The oldest number of an empty log is free. -/
def execLogRead (h : CmdHdr) (first : U32) (max : U16) (s : State) : Host.Outcome State Fault Refusal :=
  let mine := (s.logFrom first).filter (fun e => !notPf h || e.fn == byteOf h.fn.val)
  let es := mine.take max.toNat
  let ok := decide (1 ≤ max.toNat) && decide (max.toNat ≤ 4096) && replyFits (s.fn h.fn.val) (8 + 48 * es.length)
  .next (s.cmd h { opcode := 0x0800, ok := ok, exempt := true } (fun t =>
    let o := match t.hub.log.head? with
      | some e => (leBytes 4 e.seq.toNat, t)
      | none => t.freshBytes 4
    o.2.reply h 0 (o.1 ++ leBytes 2 es.length ++ [0, 0] ++ es.flatMap logBytes)))

/-- Live counters of a block (R475). -/
def State.liveBlock (s : State) (b : Nat) : List Nat :=
  if b = 0 then s.beaconNow.toNat :: s.hubCounters
  else if b = 1 then [(s.aon.lastBeacon.getD 0).toNat, s.aon.ppsEdges.toNat, s.aon.irigErr]
  else s.fabricCounters (b - 2) ++ (List.range 9).flatMap (fun c => coreCounters (s.coreAt (9 * (b - 2) + c)))

/-- The snapshot of a block with its beacon number (R46, R48, R474): counters not yet captured are free. -/
def State.snapBlock (s : State) (b : Nat) : List Byte × State :=
  let snap := if b = 0 then s.hub.snap else if b = 1 then s.aon.snap else (s.geode (b - 2)).snap
  let parts := if b < 2 then [] else (List.range 9).map (fun c => (s.coreAt (9 * (b - 2) + c)).snap)
  let bytes := fun (l : List Nat) => l.flatMap (fun v => leBytes 8 v)
  match snap with
  | none => s.freshBytes (4 + 8 * (s.liveBlock b).length)
  | some (n, l) =>
    let head := leBytes 4 n.toNat ++ (if b < 2 then leBytes 8 n.toNat else []) ++ bytes l
    parts.foldl (fun acc p =>
      if p.length = 7 then (acc.1 ++ bytes p, acc.2)
      else
        let r := acc.2.freshBytes 56
        (acc.1 ++ r.1, r.2)) (head, s)

/-- COUNTER_READ (R446, R474, R475): the beacon number of a live reply is free. -/
def execCounterRead (h : CmdHdr) (block : Fin 10) (live : Bool) (s : State) : Host.Outcome State Fault Refusal :=
  .next (s.cmd h { opcode := 0x0801, denied := notPf h } (fun t =>
    if live then
      let r := t.freshBytes 4
      r.2.reply h 0 (r.1 ++ (t.liveBlock block.val).flatMap (fun v => leBytes 8 v))
    else
      let r := t.snapBlock block.val
      r.2.reply h 0 r.1))

/-- FW_INFO (R446). -/
def execFwInfo (h : CmdHdr) (s : State) : Host.Outcome State Fault Refusal :=
  .next (s.cmd h { opcode := 0x0F00 } (fun t =>
    t.reply h 0 (leBytes 4 Config.romVersion.toNat ++ leBytes 4 t.hub.patch.version.toNat ++ [byteOf t.hub.patch.state] ++
      List.replicate 7 0)))

/-- FW_CHUNK (R446): in sequence as LODE_CHUNK; a failed check leaves no loaded patch (log entry 76). -/
def execFwChunk (h : CmdHdr) (first last : Bool) (off len : U32) (bs : List Byte) (s : State) :
    Host.Outcome State Fault Refusal :=
  .next (s.cmd h { opcode := 0x0F01, ok := first || len == 0, denied := notPf h } (fun t =>
    let p := t.hub.patch
    let total := if first then len.toNat else p.len
    let have_ := if first then 0 else p.bytes.length
    let ends := off.toNat + bs.length
    if (!first ∧ !p.loading) ∨ off.toNat ≠ have_ ∨ total < ends ∨ (last ∧ ends ≠ total) then t.reply h 0x0306 []
    else
      let image := if first then bs else p.bytes ++ bs
      if !last then
        (t.onHub (fun x => { x with patch := { p with bytes := image, len := total, loading := true } })).reply h 0 []
      else if Config.patchCheck image then
        (t.onHub (fun x =>
          { x with patch := { state := 1, version := Config.patchVersion image, bytes := image, len := total } })).reply h 0 []
      else
        (t.onHub (fun x =>
          { x with patch := { p with bytes := [], len := 0, loading := false, state := if p.state = 2 then 2 else 0 } })).reply h
          0x0404 []))

/-! ### Hub reset (R456, R458) -/

/-- A job as a hub reset leaves it in the job table (R458). -/
def resetJob (r : U32) (j : Job) : Job :=
  { setRelease j r with
    cause := 3, discard := true, frames := [], gaps := [], inputGaps := [], lateDue := [], post := none, marks := [] }

/-- HUB_RESET begins (R311, R456, R458): for FW_ACTIVATE, or for the bench monitor. A reset within a larger one changes
nothing (R457). -/
def State.beginHubReset (s : State) (fw : Bool) : State :=
  if s.aon.inReset || s.hub.resetting || s.aon.islandsOff then s
  else
    let gone := (List.range 8).flatMap (fun f => (s.fn f).fetched.map (fun c => c.hdr)) ++ s.hub.slots.filterMap (fun x => x.waiting) ++
      s.aon.timeSet.toList.map (fun t => t.hdr)
    let s1 := (List.range 16).foldl (fun t n => t.emptySlot n) s
    let s2 := { s1 with fns := s1.fns.map (fun (x : Fn) => { x with fetched := [], malformed := 0 }) }
    let s3 := (s2.onAon (fun a => { a with timeSet := none })).onCoreAt 80 (fun _ => Core.hubReset)
    (s3.onHub (fun h =>
      { h with
        mem := {}, chans := List.replicate 32 {}, lastCh := [31, 31, 31, 31], resetting := true, fwActivate := fw
        abandoned := h.abandoned ++ gone, rrFn := 0, mail := [], jobs := h.jobs.map (resetJob (s.beaconNow + 1))
        pcieCorr := 0, eccCorr := 0, eccUnc := 0, uartEarly := 0, dmaBeats := 0, snap := none, scrub := 0, postTurn := 0 })).fixPeriod

/-- FW_ACTIVATE (R446, R450): the reply is posted before the hub reset. -/
def execFwActivate (h : CmdHdr) (s : State) : Host.Outcome State Fault Refusal :=
  .next (s.cmd h { opcode := 0x0F02, denied := notPf h } (fun t =>
    if !t.hub.jobs.isEmpty then t.reply h 0x0308 []
    else if t.hub.patch.state ≠ 1 then t.reply h 0x0309 []
    else ((t.reply h 0 []).setDev .leaving).beginHubReset true))

end Sys2Proof.Machine
end

