-- ==== Sys2Proof/Machine/HostLink.lean ====
section
/-! DEFINITION. The host-link domain (chapter 13): BAR0 and its doorbells (R425–R428), function resets and power states
(R422, R423, R448, R449), the wake from Dusk (R461), link events (R421, R422, R430) and configuration requests
(R419, R420, R454). -/

namespace Sys2Proof.Machine
open Sys2Proof

/-- REGISTER_WRITE (R12, R15, R16, R261, R378, R425, R426): BAR0, or a fabric register block. -/
def execRegisterWrite (p : RegPlace) (s : State) : Host.Outcome State Fault Refusal :=
  .next (match p with
    | .bar0 f off bytes poisoned v => s.barAccess f.val off.toNat bytes poisoned v
    | .fabric g off v => s.fabricWrite g.val off.toNat v)

/-- CRTAIL_DOORBELL (R428, R433, R454). -/
def execCrtailDoorbell (f : Fin 8) (v : U32) (s : State) : Host.Outcome State Fault Refusal :=
  .next (if s.fnOn f.val then s.writeCrtail f.val v.toNat else s.emit (.unsupported f.val))

/-- RRHEAD_DOORBELL (R428, R436). -/
def execRrheadDoorbell (f : Fin 8) (v : U32) (s : State) : Host.Outcome State Fault Refusal :=
  .next (if s.fnOn f.val then s.writeRrhead f.val v.toNat else s.emit (.unsupported f.val))

/-- CREN (R428, R433). -/
def execCren (f : Fin 8) (on : Bool) (s : State) : Host.Outcome State Fault Refusal :=
  .next (if s.fnOn f.val then s.setCren f.val on else s.emit (.unsupported f.val))

/-- RREN (R428, R434). -/
def execRren (f : Fin 8) (on : Bool) (s : State) : Host.Outcome State Fault Refusal :=
  .next (if s.fnOn f.val then s.setRren f.val on else s.emit (.unsupported f.val))

/-! ### The wake (R449, R461, R462, R417) -/

/-- WAKE (R426, R461): DEVCTL.WAKE is written as 1. -/
def execWake (s : State) : Host.Outcome State Fault Refusal := .next s.startWake

/-- What a Function Level Reset in Dusk left to the hub (R449): the rest of step 2, and step 3. -/
def State.wakeFlr (s : State) (f : Nat) : State :=
  if !(s.fn f).flr then s
  else
    let s1 := ((s.stopChannels f).dropLoading f).dropJobs f
    (ofFn s1.hub.jobs f).foldl (fun t j => j.geodes.foldl (fun u g => u.releaseGeode j g) t) s1

/-- A takeover that Dusk has cut off (R462): the spare has the role's image again, and takes the slot as frames resume. -/
def State.wakeSpare (s : State) (j : Job) (g : Nat) : State :=
  match (s.geode g).eclipse, (s.geode g).spare with
  | some e, some sp =>
    (s.installRole (s.lodeOf j.slot) g (lodeGeode j g) e.slot sp).onGeode g (fun x =>
      { x with eclipse := some { e with copied := true, takeover := j.resumeAt } })
  | _, _ => s

/-- Steps 4 and 5 of R331 again for a running job's geode (R461 step 5): static pages stay, dynamic ones go back. -/
def State.wakeGeode (s : State) (j : Job) (g : Nat) : State :=
  let s1 := ((List.range 9).foldl (fun t k => t.coreReset g k) s).settleCores g
  let s2 := s1.onGeode g (fun x =>
    zeroAll { x with zeroing := x.zeroing.filter (fun k => !x.statics.contains k && x.ctlPage != some k) })
  (s2.loadLode j g).wakeSpare j g

/-- A stream's blocks go on at the resume frame: the block that lies there takes the frame's time until the first one that
arrives gives its own (log entry 150). -/
def resumed (a : Aon) (j : Job) (lanes : Nat) (st : Stream) : Stream :=
  let t0 := if st.anchor.isSome then sampleTime st 0 0 else beaconTime a j.first
  let at_ := beaconTime a (j.resumeAt.getD j.first)
  let j0 := ((at_ - t0) * streamRate st / (360 * 2 ^ 56)).toNat
  { st with anchor := some (j0, at_, 0), nextJ := nextBlocks lanes st.lane0 j0, early := [], last := List.replicate 4 none
            lateTo := j0, base := j0, known := [], gap := none }

/-- A stream after the wake (R382, R417, R459): its calibration is stale until its next swap, its lane is handled as
eclipsed, and its blocks go on at the resume frame. -/
def State.wakeStream (s : State) (b : Nat) : State :=
  match (s.pos b).stream with
  | none => s
  | some st =>
    match s.jobOf st.job with
    | none => s
    | some j =>
      let s1 := s.onPos b (fun p =>
        { p with
          inject := injects st
          stream := some { resumed s.aon j (streamN st) st with stale := st.stale || injects st } })
      s1.wantLaneVariant (b / 4) (b % 4) st.job

/-- The logical channels of a device link after the wake. -/
def State.wakeLink (s : State) (q : Nat) : State :=
  s.onQuad q (fun y =>
    { y with streams := y.streams.map (fun m => m.map (fun st => match s.jobOf st.job with
        | some j => resumed s.aon j 1 st
        | none => st))
             rxSeq := y.rxSeq.map (fun _ => none) })

/-- The first swap beacon after the wake (R51, R403): as many spacings of U × K after the swap that Dusk has passed over as
bring it to the resume beacon (log entry 154). -/
def wakeSwap (j : Job) (r : U32) : Option U32 :=
  j.nextSwap.map (fun b =>
    let step := Nat.max 1 (j.swapU * j.k)
    if atOrAfter b r then b else b + BitVec.ofNat 32 (((r - b).toNat + step - 1) / step * step))

/-- A running job at the wake (R461 step 7, R462). -/
def wakeJob (a : Aon) (n : U32) (j : Job) : Job :=
  match j.suspendAt with
  | none => j
  | some d =>
    let r := toMultiple j.k (firstBeaconAt a n (now56 a))
    let ended := !j.openEnd && atOrAfter j.last d && !atOrAfter j.last r
    { j with resumeAt := some r, releaseAt := if ended then some r else j.releaseAt, nextSwap := wakeSwap j (laterOf r (n + 2)) }

/-- WAKE_COMPLETE (R417, R449, R461): 4.0 ms after the write. DUSK_EXIT names the first resume beacon; with no job it is
free. -/
def execWakeComplete (s : State) : Host.Outcome State Fault Refusal :=
  .next (if s.aon.devstate != .waking then s
    else
      let n := (s.aon.lastBeacon.getD 0) + 1
      let s1 := (s.onAon (fun a => { a with islandsOff := false })).onHub (fun h =>
        { h with beacon := s.aon.lastBeacon, jobs := h.jobs.map (wakeJob s.aon n) })
      let s2 := ((List.range 8).foldl (fun t f => t.wakeFlr f) s1).flrSlots
      let js := s2.hub.jobs.filter (fun j => j.suspendAt.isSome && !j.discard)
      let tell := fun (t : State) (j : Job) => match j.nextSwap with | some b => t.mailSwap j b | none => t
      let s3 := js.foldl (fun t j => j.geodes.foldl (fun u g => u.wakeGeode j g) (tell t j)) s2
      let s4 := (List.range 8).foldl (fun t q => t.wakeLink q) ((List.range 32).foldl (fun t b => t.wakeStream b) s3)
      let s5 := (List.range 8).foldl (fun t q => t.wantWindow q) s4
      let rs := js.foldl (fun l j => match j.resumeAt with | some r => insBeacon l r | none => l) []
      let a := match rs with
        | r :: _ => (r, s5)
        | [] => let w := s5.fresh; (u32 w.1, w.2)
      (a.2.setDev .ready).log { kind := 0x03, a := a.1 })

/-! ### Function resets and power states (R422, R423, R448, R449) -/

/-- FUNCTION_LEVEL_RESET (R448, R449). -/
def execFunctionLevelReset (f : Fin 8) (s : State) : Host.Outcome State Fault Refusal := .next (s.flr f.val)

/-- VF_DISABLE (R449): an FLR of every VF at once. -/
def execVfDisable (s : State) : Host.Outcome State Fault Refusal := .next s.disableVfs

/-- D3HOT_ENTRY (R423): fetch, record writes and messages of the function stop. -/
def execD3hotEntry (f : Fin 8) (s : State) : Host.Outcome State Fault Refusal :=
  .next (s.onFn f.val (fun x => { x with d3 := true }))

/-- D3HOT_TO_D0 (R423): an FLR of the function. -/
def execD3hotToD0 (f : Fin 8) (s : State) : Host.Outcome State Fault Refusal :=
  .next (if (s.fn f.val).d3 then s.flr f.val else s)

/-- A host beat of the channel is due: its next beat reads or writes host memory (R306). -/
def hostBeatDue (l : Link) (c : Chan) : Bool :=
  match nextBeat l .host c, c.instr with
  | some .hostRead, _ => true
  | some .data, some i | some .drain, some i => (dstSide .host (beginMove .host c i) (mvOf i)).sp == DmaSpace.host
  | _, _ => false

/-- A host channel whose host beat is outstanding or due fails with cause 6 when the link goes down (R306): its TARGET record
is appended at once where its queue has room and lies in hub memory, and the channel stops (log entry 146). -/
def State.linkFailed (s : State) (n : Nat) : State :=
  let c := s.chan .host n
  let at_ := match c.reads with
    | r :: _ => some r.beat
    | [] => if c.owes.isNone && hostBeatDue s.link c then some (failAt (atBeat .host c)).1 else none
  match at_ with
  | none => s
  | some k =>
    let s1 := (s.chanStep .host n (atBeat .host)).targetError .host n 6 k
    let d := s1.chan .host n
    let s2 := match d.owes with
      | some r => if d.cqloc || queueFull d then s1 else (s1.served .host n).appendRec .host n r
      | none => s1
    s2.chanStepU .host n [.state] (fun x => { x with state := .stopped, owes := none, instr := none, move := none, stopDue := false })
def State.linkFailure (s : State) : State := (List.range 32).foldl (fun t n => t.linkFailed n) s

/-- The link goes down (R422): FLR of every function with VF disable. -/
def State.linkGone (s : State) : State :=
  (((s.hubLine 49).linkFailure.flr 0).log { kind := 0x16 }).onLink (fun l => { l with gen := 0, width := 0, credits := 0, npCredits := 0 })

/-- LINK_DOWN (R306, R422): a Data Link Layer down event, Hot Reset or Secondary Bus Reset. -/
def execLinkDown (s : State) : Host.Outcome State Fault Refusal := .next s.linkGone

/-- LINK_RETRAIN (R421): the trained speed and width; the first training of a start is not logged. -/
def execLinkRetrain (gen width : Nat) (s : State) : Host.Outcome State Fault Refusal :=
  let ok := decide (1 ≤ gen) && decide (gen ≤ 5) && (width == 1 || width == 2 || width == 4)
  .next (if !ok || s.aon.inReset then s
    else
      let s1 := (s.hubLine 49).onLink (fun l => { l with gen := gen, width := width })
      if s.aon.devstate = .starting then s1 else s1.log { kind := 0x15, a := u32 gen, b := u32 width })

/-- PCIE_ERROR (R430): the AER uncorrectable status of an Unexpected Completion is its bit of the PCI Express
specification (log entry 77). -/
def execPcieError (e : PcieErr) (s : State) : Host.Outcome State Fault Refusal :=
  .next (match e with
    | .correctable st => ((s.hubLine 49).onHub (fun h => { h with pcieCorr := ctrAdd 16 h.pcieCorr 1 })).log { kind := 0x13, a := st }
    | .deviceRead (some ch) _ cause =>
      match oldestRead (s.chan .host ch.val) with
      | some k => s.readBack ch.val k (.failed cause)
      | none => s
    | .deviceRead none f cause => if s.mayFetch f.val then s.fetchFailed f.val cause else s
    | .unexpectedCompletion => (s.hubLine 49).log { kind := 0x14, a := 0x10000 }
    | .fatal st => (s.log { kind := 0x14, a := st }).linkGone
    | .refusedRequest => s)

/-- FLOW_CONTROL_CREDIT_UPDATE (R54, R296): posted credits granted, in bytes, and read requests that the non-posted credits
allow. -/
def execFlowControlCreditUpdate (g : CreditGrant) (s : State) : Host.Outcome State Fault Refusal :=
  .next (s.onLink (fun l => { l with credits := l.credits + g.posted, npCredits := l.npCredits + g.requests }))

/-! ### Configuration requests (R419, R420, R449, R452, R454) -/

/-- A configuration word: the identity words of R419 with Glevon's Vendor ID free, a word as last written, else free. -/
def State.cfgRead (s : State) (f off : Nat) : U32 × State :=
  let w := s.fresh
  let v := w.1 % 2 ^ 32
  if off / 4 = 0 then (u32 ((if f = 0 then 0x3214 else 0x3215) * 2 ^ 16 + v % 2 ^ 16), w.2)
  else if off / 4 = 2 then (u32 (0x118000 * 2 ^ 8 + v % 2 ^ 8), w.2)
  else match s.link.cfg.find? (fun e => e.1 == f * 1024 + off / 4) with
    | some e => (e.2, s)
    | none => (u32 v, w.2)

/-- VF Enable is written with a number of VFs (R419, R449). -/
def State.enableVfs (s : State) (n : Nat) : State :=
  if n = 0 then s.disableVfs else s.onLink (fun l => { l with vfs := n })

/-- CONFIGURATION_REQUEST: completed with CRS before step 8 of R452; a request to a VF that is not enabled is an
Unsupported Request (R449). Field values that R419 excludes leave their field as it is; a request
that names its field alone completes without an offset (log entry 78). -/
def execConfigurationRequest (r : CfgReq) (s : State) : Host.Outcome State Fault Refusal :=
  .next (if s.aon.inReset then s
    else match r with
      | .read f off =>
        if !s.link.cfgReady then s.emit (.cfgCompletion f.val off.toNat true 0)
        else if !s.fnOn f.val then s.emit (.unsupported f.val)
        else
          let q := s.cfgRead f.val off.toNat
          q.2.emit (.cfgCompletion f.val off.toNat false q.1)
      | .deviceControl mps mrrs relaxed =>
        if !s.link.cfgReady then s.emit (.cfgCompletion 0 0 true 0)
        else s.onLink (fun l =>
          { l with mps := if mps.toNat ≤ 2 then mps else l.mps, mrrs := if mrrs.toNat ≤ 5 then mrrs else l.mrrs
                   relaxed := relaxed })
      | .deviceControl2 t => if !s.link.cfgReady then s.emit (.cfgCompletion 0 0 true 0) else s.onLink (fun l => { l with timeout := t })
      | .vfEnable n => if !s.link.cfgReady then s.emit (.cfgCompletion 0 0 true 0) else s.enableVfs n.val
      | .other f off v =>
        if !s.link.cfgReady then s.emit (.cfgCompletion f.val off.toNat true 0)
        else if !s.fnOn f.val then s.emit (.unsupported f.val)
        else s.onLink (fun l =>
          let k := f.val * 1024 + off.toNat / 4
          { l with cfg := l.cfg.filter (fun e => e.1 != k) ++ [(k, v)] }))

end Sys2Proof.Machine
end

