-- ==== Sys2Proof/Machine/Resets.lean ====
section
/-! DEFINITION. Start-up, resets, temperature and faults (chapter 14). -/

namespace Sys2Proof.Machine
open Sys2Proof

/-! ### Power-up and device resets (R451, R454, R456, R457, R463, R470) -/

/-- A power-up reset (R456): nothing is kept but the model's own fields, and that a thermal trip holds the release
(R463). -/
def State.powerUp (s : State) : State :=
  { State.reset with
    out := s.out, free := s.free, pending := s.pending
    aon := { ({} : Aon) with tripHold := s.aon.tripHold, thermtrip := s.aon.thermtrip } }

/-- A device reset (R456): device time with its source and lock, FAULTREC, the error log and the always-on counters stay. A
power-up reset under way is the larger one (R457). The JTAG port lies in none of the blocks that R456 names; that it keeps
its instruction, bypass bit and boundary register is the model's choice (log entry 85). -/
def State.deviceReset (s : State) (kind : Nat) : State :=
  if s.aon.inReset && s.aon.startKind == 1 then s
  else
    { State.reset with
      out := s.out, free := s.free, pending := s.pending, jtag := s.jtag
      hub := { ({} : Hub) with log := s.hub.log, logSeq := s.hub.logSeq }
      aon := { s.aon with
        inReset := true, startKind := if s.aon.inReset then Nat.max kind s.aon.startKind else kind, devstate := .starting
        n0 := 0, f := 65536, fs := 7200000000, nextBeacon := 0, newPeriod := none, lastBeacon := none, timeSet := none
        fuseW := [], fuseLoaded := false, islandsOff := false, tj := 0, talarm := false, ppsOut := none, ppsHigh := false, stage := 0 } }

/-- POWER_UP_RESET (R456): VAON or VIO below its threshold. -/
def execPowerUpReset (s : State) : Host.Outcome State Fault Refusal := .next s.powerUp

/-- PERST_ASSERTED (R422, R456): a device reset. -/
def execPerstAsserted (s : State) : Host.Outcome State Fault Refusal := .next (s.deviceReset 2)

/-- VIN_BROWN_OUT (R456, R469, R493): a device reset, recorded as cause 0x04 unless a cause already stands. -/
def execVinBrownOut (s : State) : Host.Outcome State Fault Refusal :=
  .next ((s.deviceReset 3).onAon (fun a =>
    if a.startKind = 1 || bitOf a.faultrec 13 then a else { a with faultrec := 0x2004 }))

/-- RESET_RELEASE (R27, R451, R452 step 1, R463, R511): T0; beacon 0 is the origin. Held after a trip until TJ falls below
140 °C. -/
def execResetRelease (s : State) : Host.Outcome State Fault Refusal :=
  .next (if !s.aon.inReset || s.aon.tripHold then s
    else
      let s1 := s.onAon (fun a =>
        { a with inReset := false, started := a.time, t0 := a.time, n0 := 0, nextBeacon := 0, thermtrip := false })
      if s.aon.thermtrip then s1.emit (.thermtrip false) else s1)

/-- Pages 1 to 511 of a geode (R261, R267): all zeroed. -/
def allPages : List Nat := (List.range 511).map (fun k => k + 1)

/-- GEODE_SELF_TEST_COMPLETE (R452 step 5, R455). -/
def execGeodeSelfTestComplete (g : Fin 8) (pass : Bool) (s : State) : Host.Outcome State Fault Refusal :=
  .next (if s.aon.inReset || s.aon.devstate != .starting || (s.geode g.val).faulted then s
    else if pass then s.onGeode g.val (fun x => { x with pool := if x.pool.isEmpty then allPages else x.pool })
    else (s.onGeode g.val (fun x => { x with faulted := true })).log { kind := 0x0C, geode := byteOf g.val, a := 0 })

/-! ### READY (R28, R389, R450, R452 step 12, R453, R469) -/

/-- A linear map of the stimulus register, by the images of its 23 bits; applied, and squared. -/
def mapApply (m : List (BitVec 23)) (v : BitVec 23) : BitVec 23 :=
  ((List.range 23).zip m).foldl (fun acc p => if bitOf v p.1 then acc ^^^ p.2 else acc) 0
def mapSquare (m : List (BitVec 23)) : List (BitVec 23) := m.map (mapApply m)
def mapPower2 : Nat → List (BitVec 23) → List (BitVec 23)
  | 0, m => m
  | n + 1, m => mapPower2 n (mapSquare m)

/-- 262,144 steps of the stimulus generator. -/
def jumpMap : List (BitVec 23) := mapPower2 18 ((List.range 23).map (fun i => lfsrStep (1#23 <<< i)))

/-- The generators of positions from phase on, 262,144 apart (R389). -/
def phasesFrom : List Pos → BitVec 23 → Nat → List Pos
  | [], _, _ => []
  | p :: ps, v, n => { p with lfsr := v, phase := BitVec.ofNat 23 (n % 8388607) } :: phasesFrom ps (mapApply jumpMap v) (n + 262144)

/-- The kind and A under which a FAULTREC cause is logged (R469). -/
def causeEntry : Nat → Option (Nat × Nat)
  | 1 => some (0x06, 0)
  | 2 => some (0x05, 0)
  | 3 => some (0x07, 1)
  | 4 => some (0x01, 3)
  | _ => none

/-- The start's log entries (R469): a valid FAULTREC, then DEVICE_START. -/
def State.startLog (s : State) : State :=
  let cause := s.aon.faultrec.toNat % 256
  let valid := bitOf s.aon.faultrec 13
  let s1 := match valid, causeEntry cause with
    | true, some (k, a) => s.log { kind := k, a := u32 a }
    | _, _ => s
  let s2 := s1.onAon (fun a => { a with faultrec := a.faultrec &&& 0x1FFF })
  if valid && cause == 4 then s2 else s2.log { kind := 0x01, a := if s.aon.startKind = 1 then 1 else 2 }

/-- READY: the first beacon at or after 400 ms. -/
def execReady (s : State) : Host.Outcome State Fault Refusal :=
  let due := match s.aon.lastBeacon with
    | some n => decide ((now56 { s.aon with time := s.aon.started } : Int) + (2 ^ 56 * 4 / 10 : Nat) ≤ beaconTime s.aon n)
    | none => false
  .next (if s.aon.inReset || s.aon.devstate != .starting || !due then s
    else
      let s1 := { s with poss := phasesFrom s.poss 0x7FFFFF 0 }
      (s1.setDev .ready).startLog)

/-! ### Hub and geode resets (R456, R458, R466) -/

/-- HUB_RESET (R456, R458). -/
def execHubReset (s : State) : Host.Outcome State Fault Refusal := .next (s.beginHubReset false)

/-- A job's record after a hub reset (R458 step 5). -/
def State.resetRecord (s : State) (j : Job) : State :=
  let e := s.endedBytes j
  e.2.record j.fn j.vec 0xF3 j.id e.1

/-- HUB_RESET_COMPLETE (R458, R469): READY again, with the account of commands and jobs, once every geode is released. -/
def execHubResetComplete (s : State) : Host.Outcome State Fault Refusal :=
  .next (if !s.hub.resetting || !s.reserving.isEmpty then s
    else
      let s1 := (s.onHub (fun h =>
        { h with resetting := false, fwActivate := false, abandoned := [], jobs := []
                 patch := if h.fwActivate then { h.patch with state := 2 } else h.patch })).onCoreAt 80
        (fun c => { c with halted := false })
      let s2 := s1.log { kind := 0x01, a := 4 }
      let s3 := s.hub.abandoned.foldl (fun t h => t.reply h 0x0502 []) s2
      let s4 := s.hub.jobs.foldl (fun t j => t.resetRecord j) s3
      if s.hub.fwActivate then s4.setDev .ready else s4)

/-- Jobs that hold a geode are released on all their geodes at the next beacon (R466), and their supervisors are told
(R40). -/
def State.dropGeodeJobs (s : State) (g : Nat) : State :=
  let r := s.nextBeaconNo
  let holds := fun (j : Job) => j.geodes.contains g && !j.done.contains g
  let s1 := s.onHub (fun h => { h with jobs := h.jobs.map (fun j =>
    if holds j then { setRelease j r with cause := if j.cause = 3 then 3 else 2 } else j) })
  ((s.hub.jobs.filter holds).foldl (fun t j => t.mailRelease j r) s1).fixPeriod

/-- Slots resident on a geode become EMPTY (R466). -/
def State.dropGeodeSlots (s : State) (g : Nat) : State :=
  (List.range 16).foldl (fun t n =>
    if (t.slotOf n).pages.any (fun p => p.1 == g) then t.emptySlot n else t) s

/-- A geode after its reset (R255, R281, R311, R456): retired cores stay out of the roles. -/
def resetGeode (x : Geode) : Geode :=
  let good := (List.range 9).filter (fun c => !x.retired.contains c && !x.eclipsed.contains c)
  let all := good ++ (List.range 9).filter (fun c => !good.contains c)
  { Geode.reset with
    role := all.take 8, spare := good[8]?, eclipsed := x.eclipsed, retired := x.retired, lastEclipse := x.lastEclipse
    beacons := x.beacons, beacon := x.beacon, faulted := x.faulted, lastHalt := x.lastHalt, inReset := true }

/-- An estimate record reverts to SEED (R456). -/
def State.reseed (s : State) (b : Nat) : State :=
  let s1 := s.onPos b (fun x => { x with solving := none, solvePages := [], ctrs := List.replicate 12 0 })
  if (s1.pos b).record.length = 384 then s1.seedEst b else s1.onPos b (fun x => { x with est := none })

/-- A geode reset (R456): fabric, cores, engine and shared memory; the quad, its modules and lanes stay. -/
def State.beginGeodeReset (s : State) (g : Nat) : State :=
  if s.aon.inReset || s.aon.islandsOff then s
  else
    let halt := (s.coreAt (72 + g)).stop.isSome
    let s1 := (s.dropGeodeJobs g).dropGeodeSlots g
    let s2 := s1.onGeode g (fun x =>
      { resetGeode x with lastHalt := if halt then some (secNow s.aon) else x.lastHalt })
    let s3 := { s2 with cores := (modRange s2.cores (9 * g) 9 (fun c => { Core.signalReset with beacons := c.beacons })) }
    let s4 := s3.onCoreAt (72 + g) (fun _ => Core.supReset)
    let s5 := (List.range 4).foldl (fun t l => t.reseed (4 * g + l)) s4
    (s5.onQuad g (fun q => { q with dlDiscard := 0, dlBcn := 0 })).log
      { kind := 0x0B, geode := byteOf g, a := if halt then 0 else 1 }

/-- GEODE_RESET (R311, R456, R466). -/
def execGeodeReset (g : Fin 8) (s : State) : Host.Outcome State Fault Refusal := .next (s.beginGeodeReset g.val)

/-- GEODE_RESET_COMPLETE (R456, R466): the geode is ready. -/
def execGeodeResetComplete (g : Fin 8) (s : State) : Host.Outcome State Fault Refusal :=
  .next (if !(s.geode g.val).inReset then s
    else (s.onGeode g.val (fun x => { x with inReset := false, pool := allPages })).onCoreAt (72 + g.val)
      (fun c => { c with halted := false }))

/-! ### Halts (R143, R466, R468) -/

/-- The XCAUSE code of the context that handles a Lorner-S core's faults (R143). -/
def haltCode (c : Core) : Nat := (c.threads.getD c.xctx {}).xcause.toNat % 64

/-- SUPV_HALT (R466): logged; the geode's jobs end with cause 2, its slots are EMPTY; a second halt within 10 s of the reset
faults the geode. -/
def execSupvHalt (g : Fin 8) (s : State) : Host.Outcome State Fault Refusal :=
  let x := s.geode g.val
  let c := s.core (.sup g)
  .next (if !x.supHalted || !s.hubUp then s
    else
      let s1 := (s.onGeode g.val (fun y => { y with supHalted := false })).log
        { kind := 0x0A, geode := byteOf g.val, unit := byteOf c.xctx, a := u32 (haltCode c) }
      let s2 := (s1.dropGeodeJobs g.val).dropGeodeSlots g.val
      let again := match x.lastHalt with | some t => decide (secNow s.aon < t + 10) | none => false
      if again then
        (s2.onGeode g.val (fun y => { y with faulted := true })).log { kind := 0x0C, geode := byteOf g.val, a := 1 }
      else s2)

/-- The device enters FAULT (R450, R469, R507, R511). -/
def State.enterFault (s : State) (cause : Nat) : State :=
  let s1 := s.onAon (fun a => { a with faultrec := BitVec.ofNat 14 (0x2000 + cause), ppsHigh := false })
  let s2 := if s.aon.ppsHigh then s1.emit (.ppsOut false) else s1
  ({ s2 with poss := s2.poss.map (fun (p : Pos) => { p with mrst := true }) }).setDev .fault

/-- HUB_HALT (R143, R468): FAULT with cause 0x01. -/
def execHubHalt (s : State) : Host.Outcome State Fault Refusal :=
  .next (if (s.coreAt 80).stop.isNone || s.hub.halted || s.aon.inReset then s
    else (s.enterFault 1).onHub (fun h => { h with halted := true }))

/-! ### Temperature and clocks (R463, R468) -/

/-- TEMP_REFRESH (R426, R463): TALARM sets after 1 ms at 152.0 °C and clears below 148.0 °C, in units of 0.125 °C. -/
def execTempRefresh (tj : BitVec 16) (s : State) : Host.Outcome State Fault Refusal :=
  let now := now56 s.aon
  let was := s.aon.tj.toInt
  let s1 := s.onAon (fun a =>
    { a with tj := tj, tripHold := a.tripHold && decide (1120 ≤ tj.toInt)
             tjs := a.tjs.filter (fun e => decide (now < e.1 + 2 ^ 56)) ++ [(now, tj.toInt)] })
  .next (if !s.aon.talarm && decide (1216 ≤ was) && decide (1216 ≤ tj.toInt) then
      ((s1.onAon (fun a => { a with talarm := true })).log { kind := 0x04, a := tj.setWidth 32 }).raiseHub 52
    else if tj.toInt < 1184 then s1.onAon (fun a => { a with talarm := false })
    else s1)

/-- THERMAL_TRIP (R463, R511): a junction reaches 160 °C. -/
def execThermalTrip (s : State) : Host.Outcome State Fault Refusal :=
  let s1 := (s.onAon (fun a => { a with tripHold := true, thermtrip := true })).emit (.thermtrip true)
  .next (if s.aon.inReset then s1
    else (s1.enterFault 2).onAon (fun a => { a with islandsOff := true }))

/-- TIMEREF_LOSS (R468): FAULT with cause 0x03. -/
def execTimerefLoss (s : State) : Host.Outcome State Fault Refusal := .next (if s.aon.inReset then s else s.enterFault 3)

/-- REFCLK_FAULT (R468): the lane reference is absent; every lane shows 110. -/
def execRefclkFault (s : State) : Host.Outcome State Fault Refusal :=
  .next (if s.aon.noLaneRef then s
    else ((List.range 32).foldl (fun t p => t.setLane p 6) (s.onAon (fun a => { a with noLaneRef := true }))).log { kind := 0x08 })

/-- What a lane shows with the lane reference (R519). -/
def State.laneCode (s : State) (p : Nat) : BitVec 3 :=
  let x := s.pos p
  if (s.quad (p / 4)).dlMode then
    (if !x.en then 0 else if (s.quad (p / 4)).dlup then 3 else if x.oldRate != 3 then 4 else if 0 < x.tries then 5 else 1)
  else match s.owner p with
    | some b => if (s.pos p).en then modCode (s.pos b).mod else 0
    | none => if (s.pos p).en then 6 else 0

/-- LANE_REFERENCE_RESTORED (R468, R519): windows open again, and lanes show their modules. -/
def execLaneReferenceRestored (s : State) : Host.Outcome State Fault Refusal :=
  .next (if !s.aon.noLaneRef then s
    else
      let s1 := s.onAon (fun a => { a with noLaneRef := false })
      (List.range 32).foldl (fun t p => t.setLane p (t.laneCode p)) s1)

end Sys2Proof.Machine
end

