-- ==== Sys2Proof/Machine/Monitor.lean ====
section
/-! DEFINITION. The commands of the bench monitor (R477–R488) and the JTAG port (R489). A command from the UART runs when
its line has come, or is given whole; one from JTAG runs while DEBUG is in force (log entry 83). -/

namespace Sys2Proof.Machine
open Sys2Proof

/-! ### The frame of a monitor command (R481, R489) -/

/-- The monitor may run the command now. -/
def State.monTakes (s : State) (p : Port) (i : MonCmd) : Bool :=
  !s.aon.inReset &&
    (match p with
     | .uart => s.mon.open_ && (s.mon.ready.isNone || s.mon.ready == some i)
     | .jtag => s.jtag.ir == .debug)

/-- The line that a command of the UART came in is used up. -/
def State.monClear (s : State) (p : Port) : State :=
  match p with
  | .uart => s.onMon (fun m => { m with ready := none })
  | .jtag => s

/-- A command runs and is answered; input that waited goes on (R481). -/
def State.monDo (s : State) (p : Port) (i : MonCmd) (act : State → MonAns) : State :=
  if !s.monTakes p i then s
  else
    let t := (act (s.monClear p)).send p
    if p = .uart then t.drainMon else t

/-- A command that answers an error. -/
def monErr (s : State) (code : Nat) : MonAns := { st := s, code := code }

/-! ### Text -/

/-- A number in `n` hexadecimal digits with its prefix (R4), and a line of several. -/
def hexNum (n v : Nat) : List Byte := ascii "0x" ++ (hexText n v).map (fun c => byteOf c.toNat)
def spaced : List (List Byte) → List Byte
  | [] => []
  | [a] => a
  | a :: r => a ++ 32 :: spaced r

/-- Eight to a line (R483). -/
def eights (k : Nat) : Nat → List (List Byte) → List (List Byte)
  | 0, _ => []
  | n + 1, l => if l.isEmpty then [] else spaced (l.take k) :: eights k n (l.drop k)
def linesOf8 (l : List (List Byte)) : List (List Byte) := eights 8 l.length l

/-! ### Targets (R481, R482, R487) -/

/-- E 05: the target's island is switched off, its geode is faulted, or the core is retired. -/
def State.targetOff (s : State) (r : CoreRef) : Bool :=
  s.aon.islandsOff ||
    (match r with
     | .sig g c => (s.geode g.val).faulted || (s.geode g.val).retired.contains c.val
     | .sup g => (s.geode g.val).faulted
     | .hub => false)

/-- The core of a target, whose context exists; E 02 otherwise. -/
def targetOk (t : Sys2Proof.Target) : Bool :=
  match t.ctx, t.core with
  | none, _ => true
  | some _, .sig _ _ => false
  | some k, .sup _ => decide (k.val < 8)
  | some _, .hub => true

/-! ### Spaces (R482, R486) -/

/-- First address, size of the space, address step, digits of a value and bits of a value. -/
def spaceShape : Space → Nat × Nat × Nat × Nat × Nat
  | .hub a => (a.toNat, 0x80000, 1, 4, 14)
  | .shared _ a => (a.toNat, 0x200000, 1, 4, 14)
  | .core _ a => (a.toNat, 0x20000, 1, 4, 14)
  | .instr _ a => (a.toNat, 0x4000, 1, 7, 28)
  | .fabric _ a => (a.toNat, 0x1000, 1, 4, 14)
  | .bar0 _ a => (a.toNat, 0x10000, 4, 8, 32)

/-- `n` units lie in the space. -/
def spaceFits (a : Space) (n : Nat) : Bool :=
  let h := spaceShape a
  h.1 % h.2.2.1 == 0 && decide (h.1 + h.2.2.1 * n ≤ h.2.1)

/-- E 05 for a space. -/
def State.spaceOff (s : State) : Space → Bool
  | .hub _ => s.aon.islandsOff
  | .shared g _ => s.aon.islandsOff || (s.geode g.val).faulted
  | .core t _ => s.targetOff t
  | .instr t _ => s.targetOff t
  | .fabric g _ => s.aon.islandsOff || (s.geode g.val).faulted
  | .bar0 _ _ => false

/-- A syllable of instruction memory is read through the scrub port (R271, R272). -/
def State.readSyl (s : State) (r : CoreRef) (a : Nat) : State × Nat × Bool :=
  let m := (s.core r).imem
  let v := (smGet m.cells a).toNat
  if m.corr.contains a then
    (s.onCore r (fun c => { c with imem := c.imem.corrected a, eccCorr := ctrAdd 16 c.eccCorr 1 }), v, false)
  else if m.unc.contains a then (s.onCore r (fun c => { c with eccUnc := ctrAdd 16 c.eccUnc 1 }), v, true)
  else (s, v, false)

/-- A data word of a core is read through the scrub port. -/
def State.readData (s : State) (r : CoreRef) (a : Nat) : State × Nat × Bool :=
  let c := s.core r
  let m := if a < 0x10000 then c.x else c.y
  let b := a % 0x10000
  let put := fun (d : Core) => if a < 0x10000 then { d with x := d.x.corrected b } else { d with y := d.y.corrected b }
  let v := (smGet m.cells b).toNat
  if m.corr.contains b then (s.onCore r (fun d => { put d with eccCorr := ctrAdd 16 d.eccCorr 1 }), v, false)
  else if m.unc.contains b then (s.onCore r (fun d => { d with eccUnc := ctrAdd 16 d.eccUnc 1 }), v, true)
  else (s, v, false)

/-- One unit at an address of a space reads: its value, and whether it was uncorrectable (R271, R481). -/
def State.spaceRead (s : State) (a : Space) (k : Nat) : State × Nat × Bool :=
  match a with
  | .hub _ => let r := s.hubReadBy true k; (r.1, r.2.toNat, s.hub.mem.unc.contains k)
  | .shared g _ => let r := s.shmRead g.val k; (r.1, r.2.toNat, (s.geode g.val).mem.unc.contains k)
  | .core t _ => s.readData t k
  | .instr t _ => s.readSyl t k
  | .fabric g _ => (s, (s.fabricRead g.val k).toNat, false)
  | .bar0 f _ => (s, (s.barRead f.val k).toNat, false)

/-- Units from an address on. -/
def State.spaceReads (s : State) (a : Space) (step : Nat) : Nat → Nat → State × List Nat × Bool
  | _, 0 => (s, [], false)
  | k, n + 1 =>
    let r := s.spaceRead a k
    let q := r.1.spaceReads a step (k + step) n
    (q.1, r.2.1 :: q.2.1, r.2.2 || q.2.2)

/-- One unit is written (R486). -/
def State.spaceWrite (s : State) (a : Space) (k v : Nat) : State :=
  match a with
  | .hub _ => s.hubWrite k (BitVec.ofNat 14 v)
  | .shared g _ => s.shmWrite g.val k (BitVec.ofNat 14 v)
  | .core t _ => s.onCore t (fun c => writeData c k (BitVec.ofNat 14 v))
  | .instr t _ => s.onCore t (fun c => { c with imem := c.imem.write k (BitVec.ofNat 28 v) })
  | .fabric g _ => s.fabricWrite g.val k (BitVec.ofNat 14 v)
  | .bar0 f _ => s.barWrite f.val k v

/-- Units are written from an address on. -/
def State.spaceWrites (s : State) (a : Space) (step : Nat) : Nat → List Nat → State
  | _, [] => s
  | k, v :: r => (s.spaceWrite a k v).spaceWrites a step (k + step) r

/-! ### Registers (R12, R108, R483, R485, R517) -/

/-- Bits of a register's value, or of an element of a vector register. -/
def regWidth (k : CoreKind) : RegName → Nat
  | .a _ | .m _ | .b _ | .l _ => 24
  | .d _ | .v _ => 14
  | .ac _ | .va _ => 56
  | .f _ => 28
  | .sys n => if sysDefined k n.toNat = some true then 28 else 14

/-- Bits of a whole register. -/
def regSize (k : CoreKind) (r : RegName) : Nat :=
  match r with
  | .v _ => 448
  | .va _ => 1792
  | _ => regWidth k r

/-- A register's value, the words or elements of a vector register. -/
def regRead (c : Core) (tid : Nat) (t : Thread) : RegName → List Nat
  | .a n => [(smGet t.a n.val).toNat]
  | .m n => [(smGet t.m n.val).toNat]
  | .b n => [(smGet t.b n.val).toNat]
  | .l n => [(smGet t.l n.val).toNat]
  | .d n => [(t.rd n.val).toNat]
  | .ac n => [(smGet t.ac n.val).toNat]
  | .v n => (List.range 32).map (fun k => (t.rv n.val k).toNat)
  | .va n => (List.range 32).map (fun k => (t.rva n.val k).toNat)
  | .f n => [(if c.kind == .signal then smGet c.f n.val else smGet t.f n.val).toNat]
  | .sys n => [(sysRead c tid t n.toNat).toNat]

/-- The level or context that REG names; none: a mistake (R483). -/
def regThread (k : CoreKind) (t : Sys2Proof.Target) (lvl : Option (Fin 4)) (r : RegName) : Option Nat :=
  match k with
  | .signal => if coreLevelReg k r then (if lvl.isNone then some 0 else none) else lvl.map (fun n => n.val)
  | _ =>
    if lvl.isSome then none
    else if coreLevelReg k r then some 0
    else t.ctx.map (fun x => x.val)

/-- The core, or the context, is halted (R485). -/
def regHalted (c : Core) (t : Sys2Proof.Target) : Bool :=
  c.isHalted || c.stop.isSome ||
    (match t.ctx with
     | some k => (c.threads.getD k.val {}).held
     | none => false)

/-- REG (R483, R485): a value too wide or a level that does not fit is a mistake. -/
def State.regAns (s : State) (t : Sys2Proof.Target) (lvl : Option (Fin 4)) (r : RegName) (v : Option (BitVec 1792)) : MonAns :=
  let c := s.core t.core
  match regThread c.kind t lvl r with
  | none => monErr s 2
  | some tid =>
    let wide := match v with | some x => decide (2 ^ regSize c.kind r ≤ x.toNat) | none => false
    if !targetOk t || !regHeld c.kind (if coreLevelReg c.kind r then 3 else tid) r || wide then monErr s 2
    else if s.targetOff t.core then monErr s 5
    else if !regHalted c t && !(coreLevelReg c.kind r && v.isNone) then monErr s 4
    else match v with
      | some x => { st := s.onCore t.core (fun k => regWrite k tid x.toNat r) }
      | none =>
        { st := s
          lines := linesOf8 ((regRead c tid (c.threads.getD tid {}) r).map (fun x => hexNum ((regWidth c.kind r + 3) / 4) x)) }

/-! ### Halt, run, step (R485) -/

/-- A context is held: it leaves its core at the bundle boundary (R485). -/
def holdCtx (c : Core) (k : Nat) : Core :=
  let c1 := onThread c k (fun t => { t with held := true })
  if c1.run = .lvl k then
    let c2 := switchTo { c1 with stall := none } .idle
    switchTo c2 (pick c2)
  else c1

/-- A core is released: the bundle at a breakpoint passes it (R485). -/
def runCore (c : Core) : Core :=
  let c1 := { c with held := false, halted := c.halted && c.kind != .signal, stepLeft := none, brkPass := true }
  match c.kind, c.run with
  | .signal, _ => c1
  | _, .lvl k => onThread c1 k (fun t => { t with tstate := if t.tstate = .ready then .running else t.tstate })
  | _, .idle => c1

/-- The operations of a syllable that stands in its bundle at index `k`, where `fin` says how the bundle ends. -/
def sylOps (r : CoreRef) (k : Nat) (fin : BundleEnd) (w : DWord) : List Instr :=
  let site := fun (f : BundleEnd) (sh : Bool) => Site.mk r (BitVec.ofNat 3 k) sh f false
  let bad := fun (f : BundleEnd) (sh : Bool) => Instr.nop { site f sh with rsv := true }
  let v := w.toNat
  if v / 2 ^ 26 % 2 = 0 then [(decodeLong (site fin false) v).getD (bad fin false)]
  else
    [ (decodeShort (site .more true) (v / 2 ^ 13 % 2 ^ 13)).getD (bad .more true)
    , (decodeShort (site fin true) (v % 2 ^ 13)).getD (bad fin true) ]

/-- The bundle of instruction memory at an address (R58, R59, R61). -/
def bundleOps (r : CoreRef) (c : Core) (a : Nat) : List Instr :=
  let im := c.imem.cells
  let n := bundleSize im a
  let ended := bitOf (smGet im (a + (n - 1))) 27
  (List.range n).flatMap (fun k =>
    sylOps r k (if k + 1 < n then .more else if ended then .last else .unended) (smGet im (a + k)))

/-- One dispatch, or one bundle fetched and issued, where the core can go on. -/
def State.stepOnce (s : State) (r : CoreRef) : State :=
  let c := s.core r
  if !c.live then s
  else if c.asm.isEmpty && atDispatchPoint c && dispatchDue c then s.dispatchCore r
  else match c.run with
    | .idle => s
    | .lvl n =>
      match c.threads[n]? with
      | none => s
      | some t =>
        if t.micro.isSome || c.stall.isSome || !c.asm.isEmpty then s
        else s.take r (tryIssue (s.outside r) { c with asm := bundleOps r c t.pc.toNat })

def State.stepRun (s : State) (r : CoreRef) : Nat → State
  | 0 => s
  | n + 1 => (s.stepOnce r).stepRun r n

/-- STEP (R483, R485): the core issues up to n bundles from its instruction memory now; those that a stall or an idle core
holds back issue later, and the core halts behind the last (log entry 84). -/
def State.stepCore (s : State) (r : CoreRef) (n : Nat) : State :=
  (s.onCore r (fun c => { runCore c with stepLeft := some n })).stepRun r (4 * n + 4)

/-! ### The rows -/

/-- UART_BYTE_RECEIVED (R477, R480, R481, R484). -/
def execUartByteReceived (b : Byte) (framingError : Bool) (s : State) : Host.Outcome State Fault Refusal :=
  .next (s.uartByte b framingError)

/-- VER (R483). -/
def execVer (p : Port) (s : State) : Host.Outcome State Fault Refusal :=
  .next (s.monDo p .ver (fun t => { st := t, lines := [t.bannerText] }))

/-- The line of STATE (R483): its layout is the model's (log entry 81). -/
def State.stateLine (s : State) : List Byte :=
  ascii "DEVSTATE " ++ hexNum 1 (devCode s.aon.devstate) ++ ascii " TJ " ++ hexNum 4 s.aon.tj.toNat ++ ascii " BEACON " ++
    hexNum 8 (s.aon.lastBeacon.getD 0).toNat ++ ascii " FAULTED " ++ hexNum 2 (geodeMask (fun g => (s.geode g).faulted)).toNat ++
    ascii " SPARES " ++ hexNum 2 s.spareMask.toNat

/-- STATE (R483). -/
def execState (p : Port) (s : State) : Host.Outcome State Fault Refusal :=
  .next (s.monDo p .state (fun t => { st := t, lines := [t.stateLine] }))

/-- MR (R483, R486): an uncorrectable word is shown as stored, with E 07 (R481). -/
def execMr (p : Port) (a : Space) (n : Nat) (s : State) : Host.Outcome State Fault Refusal :=
  .next (s.monDo p (.mr a n) (fun t =>
    let h := spaceShape a
    if n = 0 ∨ 256 < n ∨ !spaceFits a n then monErr t 2
    else if t.spaceOff a then monErr t 5
    else
      let r := t.spaceReads a h.2.2.1 h.1 n
      { st := r.1, lines := linesOf8 (r.2.1.map (fun v => hexNum h.2.2.2.1 v)), code := if r.2.2 then 7 else 0 }))

/-- MW (R483, R486). -/
def execMw (p : Port) (a : Space) (vs : List Nat) (s : State) : Host.Outcome State Fault Refusal :=
  .next (s.monDo p (.mw a vs) (fun t =>
    let h := spaceShape a
    if vs.isEmpty || decide (16 < vs.length) || !spaceFits a vs.length || vs.any (fun v => decide (2 ^ h.2.2.2.2 ≤ v)) then
      monErr t 2
    else if t.spaceOff a then monErr t 5
    else { st := t.spaceWrites a h.2.2.1 h.1 vs }))

/-- REG (R483, R485). -/
def execReg (p : Port) (t : Sys2Proof.Target) (lvl : Option (Fin 4)) (r : RegName) (v : Option (BitVec 1792)) (s : State) :
    Host.Outcome State Fault Refusal :=
  .next (s.monDo p (.reg t lvl r v) (fun u => u.regAns t lvl r v))

/-- HALT (R485, R487). -/
def execHalt (p : Port) (t : Sys2Proof.Target) (s : State) : Host.Outcome State Fault Refusal :=
  .next (s.monDo p (.halt t) (fun u =>
    if !targetOk t then monErr u 2
    else if u.targetOff t.core then monErr u 5
    else { st := u.onCore t.core (fun c =>
      match t.ctx with
      | some k => holdCtx c k.val
      | none => if c.held then c else haltCore c) }))

/-- RUN (R483, R485). -/
def execMonitorRun (p : Port) (t : Sys2Proof.Target) (s : State) : Host.Outcome State Fault Refusal :=
  .next (s.monDo p (.run t) (fun u =>
    if !targetOk t then monErr u 2
    else if u.targetOff t.core then monErr u 5
    else match t.ctx with
      | some k => { st := u.onCore t.core (fun c => onThread c k.val (fun x => { x with held := false })) }
      | none =>
        if (u.core t.core).isHalted then
          let v := u.onCore t.core runCore
          { st := if (v.core t.core).live then v.retry t.core else v }
        else { st := u }))

/-- STEP (R483, R485): it takes a core. -/
def execStep (p : Port) (t : Sys2Proof.Target) (n : Nat) (s : State) : Host.Outcome State Fault Refusal :=
  .next (s.monDo p (.step t n) (fun u =>
    if t.ctx.isSome || n == 0 || decide (1024 < n) then monErr u 2
    else if u.targetOff t.core then monErr u 5
    else { st := u.stepCore t.core n }))

/-- BRK (R483, R485): it takes a core. -/
def execBrk (p : Port) (t : Sys2Proof.Target) (i : Fin 2) (addr : Option IAddr) (s : State) : Host.Outcome State Fault Refusal :=
  .next (s.monDo p (.brk t i addr) (fun u =>
    if t.ctx.isSome then monErr u 2
    else if u.targetOff t.core then monErr u 5
    else { st := u.onCore t.core (fun c => if i = 0 then { c with brk0 := addr } else { c with brk1 := addr }) }))

/-- The bench monitor's attention line (R123, R142). -/
def attnLine : CoreRef → Nat
  | .hub => 54
  | _ => 31

/-- ATTN (R123, R142, R483): it takes a core. -/
def execAttn (p : Port) (t : Sys2Proof.Target) (s : State) : Host.Outcome State Fault Refusal :=
  .next (s.monDo p (.attn t) (fun u =>
    if t.ctx.isSome then monErr u 2
    else if u.targetOff t.core then monErr u 5
    else { st := u.raise t.core (attnLine t.core) }))

/-- LODE (R484): the bytes have come, and LODE_VERIFICATION gives the final line; JTAG gives the bytes with the command. -/
def execLode (p : Port) (slot : Fin 16) (mask : Byte) (bytes : List Byte) (s : State) : Host.Outcome State Fault Refusal :=
  .next (if !s.monTakes p (.lode slot mask bytes) then s
    else
      let t := s.monClear p
      let x := t.slotOf slot.val
      let mine := p == .uart && x.monitor == some .uart && decide (x.bytes.length < x.len)
      let st := t.lodeStatus slot.val
      if !mine && st != 0 then
        let a : MonAns := { st := t, code := 6, extra := statusText st }
        if p = .uart then (a.send p).drainMon else a.send p
      else
        ((if p = .jtag then t.sayLine p (ascii "=") else t).onSlot slot.val
          (fun y => { monSlot p mask bytes.length bytes with pages := y.pages })).bytesIn slot.val)

/-- The entries that LOG shows (R470, R483). -/
def State.logPick (s : State) (seq : Option U32) (n : Nat) : List LogEntry :=
  match seq with
  | some q => (s.logFrom q).take n
  | none =>
    let l := s.hub.log.filter (fun e => e.readable)
    l.drop (l.length - n)

/-- LOG (R470, R483). -/
def execLog (p : Port) (seq : Option U32) (n : Option Nat) (s : State) : Host.Outcome State Fault Refusal :=
  let k := n.getD 16
  .next (s.monDo p (.log seq n) (fun t =>
    if k = 0 ∨ 4096 < k then monErr t 2
    else { st := t, lines := (t.logPick seq k).map (fun e => hexBytes (logBytes e)) }))

/-- Eight-byte values of a counter block. -/
def values8 (bs : List Byte) : List Nat := (List.range (bs.length / 8)).map (fun i => leAt bs (8 * i) 8)

/-- CTR (R474, R475, R483): one counter a line. -/
def execCtr (p : Port) (block : Fin 10) (live : Bool) (s : State) : Host.Outcome State Fault Refusal :=
  .next (s.monDo p (.ctr block live) (fun t =>
    if t.aon.islandsOff && block != 1 then monErr t 5
    else if live then { st := t, lines := (t.liveBlock block.val).map (fun v => hexNum 16 v) }
    else
      let r := t.snapBlock block.val
      { st := r.2, lines := (values8 (r.1.drop 4)).map (fun v => hexNum 16 v) }))

/-- FUSE (R483, R488). -/
def execFuse (p : Port) (idx : Byte) (v : Option Word) (s : State) : Host.Outcome State Fault Refusal :=
  .next (s.monDo p (.fuse idx v) (fun t =>
    match v with
    | none => { st := t, lines := [hexNum 4 (t.fuseWord idx.toNat).toNat] }
    | some w => { st := t.onAon (fun a =>
        { a with fuseW := (idx.toNat, w) :: a.fuseW.filter (fun e => e.1 != idx.toNat) }) }))

/-- FAULTREC (R469, R483). -/
def execFaultrec (p : Port) (clr : Bool) (s : State) : Host.Outcome State Fault Refusal :=
  .next (s.monDo p (.faultrec clr) (fun t =>
    if clr then { st := t.onAon (fun a => { a with faultrec := a.faultrec &&& 0x1FFF }) }
    else { st := t, lines := [hexNum 4 t.aon.faultrec.toNat] }))

/-- RESET DEV (R456, R483): the final line and the prompt first, then the reset. -/
def execResetDev (p : Port) (s : State) : Host.Outcome State Fault Refusal :=
  .next (if !s.monTakes p .resetDev then s
    else (({ st := s.monClear p } : MonAns).send p).deviceReset 2)

/-- RESET HUB (R456, R483). -/
def execResetHub (p : Port) (s : State) : Host.Outcome State Fault Refusal :=
  .next (s.monDo p .resetHub (fun t => if t.aon.islandsOff then monErr t 5 else { st := t.beginHubReset false }))

/-- RESET G (R456, R483). -/
def execResetG (p : Port) (g : Fin 8) (s : State) : Host.Outcome State Fault Refusal :=
  .next (s.monDo p (.resetG g) (fun t =>
    if t.targetOff (.sup g) then monErr t 5 else { st := t.beginGeodeReset g.val }))

/-- RESET C (R456, R483). -/
def execResetC (p : Port) (g : Fin 8) (c : Fin 9) (s : State) : Host.Outcome State Fault Refusal :=
  .next (s.monDo p (.resetC g c) (fun t =>
    if t.targetOff (.sig g c) then monErr t 5 else { st := t.coreReset g.val c.val }))

/-! ### JTAG (R489) -/

/-- A JTAG instruction is in force. -/
def State.jtagIr (s : State) (i : JtagIr) : State := { s with jtag := { s.jtag with ir := i } }

/-- BYPASS (R489): one bit, which captures 0, stands between TDI and TDO. -/
def execBypass (bits : List Bool) (s : State) : Host.Outcome State Fault Refusal :=
  let all := false :: bits
  let t := s.jtagIr .bypass
  .next (({ t with jtag := { t.jtag with bypassBit := all.getLast?.getD false } } : State).emit (.tdo (all.take bits.length)))

/-- The device identification register (R489): 1, the manufacturer, the part number 0x3214, version 1; least significant
bit first. -/
def idcodeBits : List Bool :=
  (List.range 32).map (fun i => bitOf (BitVec.ofNat 32 (2 ^ 28 + 0x3214 * 2 ^ 12 + Config.jedec.toNat * 2 + 1)) i)

/-- IDCODE (R489). -/
def execIdcode (s : State) : Host.Outcome State Fault Refusal := .next ((s.jtagIr .idcode).emit (.tdo idcodeBits))

/-- The boundary register is shifted: what it captured leaves, and is free; what comes in stays (R489). -/
def State.scanBoundary (s : State) (bits : List Bool) : State :=
  let r := s.freshWords bits.length
  ({ r.2 with jtag := { r.2.jtag with boundary := bits } } : State).emit (.tdo (r.1.map (fun v => v % 2 == 1)))

/-- SAMPLE/PRELOAD (R489). -/
def execSamplePreload (bits : List Bool) (s : State) : Host.Outcome State Fault Refusal :=
  .next ((s.jtagIr .sample).scanBoundary bits)

/-- EXTEST (R489). -/
def execExtest (bits : List Bool) (s : State) : Host.Outcome State Fault Refusal :=
  .next ((s.jtagIr .extest).scanBoundary bits)

/-- DEBUG (R489): the monitor's commands may come through JTAG. -/
def execDebug (s : State) : Host.Outcome State Fault Refusal := .next (s.jtagIr .debug)

end Sys2Proof.Machine
end

