-- ==== Sys2Proof/Machine/Time.lean ====
section
/-! DEFINITION. The time inputs and PPS_OUT (R505–R507). -/

namespace Sys2Proof.Machine
open Sys2Proof

/-- One second of device time. -/
def second : Nat := 2 ^ 80

/-- A rate within ±100 ppm of nominal that the servo chooses: free (R505, log entry 80). -/
def State.servoRate (s : State) : State :=
  let r := s.fresh
  let w := nominalRate / 10000
  r.2.onAon (fun a => { a with rate := nominalRate - w + r.1 % (2 * w + 1) })

/-- An edge is accepted (R444, R505): it counts `n` times, may lock the time unit, steers the rate under source 1, and arms
a TIME_SET that waits for it. -/
def State.acceptEdge (s : State) (err : Int) (n : Nat) (unlock : Bool) : State :=
  let s1 := s.onAon (fun a =>
    let good := if err.natAbs ≤ 50 then a.goodEdges + 1 else 0
    { a with
      ppsEdges := a.ppsEdges + BitVec.ofNat 32 n, lastEdge := some a.time, outEdges := 0
      goodEdges := good
      locked := if unlock then false else a.locked || (a.source != 0 && decide (8 ≤ good))
      timeSet := a.timeSet.map (fun t => { t with armed := true }) })
  if s1.aon.source = 1 then s1.servoRate else s1

/-- PPS_EDGE (R142, R454, R505): `err` is the distance from the nearest whole second in ns. -/
def execPpsEdge (err : Int) (s : State) : Host.Outcome State Fault Refusal :=
  let a := s.aon
  .next (if a.inReset then s
    else if a.locked then
      if err.natAbs ≤ 10000 then (s.hubLine 53).acceptEdge err 1 false
      else
        let n := if 0 < a.outEdges && (err - a.outErr).natAbs ≤ 1000 then a.outEdges + 1 else 1
        if 8 ≤ n then (s.hubLine 53).acceptEdge err 8 true
        else (s.hubLine 53).onAon (fun x => { x with outEdges := n, outErr := err })
    else
      let ok := match a.lastEdge with
        | some t => decide (9 * second ≤ 10 * (a.time - t).toNat)
        | none => true
      if ok then (s.hubLine 53).acceptEdge err 1 false else s.hubLine 53)

/-- PPS_LOCK_TIMEOUT (R505): no edge for 3 seconds; the rate holds. -/
def execPpsLockTimeout (s : State) : Host.Outcome State Fault Refusal :=
  let due := match s.aon.lastEdge with
    | some t => decide (3 * second ≤ (s.aon.time - t).toNat)
    | none => true
  .next (if due then s.onAon (fun a => { a with locked := false, goodEdges := 0 }) else s)

/-- IRIG_B_FRAME (R142, R506): a frame is used for discipline if it is valid and names the second of device time; else IRIG_ERR
counts it. -/
def execIrigBFrame (valid : Bool) (sec : BitVec 42) (s : State) : Host.Outcome State Fault Refusal :=
  .next (if s.aon.inReset then s
    else
      let s0 := s.hubLine 53
      let s1 := if valid then s0.onAon (fun a => { a with irigSec := some sec }) else s0
      if s.aon.source ≠ 2 then s1
      else if valid && sec + s.aon.irigOff == BitVec.ofNat 42 (s.aon.time.toNat / second) then s1.servoRate
      else s1.onAon (fun a => { a with irigErr := ctrAdd 16 a.irigErr 1 }))

/-- PPS_OUT_PULSE (R507, R511): a whole second of device time, from step 3 of R452; low in FAULT. -/
def execPpsOutPulse (s : State) : Host.Outcome State Fault Refusal :=
  let sec := BitVec.ofNat 42 (s.aon.time.toNat / second)
  .next (if s.aon.inReset || s.aon.stage = 0 || s.aon.devstate == .fault || s.aon.ppsOut == some sec then s
    else (s.onAon (fun a => { a with ppsOut := some sec, ppsHigh := true })).emit (.ppsOut true))

end Sys2Proof.Machine
end

