-- ==== Sys2Proof/Machine/Dispatch.lean ====
section
/-! DEFINITION. One arm per command: a direct call of its meaning. -/

namespace Sys2Proof.Machine
open Sys2Proof

/-- The effect of a command on everything but the queue. -/
def exec (i : Instr) (s : State) : Host.Outcome State Fault Refusal :=
  match i with
  -- address class (R226)
  | .ld x1 x2 => Sys2Proof.Machine.execLd x1 x2 s
  | .ldD x1 x2 => Sys2Proof.Machine.execLdD x1 x2 s
  | .st x1 x2 => Sys2Proof.Machine.execSt x1 x2 s
  | .stD x1 x2 => Sys2Proof.Machine.execStD x1 x2 s
  | .vld x1 x2 => Sys2Proof.Machine.execVld x1 x2 s
  | .vst x1 x2 => Sys2Proof.Machine.execVst x1 x2 s
  | .vlds x1 x2 => Sys2Proof.Machine.execVlds x1 x2 s
  | .vsts x1 x2 => Sys2Proof.Machine.execVsts x1 x2 s
  | .vldx x1 x2 => Sys2Proof.Machine.execVldx x1 x2 s
  | .vstx x1 x2 => Sys2Proof.Machine.execVstx x1 x2 s
  | .aadd x1 x2 => Sys2Proof.Machine.execAadd x1 x2 s
  | .aaddi x1 x2 x3 x4 => Sys2Proof.Machine.execAaddi x1 x2 x3 x4 s
  | .amv x1 x2 x3 x4 => Sys2Proof.Machine.execAmv x1 x2 x3 x4 s
  | .amovl x1 x2 x3 x4 => Sys2Proof.Machine.execAmovl x1 x2 x3 x4 s
  | .amovh x1 x2 x3 x4 => Sys2Proof.Machine.execAmovh x1 x2 x3 x4 s
  | .palloc x1 x2 => Sys2Proof.Machine.execPalloc x1 x2 s
  | .pfree x1 x2 => Sys2Proof.Machine.execPfree x1 x2 s
  -- D family (R227)
  | .add x1 x2 => Sys2Proof.Machine.execAdd x1 x2 s
  | .adc x1 x2 => Sys2Proof.Machine.execAdc x1 x2 s
  | .sub x1 x2 => Sys2Proof.Machine.execSub x1 x2 s
  | .sbc x1 x2 => Sys2Proof.Machine.execSbc x1 x2 s
  | .cmp x1 x2 => Sys2Proof.Machine.execCmp x1 x2 s
  | .neg x1 x2 => Sys2Proof.Machine.execNeg x1 x2 s
  | .abs x1 x2 => Sys2Proof.Machine.execAbs x1 x2 s
  | .min x1 x2 => Sys2Proof.Machine.execMin x1 x2 s
  | .max x1 x2 => Sys2Proof.Machine.execMax x1 x2 s
  | .minu x1 x2 => Sys2Proof.Machine.execMinu x1 x2 s
  | .maxu x1 x2 => Sys2Proof.Machine.execMaxu x1 x2 s
  | .and x1 x2 => Sys2Proof.Machine.execAnd x1 x2 s
  | .or x1 x2 => Sys2Proof.Machine.execOr x1 x2 s
  | .xor x1 x2 => Sys2Proof.Machine.execXor x1 x2 s
  | .andn x1 x2 => Sys2Proof.Machine.execAndn x1 x2 s
  | .not x1 x2 => Sys2Proof.Machine.execNot x1 x2 s
  | .mov x1 x2 => Sys2Proof.Machine.execMov x1 x2 s
  | .movi x1 x2 x3 => Sys2Proof.Machine.execMovi x1 x2 x3 s
  | .addD x1 x2 => Sys2Proof.Machine.execAddD x1 x2 s
  | .adcD x1 x2 => Sys2Proof.Machine.execAdcD x1 x2 s
  | .subD x1 x2 => Sys2Proof.Machine.execSubD x1 x2 s
  | .sbcD x1 x2 => Sys2Proof.Machine.execSbcD x1 x2 s
  | .cmpD x1 x2 => Sys2Proof.Machine.execCmpD x1 x2 s
  | .negD x1 x2 => Sys2Proof.Machine.execNegD x1 x2 s
  | .movD x1 x2 => Sys2Proof.Machine.execMovD x1 x2 s
  | .mvad x1 x2 => Sys2Proof.Machine.execMvad x1 x2 s
  | .lsh x1 x2 => Sys2Proof.Machine.execLsh x1 x2 s
  | .ash x1 x2 => Sys2Proof.Machine.execAsh x1 x2 s
  | .lsl x1 x2 => Sys2Proof.Machine.execLsl x1 x2 s
  | .lsr x1 x2 => Sys2Proof.Machine.execLsr x1 x2 s
  | .asl x1 x2 => Sys2Proof.Machine.execAsl x1 x2 s
  | .asr x1 x2 => Sys2Proof.Machine.execAsr x1 x2 s
  | .lshD x1 x2 => Sys2Proof.Machine.execLshD x1 x2 s
  | .ashD x1 x2 => Sys2Proof.Machine.execAshD x1 x2 s
  | .mpy x1 x2 => Sys2Proof.Machine.execMpy x1 x2 s
  | .mac x1 x2 => Sys2Proof.Machine.execMac x1 x2 s
  | .msu x1 x2 => Sys2Proof.Machine.execMsu x1 x2 s
  | .cmpy x1 x2 => Sys2Proof.Machine.execCmpy x1 x2 s
  | .cmac x1 x2 => Sys2Proof.Machine.execCmac x1 x2 s
  | .cmacj x1 x2 => Sys2Proof.Machine.execCmacj x1 x2 s
  | .adda x1 x2 => Sys2Proof.Machine.execAdda x1 x2 s
  | .suba x1 x2 => Sys2Proof.Machine.execSuba x1 x2 s
  | .nega x1 x2 => Sys2Proof.Machine.execNega x1 x2 s
  | .asha x1 x2 => Sys2Proof.Machine.execAsha x1 x2 s
  | .clra x1 x2 => Sys2Proof.Machine.execClra x1 x2 s
  | .mvp x1 x2 => Sys2Proof.Machine.execMvp x1 x2 s
  | .mulf x1 x2 => Sys2Proof.Machine.execMulf x1 x2 s
  | .mulD x1 x2 => Sys2Proof.Machine.execMulD x1 x2 s
  | .mvr x1 x2 => Sys2Proof.Machine.execMvr x1 x2 s
  | .mvi x1 x2 => Sys2Proof.Machine.execMvi x1 x2 s
  | .expd x1 x2 => Sys2Proof.Machine.execExpd x1 x2 s
  | .expdS x1 x2 => Sys2Proof.Machine.execExpdS x1 x2 s
  | .div x1 x2 => Sys2Proof.Machine.execDiv x1 x2 s
  | .divu x1 x2 => Sys2Proof.Machine.execDivu x1 x2 s
  | .dadd x1 x2 => Sys2Proof.Machine.execDadd x1 x2 s
  | .dsub x1 x2 => Sys2Proof.Machine.execDsub x1 x2 s
  | .daj x1 x2 => Sys2Proof.Machine.execDaj x1 x2 s
  | .mvs x1 x2 x3 x4 => Sys2Proof.Machine.execMvs x1 x2 x3 x4 s
  | .tget x1 x2 => Sys2Proof.Machine.execTget x1 x2 s
  -- V family (R228)
  | .vadd x1 x2 => Sys2Proof.Machine.execVadd x1 x2 s
  | .vsub x1 x2 => Sys2Proof.Machine.execVsub x1 x2 s
  | .vadds x1 x2 => Sys2Proof.Machine.execVadds x1 x2 s
  | .vsubs x1 x2 => Sys2Proof.Machine.execVsubs x1 x2 s
  | .vaddh x1 x2 => Sys2Proof.Machine.execVaddh x1 x2 s
  | .vsubh x1 x2 => Sys2Proof.Machine.execVsubh x1 x2 s
  | .vneg x1 x2 => Sys2Proof.Machine.execVneg x1 x2 s
  | .vabs x1 x2 => Sys2Proof.Machine.execVabs x1 x2 s
  | .vmin x1 x2 => Sys2Proof.Machine.execVmin x1 x2 s
  | .vmax x1 x2 => Sys2Proof.Machine.execVmax x1 x2 s
  | .vand x1 x2 => Sys2Proof.Machine.execVand x1 x2 s
  | .vor x1 x2 => Sys2Proof.Machine.execVor x1 x2 s
  | .vxor x1 x2 => Sys2Proof.Machine.execVxor x1 x2 s
  | .vandn x1 x2 => Sys2Proof.Machine.execVandn x1 x2 s
  | .vlsh x1 x2 => Sys2Proof.Machine.execVlsh x1 x2 s
  | .vash x1 x2 => Sys2Proof.Machine.execVash x1 x2 s
  | .vlsl x1 x2 => Sys2Proof.Machine.execVlsl x1 x2 s
  | .vlsr x1 x2 => Sys2Proof.Machine.execVlsr x1 x2 s
  | .vasl x1 x2 => Sys2Proof.Machine.execVasl x1 x2 s
  | .vasr x1 x2 => Sys2Proof.Machine.execVasr x1 x2 s
  | .vmulf x1 x2 => Sys2Proof.Machine.execVmulf x1 x2 s
  | .vcmulf x1 x2 => Sys2Proof.Machine.execVcmulf x1 x2 s
  | .vcmuljf x1 x2 => Sys2Proof.Machine.execVcmuljf x1 x2 s
  | .vconj x1 x2 => Sys2Proof.Machine.execVconj x1 x2 s
  | .vmulj x1 x2 => Sys2Proof.Machine.execVmulj x1 x2 s
  | .vswri x1 x2 => Sys2Proof.Machine.execVswri x1 x2 s
  | .vmov x1 x2 => Sys2Proof.Machine.execVmov x1 x2 s
  | .vbcast x1 x2 => Sys2Proof.Machine.execVbcast x1 x2 s
  | .vbcastc x1 x2 => Sys2Proof.Machine.execVbcastc x1 x2 s
  | .vperm x1 x2 => Sys2Proof.Machine.execVperm x1 x2 s
  | .vslide x1 x2 x3 x4 x5 => Sys2Proof.Machine.execVslide x1 x2 x3 x4 x5 s
  | .vzip x1 x2 => Sys2Proof.Machine.execVzip x1 x2 s
  | .vunz x1 x2 => Sys2Proof.Machine.execVunz x1 x2 s
  | .vext x1 x2 => Sys2Proof.Machine.execVext x1 x2 s
  | .vins x1 x2 => Sys2Proof.Machine.execVins x1 x2 s
  | .vmpy x1 x2 => Sys2Proof.Machine.execVmpy x1 x2 s
  | .vmac x1 x2 => Sys2Proof.Machine.execVmac x1 x2 s
  | .vmsu x1 x2 => Sys2Proof.Machine.execVmsu x1 x2 s
  | .vmacs x1 x2 => Sys2Proof.Machine.execVmacs x1 x2 s
  | .vmpyp x1 x2 => Sys2Proof.Machine.execVmpyp x1 x2 s
  | .vmacp x1 x2 => Sys2Proof.Machine.execVmacp x1 x2 s
  | .vcmpy x1 x2 => Sys2Proof.Machine.execVcmpy x1 x2 s
  | .vcmac x1 x2 => Sys2Proof.Machine.execVcmac x1 x2 s
  | .vcmacj x1 x2 => Sys2Proof.Machine.execVcmacj x1 x2 s
  | .vcmacs x1 x2 => Sys2Proof.Machine.execVcmacs x1 x2 s
  | .vclra x1 x2 => Sys2Proof.Machine.execVclra x1 x2 s
  | .vmvr x1 x2 => Sys2Proof.Machine.execVmvr x1 x2 s
  | .vmvi x1 x2 => Sys2Proof.Machine.execVmvi x1 x2 s
  | .vexpd x1 x2 => Sys2Proof.Machine.execVexpd x1 x2 s
  | .vexpdS x1 x2 => Sys2Proof.Machine.execVexpdS x1 x2 s
  | .vmaxi x1 x2 => Sys2Proof.Machine.execVmaxi x1 x2 s
  | .vmini x1 x2 => Sys2Proof.Machine.execVmini x1 x2 s
  | .vmaxir x1 x2 => Sys2Proof.Machine.execVmaxir x1 x2 s
  | .vminir x1 x2 => Sys2Proof.Machine.execVminir x1 x2 s
  | .vmaxirS x1 x2 => Sys2Proof.Machine.execVmaxirS x1 x2 s
  | .vminirS x1 x2 => Sys2Proof.Machine.execVminirS x1 x2 s
  | .vmaxia x1 x2 => Sys2Proof.Machine.execVmaxia x1 x2 s
  | .vminia x1 x2 => Sys2Proof.Machine.execVminia x1 x2 s
  | .vmaxiaS x1 x2 => Sys2Proof.Machine.execVmaxiaS x1 x2 s
  | .vminiaS x1 x2 => Sys2Proof.Machine.execVminiaS x1 x2 s
  | .setvl x1 x2 => Sys2Proof.Machine.execSetvl x1 x2 s
  | .setvlImmediate x1 x2 => Sys2Proof.Machine.execSetvlImmediate x1 x2 s
  -- floating point (R229)
  | .fadd x1 x2 => Sys2Proof.Machine.execFadd x1 x2 s
  | .fsub x1 x2 => Sys2Proof.Machine.execFsub x1 x2 s
  | .fmul x1 x2 => Sys2Proof.Machine.execFmul x1 x2 s
  | .fma x1 x2 => Sys2Proof.Machine.execFma x1 x2 s
  | .fdiv x1 x2 => Sys2Proof.Machine.execFdiv x1 x2 s
  | .fsqrt x1 x2 => Sys2Proof.Machine.execFsqrt x1 x2 s
  | .fmin x1 x2 => Sys2Proof.Machine.execFmin x1 x2 s
  | .fmax x1 x2 => Sys2Proof.Machine.execFmax x1 x2 s
  | .fcmp x1 x2 => Sys2Proof.Machine.execFcmp x1 x2 s
  | .fcmpe x1 x2 => Sys2Proof.Machine.execFcmpe x1 x2 s
  | .fcvtFD x1 x2 => Sys2Proof.Machine.execFcvtFD x1 x2 s
  | .fcvtFDD x1 x2 => Sys2Proof.Machine.execFcvtFDD x1 x2 s
  | .fcvtDF x1 x2 => Sys2Proof.Machine.execFcvtDF x1 x2 s
  | .fcvtDDF x1 x2 => Sys2Proof.Machine.execFcvtDDF x1 x2 s
  | .fmov x1 x2 => Sys2Proof.Machine.execFmov x1 x2 s
  | .fneg x1 x2 => Sys2Proof.Machine.execFneg x1 x2 s
  | .fabs x1 x2 => Sys2Proof.Machine.execFabs x1 x2 s
  | .fmvf x1 x2 => Sys2Proof.Machine.execFmvf x1 x2 s
  | .fmvd x1 x2 => Sys2Proof.Machine.execFmvd x1 x2 s
  | .fkind x1 x2 => Sys2Proof.Machine.execFkind x1 x2 s
  | .fbar x1 => Sys2Proof.Machine.execFbar x1 s
  -- control (R230)
  | .nop x1 => Sys2Proof.Machine.execNop x1 s
  | .bCc x1 x2 x3 x4 => Sys2Proof.Machine.execBCc x1 x2 x3 x4 s
  | .bra x1 x2 x3 => Sys2Proof.Machine.execBra x1 x2 x3 s
  | .call x1 x2 x3 => Sys2Proof.Machine.execCall x1 x2 x3 s
  | .callo x1 x2 x3 => Sys2Proof.Machine.execCallo x1 x2 x3 s
  | .jmp x1 x2 x3 => Sys2Proof.Machine.execJmp x1 x2 x3 s
  | .callAn x1 x2 x3 => Sys2Proof.Machine.execCallAn x1 x2 x3 s
  | .calloAn x1 x2 x3 => Sys2Proof.Machine.execCalloAn x1 x2 x3 s
  | .ret x1 x2 => Sys2Proof.Machine.execRet x1 x2 s
  | .reto x1 x2 => Sys2Proof.Machine.execReto x1 x2 s
  | .rte x1 => Sys2Proof.Machine.execRte x1 s
  | .loop x1 x2 => Sys2Proof.Machine.execLoop x1 x2 s
  | .rep x1 x2 => Sys2Proof.Machine.execRep x1 x2 s
  | .barp x1 x2 => Sys2Proof.Machine.execBarp x1 x2 s
  | .flushp x1 => Sys2Proof.Machine.execFlushp x1 s
  | .signal x1 x2 => Sys2Proof.Machine.execSignal x1 x2 s
  | .waite x1 => Sys2Proof.Machine.execWaite x1 s
  | .tstart x1 x2 x3 => Sys2Proof.Machine.execTstart x1 x2 x3 s
  | .tresume x1 x2 => Sys2Proof.Machine.execTresume x1 x2 s
  | .tstop x1 x2 => Sys2Proof.Machine.execTstop x1 x2 s
  | .tset x1 x2 => Sys2Proof.Machine.execTset x1 x2 s
  | .userDecodeOperation x1 x2 x3 x4 x5 x6 => Sys2Proof.Machine.execUserDecodeOperation x1 x2 x3 x4 x5 x6 s
  -- events of the cores (R68, R127, R141, ...)
  | .divideResultLands x1 => Sys2Proof.Machine.execDivideResultLands x1 s
  | .divideSquareRootLands x1 => Sys2Proof.Machine.execDivideSquareRootLands x1 s
  | .sharedLoadDataArrival x1 => Sys2Proof.Machine.execSharedLoadDataArrival x1 s
  | .eventDispatch x1 x2 => Sys2Proof.Machine.execEventDispatch x1 x2 s
  | .contextDispatch x1 => Sys2Proof.Machine.execContextDispatch x1 s
  | .coreTimerExpiry x1 => Sys2Proof.Machine.execCoreTimerExpiry x1 s
  | .l0WindowOpen x1 x2 => Sys2Proof.Machine.execL0WindowOpen x1 x2 s
  | .l0WindowClose x1 x2 => Sys2Proof.Machine.execL0WindowClose x1 x2 s
  | .vectorUnitPowerDown x1 => Sys2Proof.Machine.execVectorUnitPowerDown x1 s
  | .vectorUnitWake x1 => Sys2Proof.Machine.execVectorUnitWake x1 s
  | .lazyFSequence x1 x2 => Sys2Proof.Machine.execLazyFSequence x1 x2 s
  | .f28TrapTaken x1 => Sys2Proof.Machine.execF28TrapTaken x1 s
  -- events of memory and fabric
  | .bankRequestServed x1 x2 => Sys2Proof.Machine.execBankRequestServed x1 x2 s
  | .storeBufferDrain x1 => Sys2Proof.Machine.execStoreBufferDrain x1 s
  | .pageRequestDecided x1 => Sys2Proof.Machine.execPageRequestDecided x1 s
  | .drainMarkerArrival x1 => Sys2Proof.Machine.execDrainMarkerArrival x1 s
  | .pageZeroingComplete x1 => Sys2Proof.Machine.execPageZeroingComplete x1 s
  | .scrubStep x1 => Sys2Proof.Machine.execScrubStep x1 s
  | .coreControlPortWrite x1 x2 x3 => Sys2Proof.Machine.execCoreControlPortWrite x1 x2 x3 s
  | .udtHeaderWrite x1 x2 x3 x4 => Sys2Proof.Machine.execUdtHeaderWrite x1 x2 x3 x4 s
  | .registerWrite x1 => Sys2Proof.Machine.execRegisterWrite x1 s
  -- time and beacons
  | .timerefTick => Sys2Proof.Machine.execTimerefTick s
  | .beaconEmit => Sys2Proof.Machine.execBeaconEmit s
  | .beaconArrivalGeode x1 => Sys2Proof.Machine.execBeaconArrivalGeode x1 s
  | .beaconEventCoreArrival x1 x2 => Sys2Proof.Machine.execBeaconEventCoreArrival x1 x2 s
  | .beaconArrivalHub => Sys2Proof.Machine.execBeaconArrivalHub s
  | .hubMailboxMessage x1 x2 => Sys2Proof.Machine.execHubMailboxMessage x1 x2 s
  | .watchdogMiss x1 x2 => Sys2Proof.Machine.execWatchdogMiss x1 x2 s
  | .coreAttention x1 x2 => Sys2Proof.Machine.execCoreAttention x1 x2 s
  | .spareImageCopyComplete x1 => Sys2Proof.Machine.execSpareImageCopyComplete x1 s
  | .coreSelfTestComplete x1 x2 x3 => Sys2Proof.Machine.execCoreSelfTestComplete x1 x2 x3 s
  | .supvHalt x1 => Sys2Proof.Machine.execSupvHalt x1 s
  | .hubHalt => Sys2Proof.Machine.execHubHalt s
  -- DMA (R283, R285, ...)
  | .start x1 x2 => Sys2Proof.Machine.execStart x1 x2 s
  | .disable x1 x2 => Sys2Proof.Machine.execDisable x1 x2 s
  | .dmaCommandReserved x1 x2 x3 => Sys2Proof.Machine.execDmaCommandReserved x1 x2 x3 s
  | .cqheadWrite x1 x2 x3 => Sys2Proof.Machine.execCqheadWrite x1 x2 x3 s
  | .dmaInstructionFetch x1 x2 => Sys2Proof.Machine.execDmaInstructionFetch x1 x2 s
  | .move x1 x2 => Sys2Proof.Machine.execMove x1 x2 s
  | .drainBeat x1 x2 => Sys2Proof.Machine.execDrainBeat x1 x2 s
  | .dmaLoop x1 x2 => Sys2Proof.Machine.execDmaLoop x1 x2 s
  | .endl x1 x2 => Sys2Proof.Machine.execEndl x1 x2 s
  | .dmaWait x1 x2 => Sys2Proof.Machine.execDmaWait x1 x2 s
  | .dmaSignal x1 x2 => Sys2Proof.Machine.execDmaSignal x1 x2 s
  | .dmaRec x1 x2 => Sys2Proof.Machine.execDmaRec x1 x2 s
  | .dmaHalt x1 x2 => Sys2Proof.Machine.execDmaHalt x1 x2 s
  | .recordBeat x1 x2 => Sys2Proof.Machine.execRecordBeat x1 x2 s
  | .hostReadCompletion x1 x2 => Sys2Proof.Machine.execHostReadCompletion x1 x2 s
  | .completionTimeout x1 => Sys2Proof.Machine.execCompletionTimeout x1 s
  -- host commands (R442, R444, R446)
  | .commandFetch x1 x2 => Sys2Proof.Machine.execCommandFetch x1 x2 s
  | .hostNop x1 => Sys2Proof.Machine.execHostNop x1 s
  | .identify x1 => Sys2Proof.Machine.execIdentify x1 s
  | .status x1 => Sys2Proof.Machine.execStatus x1 s
  | .lodeChunk x1 x2 x3 x4 x5 x6 x7 x8 => Sys2Proof.Machine.execLodeChunk x1 x2 x3 x4 x5 x6 x7 x8 s
  | .lodeVerification x1 => Sys2Proof.Machine.execLodeVerification x1 s
  | .lodeUnload x1 x2 => Sys2Proof.Machine.execLodeUnload x1 x2 s
  | .lodeQuery x1 x2 => Sys2Proof.Machine.execLodeQuery x1 x2 s
  | .signPolicy x1 x2 x3 x4 => Sys2Proof.Machine.execSignPolicy x1 x2 x3 x4 s
  | .jobStart x1 x2 x3 x4 x5 x6 x7 => Sys2Proof.Machine.execJobStart x1 x2 x3 x4 x5 x6 x7 s
  | .jobStop x1 => Sys2Proof.Machine.execJobStop x1 s
  | .jobQuery x1 => Sys2Proof.Machine.execJobQuery x1 s
  | .shareSet x1 x2 x3 x4 x5 => Sys2Proof.Machine.execShareSet x1 x2 x3 x4 x5 s
  | .shareGet x1 x2 => Sys2Proof.Machine.execShareGet x1 x2 s
  | .positionQuery x1 x2 => Sys2Proof.Machine.execPositionQuery x1 x2 s
  | .laneConfig x1 x2 x3 x4 => Sys2Proof.Machine.execLaneConfig x1 x2 x3 x4 s
  | .moduleReset x1 x2 => Sys2Proof.Machine.execModuleReset x1 x2 s
  | .calRecordRead x1 x2 => Sys2Proof.Machine.execCalRecordRead x1 x2 s
  | .calStatus x1 => Sys2Proof.Machine.execCalStatus x1 s
  | .calSolve x1 x2 => Sys2Proof.Machine.execCalSolve x1 x2 s
  | .timeGet x1 => Sys2Proof.Machine.execTimeGet x1 s
  | .timeSet x1 x2 x3 x4 x5 x6 => Sys2Proof.Machine.execTimeSet x1 x2 x3 x4 x5 x6 s
  | .timeSetApply => Sys2Proof.Machine.execTimeSetApply s
  | .memRead x1 x2 x3 x4 x5 x6 x7 => Sys2Proof.Machine.execMemRead x1 x2 x3 x4 x5 x6 x7 s
  | .memWrite x1 x2 x3 x4 x5 x6 x7 x8 => Sys2Proof.Machine.execMemWrite x1 x2 x3 x4 x5 x6 x7 x8 s
  | .duskEnter x1 => Sys2Proof.Machine.execDuskEnter x1 s
  | .duskQuiesce => Sys2Proof.Machine.execDuskQuiesce s
  | .powerStatus x1 => Sys2Proof.Machine.execPowerStatus x1 s
  | .logRead x1 x2 x3 => Sys2Proof.Machine.execLogRead x1 x2 x3 s
  | .counterRead x1 x2 x3 => Sys2Proof.Machine.execCounterRead x1 x2 x3 s
  | .fwInfo x1 => Sys2Proof.Machine.execFwInfo x1 s
  | .fwChunk x1 x2 x3 x4 x5 x6 => Sys2Proof.Machine.execFwChunk x1 x2 x3 x4 x5 x6 s
  | .fwActivate x1 => Sys2Proof.Machine.execFwActivate x1 s
  | .resultPosting x1 => Sys2Proof.Machine.execResultPosting x1 s
  | .irqModerationTimeout x1 x2 => Sys2Proof.Machine.execIrqModerationTimeout x1 x2 s
  -- the host-link domain (R426, R448, ...)
  | .crtailDoorbell x1 x2 => Sys2Proof.Machine.execCrtailDoorbell x1 x2 s
  | .rrheadDoorbell x1 x2 => Sys2Proof.Machine.execRrheadDoorbell x1 x2 s
  | .cren x1 x2 => Sys2Proof.Machine.execCren x1 x2 s
  | .rren x1 x2 => Sys2Proof.Machine.execRren x1 x2 s
  | .wake => Sys2Proof.Machine.execWake s
  | .wakeComplete => Sys2Proof.Machine.execWakeComplete s
  | .functionLevelReset x1 => Sys2Proof.Machine.execFunctionLevelReset x1 s
  | .vfDisable => Sys2Proof.Machine.execVfDisable s
  | .d3hotEntry x1 => Sys2Proof.Machine.execD3hotEntry x1 s
  | .d3hotToD0 x1 => Sys2Proof.Machine.execD3hotToD0 x1 s
  | .linkDown => Sys2Proof.Machine.execLinkDown s
  | .linkRetrain x1 x2 => Sys2Proof.Machine.execLinkRetrain x1 x2 s
  | .pcieError x1 => Sys2Proof.Machine.execPcieError x1 s
  -- lanes and modules
  | .mpresNChange x1 x2 => Sys2Proof.Machine.execMpresNChange x1 x2 s
  | .assayRecordRead x1 x2 => Sys2Proof.Machine.execAssayRecordRead x1 x2 s
  | .malertNAsserted x1 x2 => Sys2Proof.Machine.execMalertNAsserted x1 x2 s
  | .trainingWindowOpen x1 => Sys2Proof.Machine.execTrainingWindowOpen x1 s
  | .laneFramed x1 x2 => Sys2Proof.Machine.execLaneFramed x1 x2 s
  | .trainingWindowClose x1 => Sys2Proof.Machine.execTrainingWindowClose x1 s
  | .retryWindowTimer x1 => Sys2Proof.Machine.execRetryWindowTimer x1 s
  | .earlySignalDetected x1 => Sys2Proof.Machine.execEarlySignalDetected x1 s
  | .dataCodewordReceived x1 x2 => Sys2Proof.Machine.execDataCodewordReceived x1 x2 s
  | .fillCodewordReceived x1 x2 x3 => Sys2Proof.Machine.execFillCodewordReceived x1 x2 x3 s
  | .lateBlockDeadline x1 => Sys2Proof.Machine.execLateBlockDeadline x1 s
  | .timeMarkSend x1 => Sys2Proof.Machine.execTimeMarkSend x1 s
  | .stimulusCodewordSend x1 => Sys2Proof.Machine.execStimulusCodewordSend x1 s
  | .controlResendTimeout x1 => Sys2Proof.Machine.execControlResendTimeout x1 s
  | .laneEclipse x1 x2 => Sys2Proof.Machine.execLaneEclipse x1 x2 s
  | .dlCodewordReceived x1 x2 => Sys2Proof.Machine.execDlCodewordReceived x1 x2 s
  -- calibration
  | .epochEnd x1 x2 => Sys2Proof.Machine.execEpochEnd x1 x2 s
  | .shadowBuildComplete x1 x2 => Sys2Proof.Machine.execShadowBuildComplete x1 x2 s
  | .injectResendTimeout x1 => Sys2Proof.Machine.execInjectResendTimeout x1 s
  | .positionSolveStart x1 => Sys2Proof.Machine.execPositionSolveStart x1 s
  | .solveComplete x1 x2 => Sys2Proof.Machine.execSolveComplete x1 x2 s
  -- resets, start-up and faults
  | .powerUpReset => Sys2Proof.Machine.execPowerUpReset s
  | .perstAsserted => Sys2Proof.Machine.execPerstAsserted s
  | .vinBrownOut => Sys2Proof.Machine.execVinBrownOut s
  | .resetRelease => Sys2Proof.Machine.execResetRelease s
  | .geodeSelfTestComplete x1 x2 => Sys2Proof.Machine.execGeodeSelfTestComplete x1 x2 s
  | .ready => Sys2Proof.Machine.execReady s
  | .hubReset => Sys2Proof.Machine.execHubReset s
  | .hubResetComplete => Sys2Proof.Machine.execHubResetComplete s
  | .geodeReset x1 => Sys2Proof.Machine.execGeodeReset x1 s
  | .tempRefresh x1 => Sys2Proof.Machine.execTempRefresh x1 s
  | .thermalTrip => Sys2Proof.Machine.execThermalTrip s
  | .timerefLoss => Sys2Proof.Machine.execTimerefLoss s
  | .refclkFault => Sys2Proof.Machine.execRefclkFault s
  -- time inputs
  | .ppsEdge x1 => Sys2Proof.Machine.execPpsEdge x1 s
  | .ppsLockTimeout => Sys2Proof.Machine.execPpsLockTimeout s
  | .irigBFrame x1 x2 => Sys2Proof.Machine.execIrigBFrame x1 x2 s
  | .ppsOutPulse => Sys2Proof.Machine.execPpsOutPulse s
  -- bench monitor and JTAG (R480–R489)
  | .uartByteReceived x1 x2 => Sys2Proof.Machine.execUartByteReceived x1 x2 s
  | .ver x1 => Sys2Proof.Machine.execVer x1 s
  | .state x1 => Sys2Proof.Machine.execState x1 s
  | .mr x1 x2 x3 => Sys2Proof.Machine.execMr x1 x2 x3 s
  | .mw x1 x2 x3 => Sys2Proof.Machine.execMw x1 x2 x3 s
  | .reg x1 x2 x3 x4 x5 => Sys2Proof.Machine.execReg x1 x2 x3 x4 x5 s
  | .halt x1 x2 => Sys2Proof.Machine.execHalt x1 x2 s
  | .monitorRun x1 x2 => Sys2Proof.Machine.execMonitorRun x1 x2 s
  | .step x1 x2 x3 => Sys2Proof.Machine.execStep x1 x2 x3 s
  | .brk x1 x2 x3 x4 => Sys2Proof.Machine.execBrk x1 x2 x3 x4 s
  | .attn x1 x2 => Sys2Proof.Machine.execAttn x1 x2 s
  | .lode x1 x2 x3 x4 => Sys2Proof.Machine.execLode x1 x2 x3 x4 s
  | .log x1 x2 x3 => Sys2Proof.Machine.execLog x1 x2 x3 s
  | .ctr x1 x2 x3 => Sys2Proof.Machine.execCtr x1 x2 x3 s
  | .fuse x1 x2 x3 => Sys2Proof.Machine.execFuse x1 x2 x3 s
  | .faultrec x1 x2 => Sys2Proof.Machine.execFaultrec x1 x2 s
  | .resetDev x1 => Sys2Proof.Machine.execResetDev x1 s
  | .resetHub x1 => Sys2Proof.Machine.execResetHub x1 s
  | .resetG x1 x2 => Sys2Proof.Machine.execResetG x1 x2 s
  | .resetC x1 x2 x3 => Sys2Proof.Machine.execResetC x1 x2 x3 s
  | .bypass x1 => Sys2Proof.Machine.execBypass x1 s
  | .idcode => Sys2Proof.Machine.execIdcode s
  | .samplePreload x1 => Sys2Proof.Machine.execSamplePreload x1 s
  | .extest x1 => Sys2Proof.Machine.execExtest x1 s
  | .debug => Sys2Proof.Machine.execDebug s
  -- the rest of the table
  | .flowControlCreditUpdate x1 => Sys2Proof.Machine.execFlowControlCreditUpdate x1 s
  | .configurationRequest x1 => Sys2Proof.Machine.execConfigurationRequest x1 s
  | .malertNDeasserted x1 => Sys2Proof.Machine.execMalertNDeasserted x1 s
  | .laneReferenceRestored => Sys2Proof.Machine.execLaneReferenceRestored s
  | .geodeResetComplete x1 => Sys2Proof.Machine.execGeodeResetComplete x1 s
  | .geodeMailboxMessage x1 x2 => Sys2Proof.Machine.execGeodeMailboxMessage x1 x2 s

end Sys2Proof.Machine
end

