-- ==== Sys2Proof/Safety.lean ====
section
/-! DEFINITION. The words in which claims are stated: the canonical form of memories, the shape of the device, a core
that stands ready to issue one operation as a bundle of its own, and the state that such an issue leaves. -/

namespace Sys2Proof.Machine
open Sys2Proof

/-! ### Memories and shape -/

/-- A memory is in canonical form: addresses rising, none listed with the value an unlisted one reads as. -/
def Memory.wf {w : Nat} (m : EMem w) : Bool := smWf m.cells

/-- Every memory of the device is in canonical form. -/
def State.memWf (s : State) : Bool :=
  s.cores.all (fun c => Memory.wf c.x && Memory.wf c.y && Memory.wf c.imem) &&
  s.geodes.all (fun g => Memory.wf g.mem) && Memory.wf s.hub.mem

/-- The device has the parts that R22, R356 and R424 give it. -/
def State.shape (s : State) : Bool :=
  s.cores.length == 81 && s.geodes.length == 8 && s.quads.length == 8 && s.poss.length == 32 && s.fns.length == 8

/-! ### A core that stands ready -/

/-- The operation `op` at site `i` is a whole bundle for its core `c`, whose thread `k` is `t`: the core takes operations,
nothing of the pipeline holds or confines the bundle, no result falls due, and no error lies in its memories. -/
structure Quiet (s : State) (i : Site) (op : Instr) (k : Nat) (c : Core) (t : Thread) : Prop where
  /-- The operation ends its bundle, with no reserved bit set, and is short only where it has a short form. -/
  last : i.fin = .last
  bits : i.rsv = false
  form : i.short = true → shortForm op = true
  /-- The core, its running thread, and that it takes operations and goes on with the same thread. -/
  core : s.cores[coreIdx i.core]? = some c
  thread : c.threads[k]? = some t
  run : c.run = .lvl k
  takes : takes c = true
  ready : readyLevel c k = true
  asm : c.asm = []
  ghost : c.ghost = []
  /-- No breakpoint, no STEP under way. -/
  brk : breakHere c t.pc = false
  steps : c.stepLeft = none
  /-- No result of the thread is due in its issue cycle, and no unit owes one. -/
  due : ∀ p ∈ t.flight, t.adv < p.due
  divu : c.divu = none
  fdivu : c.fdivu = none
  /-- The bundle stands in no delay slot, no REP, at no loop's tail, and within instruction memory. -/
  dslot : t.dslot = none
  rep : t.rep = none
  micro : t.micro = none
  loop0 : t.loop0.act = false
  loop1 : t.loop1.act = false
  past : t.past = false
  room : t.pc.toNat + i.syl.toNat + 1 ≤ 0x4000
  /-- No trap and no stop waits. -/
  trap : t.trapDue = none
  stop : t.stopReq = false
  /-- The store buffer and the request queue are empty. -/
  sb : c.sb = []
  waiting : (s.outside i.core).waiting = 0
  late : c.lateReqs = []
  marks : c.markOut = []
  /-- No error is marked in the core's memories, and its counters are below their limits. -/
  imem : c.imem.corr = [] ∧ c.imem.unc = []
  xmem : c.x.corr = [] ∧ c.x.unc = []
  ymem : c.y.corr = [] ∧ c.y.unc = []
  tables : c.tblE = {} ∧ c.udtE = {}
  ecc : c.eccCorr < 2 ^ 16
  issued : c.issued + 2 < 2 ^ 48

/-- The view that an operation of that bundle has (R65). -/
def viewOf (i : Site) (op : Instr) (k : Nat) (c : Core) (t : Thread) : IssueCtx :=
  { c := { c with asm := [op] }, tid := k, t := t, pc := t.pc, size := i.syl.toNat + 1 }

/-- A level at which vector operations are legal, with the vector unit powered (R110, R182). -/
def VecReady (c : Core) (k : Nat) : Prop := (c.kind = .signal → k < 2) ∧ c.vpow = true

/-- The F file holds the thread's F state (R136); a context has its own (R139). -/
def FReady (c : Core) (k : Nat) (t : Thread) : Prop :=
  c.kind = .signal → bitOf t.stat 12 = true ∧ c.fownv = true ∧ c.fown = k

/-- The F register as the thread reads it (R103, R139). -/
def fRead (c : Core) (t : Thread) (n : Nat) : DWord :=
  match c.kind with
  | .signal => smGet c.f n
  | _ => smGet t.f n

/-! ### The state that the issue leaves -/

/-- The landings of writes, each with its latency, by a bundle that thread `t` issues now (R65). -/
def pends (t : Thread) (ws : List (RegW × Nat)) : List Pend := ws.map (fun w => ⟨t.adv + w.2, t.seq, w.1⟩)

/-- The thread behind a bundle of `n` syllables that transfers no control: one advancing cycle later, at the next
address, its results on their way (R59, R64, R65). -/
def nextThread (n : Nat) (ws : List (RegW × Nat)) (t : Thread) : Thread :=
  { t with
    pc := BitVec.ofNat 14 (t.pc.toNat + n)
    past := decide (0x3FFF < t.pc.toNat + n)
    adv := t.adv + 1
    seq := t.seq + 1
    flight := t.flight ++ pends t ws }

/-- The core behind one bundle: the bundle is gone, one bundle and one cycle are counted. -/
def nextCore (c : Core) : Core := ({ c.leaveRd with issued := c.issued + 1 } : Core).spend 1

/-- The device behind the bundle of site `i` of thread `k`: `ws` on their way, `g` what else the core changes. -/
def issuedWith (s : State) (i : Site) (k : Nat) (ws : List (RegW × Nat)) (g : Core → Core) : State :=
  s.onCore i.core (fun c => onThread (nextCore (g c)) k (nextThread (i.syl.toNat + 1) ws))

/-- Stores to X (false) and Y (true) memory, first to last (R248). -/
def withStores (ms : List (Bool × Nat × Word)) (c : Core) : Core :=
  ms.foldl (fun d m => if m.1 then { d with y := d.y.write m.2.1 m.2.2 } else { d with x := d.x.write m.2.1 m.2.2 }) c

/-- The device behind a bundle that only writes registers. -/
def landing (s : State) (i : Site) (k : Nat) (ws : List (RegW × Nat)) : State := issuedWith s i k ws (fun c => c)

/-- Requests and page requests wait at the geode of a core; the hub's own loads are served at once (R256, R260, R266). -/
def withRequests (s : State) (r : CoreRef) (reqs greqs : List MemReq) (pages : List PageReq) : State :=
  match coreGeode r with
  | some g => s.onGeode g (fun x =>
      { x with reqs := x.reqs ++ reqs, greqs := x.greqs ++ greqs, pageReqs := x.pageReqs ++ pages })
  | none => s.serveHub greqs

/-! ### What an operation completes with -/

/-- Where `P` holds of a ready core and its thread, the operation completes, and its writes `ws` are all it leaves. -/
def Completes (op : Site → Instr) (P : Core → Nat → Thread → Prop) (ws : Core → Nat → Thread → List (RegW × Nat)) : Prop :=
  ∀ (s : State) (i : Site) (k : Nat) (c : Core) (t : Thread), Quiet s i (op i) k c t → P c k t →
    exec (op i) s = .next (landing s i k (ws c k t))

/-- An operation that completes on every ready core. -/
def CompletesAlways (op : Site → Instr) (ws : Thread → List (RegW × Nat)) : Prop :=
  Completes op (fun _ _ _ => True) (fun _ _ t => ws t)

/-- The writes of Dn and of the pair Dk+1:Dk (R104), landing after `lat` advancing cycles. -/
def dTo (t : Thread) (n : Nat) (v : Word) (lat : Nat) : RegW × Nat := (.d (dPhys t.wpos n) v, lat)
def pairTo (t : Thread) (k : Nat) (v : DWord) (lat : Nat) : List (RegW × Nat) :=
  [dTo t k (v.truncate 14) lat, dTo t (k + 1) ((v >>> 14).truncate 14) lat]

/-- Flag writes. -/
def flagsTo (fl : List (FlagId × Bool)) (lat : Nat) : List (RegW × Nat) := fl.map (fun p => (.flag p.1 p.2, lat))

/-- N and Z describe the wrapped result `e` at width `w`, V says that `e` does not fit (R148). -/
def flagsNZ (w : Nat) (e : Int) : List (FlagId × Bool) :=
  [(.n, decide (wrapped e w < 0)), (.z, decide (wrapped e w = 0))]
def flagsNZV (w : Nat) (e : Int) : List (FlagId × Bool) := flagsNZ w e ++ [(.v, !fits e w)]
def flagsNZCV (w : Nat) (e : Int) (cy : Bool) : List (FlagId × Bool) := flagsNZ w e ++ [(.c, cy), (.v, !fits e w)]

/-- The exact result `e` reduced to `w` bits under MODE.SAT (R146). -/
def fitted (t : Thread) (w : Nat) (e : Int) : BitVec w := BitVec.ofInt w (fit t.sat e w).1

/-- The record that a trap of operation `opc` with destination `dst` and operands `a`, `b`, `d` would leave (R217); none
at level L3, where no trap is made due (R216). -/
def trapRecord (c : Core) (k : Nat) (t : Thread) (opc dst : Nat) (a b d : DWord) : FRec :=
  if c.kind = .signal ∧ k = 3 then {}
  else
    { fxpc := t.pc
      fxop := BitVec.ofNat 14 ((if c.kind = .signal then k else 0) * 512 + dst * 16 + opc)
      fxa := a, fxb := b, fxc := d }

/-- The FSTAT flags of an F28 result, with that record; none where the result sets none (R206, R215, R216). -/
def fFlagWrites (c : Core) (k : Nat) (t : Thread) (r : FOut) (opc dst : Nat) (a b d : DWord) : List RegW :=
  if r.bits = 0 ∧ (r.sub && !t.fsub) = false then []
  else [.fflags r.bits (r.sub && !t.fsub) (trapRecord c k t opc dst a b d)]

/-! ### Addresses and threads that claims name -/

/-- The core-local word at an address for the slot that accesses it: X memory through slot A0, Y memory through A1
(R245, R247); none elsewhere. -/
def localPlace (sl : ASlot) (ea : AWord) : Option (Bool × Nat) :=
  match sl with
  | .a0 => if ea.toNat < 0x10000 then some (false, ea.toNat) else none
  | .a1 => if 0x10000 ≤ ea.toNat ∧ ea.toNat < 0x20000 then some (true, ea.toNat - 0x10000) else none

/-- The word there. -/
def localRead (c : Core) (p : Bool × Nat) : Word := if p.1 then smGet c.y.cells p.2 else smGet c.x.cells p.2

/-- The post-update of An, and CB where it leaves the circular buffer (R250, R251). -/
def postWrites (n : Nat) (post : Option AWord) (cb : Bool) : List (RegW × Nat) :=
  (match post with | some a => [(.a n a, 1)] | none => []) ++ (if cb then [(.sticky .cb, 1)] else [])

/-- Thread `k` of a core of the device. -/
def State.threadAt (s : State) (r : CoreRef) (k : Nat) : Option Thread :=
  (s.cores[coreIdx r]?).bind (fun c => c.threads[k]?)

/-- The registers of a bank that bundles write through results on their way alone (R65): all but the program counter, the
window and loop state and the pipeline's own fields. -/
def sameBank (t u : Thread) : Prop :=
  u.a = t.a ∧ u.m = t.m ∧ u.b = t.b ∧ u.l = t.l ∧ u.ac = t.ac ∧ u.v = t.v ∧ u.va = t.va ∧ u.f = t.f ∧
    u.fstat = t.fstat ∧ u.frec = t.frec ∧ u.mode = t.mode ∧ u.vl = t.vl ∧ u.vstart = t.vstart

/-! ### Commands of the host -/

/-- The hub serves the command: it runs, the device is READY, and JOB is as R431 wants it (R440, R441). -/
def State.serves (s : State) (h : CmdHdr) (job : Bool) : Prop :=
  s.hubUp = true ∧ s.aon.devstate = .ready ∧ jobFieldOk job h.job = true

/-- The command is answered with a status and a payload; the rest of the device is as it was, but for free values used. -/
def State.answered (s : State) (h : CmdHdr) (opcode : Nat) (status : U16) (payload : List Byte) (used : Nat) : State :=
  ({ s.takeFetched h opcode with free := s.free + used }).reply h status payload

end Sys2Proof.Machine
end

