-- ==== Sys2Proof/WellFormed.lean ====
section
/-! DEFINITION. Well-formed commands: the terms of `Instr` that something of the device, a partner or an encoding of
the spec can spell. The meanings need none of it. -/

namespace Sys2Proof

/-! ### Operations of cores -/

/-- A bundle without its S bit ends with its eighth syllable (R59). -/
def Site.ok (i : Site) : Bool := i.fin != .unended || i.syl == 7

/-- The operation has a short form (R232). -/
def hasShort : Instr → Bool
  | .ld _ _ | .st _ _ | .add _ (.reg _) | .sub _ (.reg _) | .cmp _ (.reg _) | .and _ _ | .or _ _ | .xor _ _ | .mov _ _
  | .neg _ _ | .min _ _ | .max _ _ | .vadd _ _ | .vsub _ _ | .vaddh _ _ | .vsubh _ _ | .vmov _ _ | .vmulj _ _ | .vconj _ _
  | .fadd _ _ | .fsub _ _ | .fmul _ _ | .fmov _ _ | .fneg _ _ | .fabs _ _ | .fbar _ | .nop _ | .waite _ | .signal _ _
  | .barp _ _ | .flushp _ | .rte _ | .ret _ _ | .reto _ _ => true
  | _ => false

/-- Rows that share their opcode: a right shift has a negative amount, and only a start form has B = 01 (R150, R190,
R227, R228). -/
def formOk : Instr → Bool
  | .lsl _ f | .asl _ f | .vlsl _ f | .vasl _ f => decide (f.i.toNat < 32)
  | .lsr _ f | .asr _ f | .vlsr _ f | .vasr _ f => decide (32 ≤ f.i.toNat)
  | .expdS _ f | .vexpdS _ f | .vmaxirS _ f | .vminirS _ f | .vmaxiaS _ f | .vminiaS _ f => f.b == 1
  | .expd _ f | .vexpd _ f | .vmaxir _ f | .vminir _ f | .vmaxia _ f | .vminia _ f => f.b != 1
  | _ => true

/-- The site of an operation. -/
def siteOf : Instr → Option Site
  | .ld i _ => some i
  | .ldD i _ => some i
  | .st i _ => some i
  | .stD i _ => some i
  | .vld i _ => some i
  | .vst i _ => some i
  | .vlds i _ => some i
  | .vsts i _ => some i
  | .vldx i _ => some i
  | .vstx i _ => some i
  | .aadd i _ => some i
  | .aaddi i _ _ _ => some i
  | .amv i _ _ _ => some i
  | .amovl i _ _ _ => some i
  | .amovh i _ _ _ => some i
  | .palloc i _ => some i
  | .pfree i _ => some i
  | .add i _ => some i
  | .adc i _ => some i
  | .sub i _ => some i
  | .sbc i _ => some i
  | .cmp i _ => some i
  | .neg i _ => some i
  | .abs i _ => some i
  | .min i _ => some i
  | .max i _ => some i
  | .minu i _ => some i
  | .maxu i _ => some i
  | .and i _ => some i
  | .or i _ => some i
  | .xor i _ => some i
  | .andn i _ => some i
  | .not i _ => some i
  | .mov i _ => some i
  | .movi i _ _ => some i
  | .addD i _ => some i
  | .adcD i _ => some i
  | .subD i _ => some i
  | .sbcD i _ => some i
  | .cmpD i _ => some i
  | .negD i _ => some i
  | .movD i _ => some i
  | .mvad i _ => some i
  | .lsh i _ => some i
  | .ash i _ => some i
  | .lsl i _ => some i
  | .lsr i _ => some i
  | .asl i _ => some i
  | .asr i _ => some i
  | .lshD i _ => some i
  | .ashD i _ => some i
  | .mpy i _ => some i
  | .mac i _ => some i
  | .msu i _ => some i
  | .cmpy i _ => some i
  | .cmac i _ => some i
  | .cmacj i _ => some i
  | .adda i _ => some i
  | .suba i _ => some i
  | .nega i _ => some i
  | .asha i _ => some i
  | .clra i _ => some i
  | .mvp i _ => some i
  | .mulf i _ => some i
  | .mulD i _ => some i
  | .mvr i _ => some i
  | .mvi i _ => some i
  | .expd i _ => some i
  | .expdS i _ => some i
  | .div i _ => some i
  | .divu i _ => some i
  | .dadd i _ => some i
  | .dsub i _ => some i
  | .daj i _ => some i
  | .mvs i _ _ _ => some i
  | .tget i _ => some i
  | .vadd i _ => some i
  | .vsub i _ => some i
  | .vadds i _ => some i
  | .vsubs i _ => some i
  | .vaddh i _ => some i
  | .vsubh i _ => some i
  | .vneg i _ => some i
  | .vabs i _ => some i
  | .vmin i _ => some i
  | .vmax i _ => some i
  | .vand i _ => some i
  | .vor i _ => some i
  | .vxor i _ => some i
  | .vandn i _ => some i
  | .vlsh i _ => some i
  | .vash i _ => some i
  | .vlsl i _ => some i
  | .vlsr i _ => some i
  | .vasl i _ => some i
  | .vasr i _ => some i
  | .vmulf i _ => some i
  | .vcmulf i _ => some i
  | .vcmuljf i _ => some i
  | .vconj i _ => some i
  | .vmulj i _ => some i
  | .vswri i _ => some i
  | .vmov i _ => some i
  | .vbcast i _ => some i
  | .vbcastc i _ => some i
  | .vperm i _ => some i
  | .vslide i _ _ _ _ => some i
  | .vzip i _ => some i
  | .vunz i _ => some i
  | .vext i _ => some i
  | .vins i _ => some i
  | .vmpy i _ => some i
  | .vmac i _ => some i
  | .vmsu i _ => some i
  | .vmacs i _ => some i
  | .vmpyp i _ => some i
  | .vmacp i _ => some i
  | .vcmpy i _ => some i
  | .vcmac i _ => some i
  | .vcmacj i _ => some i
  | .vcmacs i _ => some i
  | .vclra i _ => some i
  | .vmvr i _ => some i
  | .vmvi i _ => some i
  | .vexpd i _ => some i
  | .vexpdS i _ => some i
  | .vmaxi i _ => some i
  | .vmini i _ => some i
  | .vmaxir i _ => some i
  | .vminir i _ => some i
  | .vmaxirS i _ => some i
  | .vminirS i _ => some i
  | .vmaxia i _ => some i
  | .vminia i _ => some i
  | .vmaxiaS i _ => some i
  | .vminiaS i _ => some i
  | .setvl i _ => some i
  | .setvlImmediate i _ => some i
  | .fadd i _ => some i
  | .fsub i _ => some i
  | .fmul i _ => some i
  | .fma i _ => some i
  | .fdiv i _ => some i
  | .fsqrt i _ => some i
  | .fmin i _ => some i
  | .fmax i _ => some i
  | .fcmp i _ => some i
  | .fcmpe i _ => some i
  | .fcvtFD i _ => some i
  | .fcvtFDD i _ => some i
  | .fcvtDF i _ => some i
  | .fcvtDDF i _ => some i
  | .fmov i _ => some i
  | .fneg i _ => some i
  | .fabs i _ => some i
  | .fmvf i _ => some i
  | .fmvd i _ => some i
  | .fkind i _ => some i
  | .fbar i => some i
  | .nop i => some i
  | .bCc i _ _ _ => some i
  | .bra i _ _ => some i
  | .call i _ _ => some i
  | .callo i _ _ => some i
  | .jmp i _ _ => some i
  | .callAn i _ _ => some i
  | .calloAn i _ _ => some i
  | .ret i _ => some i
  | .reto i _ => some i
  | .rte i => some i
  | .loop i _ => some i
  | .rep i _ => some i
  | .barp i _ => some i
  | .flushp i => some i
  | .signal i _ => some i
  | .waite i => some i
  | .tstart i _ _ => some i
  | .tresume i _ => some i
  | .tstop i _ => some i
  | .tset i _ => some i
  | .userDecodeOperation i _ _ _ _ _ => some i
  | _ => none

/-! ### Events and commands -/

/-- A geode engine has 16 channels (R279). -/
def Eng.has : Eng → Fin 32 → Bool
  | .geode _, n => decide (n.val < 16)
  | .host, _ => true

/-- The code corrects at most 15 symbols (R351). -/
def Codeword.ok : Codeword → Bool
  | .decoded _ corrected => decide (corrected ≤ 15)
  | .uncorrectable => true

/-- A supervisor has 8 contexts, and a signal core none (R139, R482). -/
def Target.ok (t : Target) : Bool :=
  match t.core, t.ctx with
  | .sig _ _, some _ => false
  | .sup _, some k => decide (k.val < 8)
  | _, _ => true

/-- A core with contexts. -/
def CoreRef.isS : CoreRef → Bool
  | .sig _ _ => false
  | _ => true

/-- What the operands of an event or a command must satisfy. -/
def operandsOk : Instr → Bool
  | .contextDispatch c => c.isS
  | .start e n | .disable e n | .cqheadWrite e n _ | .dmaInstructionFetch e n | .move e n | .drainBeat e n | .dmaLoop e n
  | .endl e n | .dmaWait e n | .dmaSignal e n | .dmaRec e n | .dmaHalt e n | .recordBeat e n => e.has n
  | .dmaCommandReserved e n cmd => e.has n && decide (3 ≤ cmd.toNat)
  | .hostReadCompletion _ ⟨_, .failed c⟩ => decide (2 ≤ c.toNat) && decide (c.toNat ≤ 4)
  | .laneConfig _ _ _ lcfg => lcfg.length == 4
  | .assayRecordRead _ (.bytes b) => b.length == 384
  | .malertNAsserted _ bs => decide (bs.length ≤ 4)
  | .laneFramed _ rate => rate != 3
  | .dataCodewordReceived _ cw | .dlCodewordReceived _ cw => cw.ok
  | .linkRetrain gen width => decide (1 ≤ gen) && decide (gen ≤ 5) && (width == 1 || width == 2 || width == 4)
  | .ppsEdge err => decide (err.natAbs ≤ 500000000)
  | .reg _ t _ _ _ | .halt _ t | .monitorRun _ t | .step _ t _ | .brk _ t _ _ | .attn _ t => t.ok
  | _ => true

/-- A command that can come (R15, R59, R223, R232, R279, R283, R353, R482). -/
def Instr.wellFormed (op : Instr) : Bool :=
  (match siteOf op with
   | some i => i.ok && (!i.short || hasShort op)
   | none => true) && formOk op && operandsOk op

end Sys2Proof
end

