-- ==== Sys2Proof/Certificates/Slice0/Obligations.lean ====
section
/-! DEFINITION. The statements for the provers: what the commands of each family do, what they leave unchanged, what
resets leave, and what every step keeps. Each docstring names the rules of spec/ that the statement rests on. -/

open Sys2Proof Sys2Proof.Machine

/-! ### The D family -/

/-- R148, R150: the word forms of ADD, ADC, SUB, SBC, CMP, NEG and ABS complete with the fitted exact result, the
flags of the wrapped result, the carry of the unsigned operands, and nothing else. R148, R150: minimum, maximum and
logic write the result with N, Z and V = 0, C unchanged; the moves write no flag. -/
def Obligations.WordOperations : Prop :=
  (
    ∀ (f : R3) (imm : BitVec 8), f.b = 0 →
      CompletesAlways (fun i => .add i (.reg f)) (fun t =>
        let a := t.rd f.y.toNat; let b := t.rd f.z.toNat; let e := a.toInt + b.toInt
        dTo t f.x.toNat (fitted t 14 e) 1 :: flagsTo (flagsNZCV 14 e (decide (2 ^ 14 ≤ a.toNat + b.toNat))) 1) ∧
      CompletesAlways (fun i => .add i (.imm f.x f.y imm)) (fun t =>
        let a := t.rd f.y.toNat; let e := a.toInt + imm.toInt
        dTo t f.x.toNat (fitted t 14 e) 1 ::
          flagsTo (flagsNZCV 14 e (decide (2 ^ 14 ≤ a.toNat + (imm.signExtend 14).toNat))) 1) ∧
      CompletesAlways (fun i => .adc i f) (fun t =>
        let a := t.rd f.y.toNat; let b := t.rd f.z.toNat; let e := a.toInt + b.toInt + b2n t.flagC
        dTo t f.x.toNat (fitted t 14 e) 1 :: flagsTo (flagsNZCV 14 e (decide (2 ^ 14 ≤ a.toNat + b.toNat + b2n t.flagC))) 1) ∧
      CompletesAlways (fun i => .sub i (.reg f)) (fun t =>
        let a := t.rd f.y.toNat; let b := t.rd f.z.toNat; let e := a.toInt - b.toInt
        dTo t f.x.toNat (fitted t 14 e) 1 :: flagsTo (flagsNZCV 14 e (decide (b.toNat ≤ a.toNat))) 1) ∧
      CompletesAlways (fun i => .sub i (.imm f.x f.y imm)) (fun t =>
        let a := t.rd f.y.toNat; let e := a.toInt - imm.toInt
        dTo t f.x.toNat (fitted t 14 e) 1 :: flagsTo (flagsNZCV 14 e (decide ((imm.signExtend 14).toNat ≤ a.toNat))) 1) ∧
      CompletesAlways (fun i => .sbc i f) (fun t =>
        let a := t.rd f.y.toNat; let b := t.rd f.z.toNat; let e := a.toInt - b.toInt - (1 - b2n t.flagC)
        dTo t f.x.toNat (fitted t 14 e) 1 ::
          flagsTo (flagsNZCV 14 e (decide (b.toNat + (1 - b2n t.flagC) ≤ a.toNat))) 1) ∧
      (f.x = 0 → CompletesAlways (fun i => .cmp i (.reg f)) (fun t =>
        let a := t.rd f.y.toNat; let b := t.rd f.z.toNat
        flagsTo (flagsNZCV 14 (a.toInt - b.toInt) (decide (b.toNat ≤ a.toNat))) 1)) ∧
      CompletesAlways (fun i => .cmp i (.imm f.y imm)) (fun t =>
        let a := t.rd f.y.toNat
        flagsTo (flagsNZCV 14 (a.toInt - imm.toInt) (decide ((imm.signExtend 14).toNat ≤ a.toNat))) 1) ∧
      (f.z = 0 → CompletesAlways (fun i => .neg i f) (fun t =>
        let a := t.rd f.y.toNat
        dTo t f.x.toNat (fitted t 14 (-a.toInt)) 1 :: flagsTo (flagsNZCV 14 (-a.toInt) (decide (a = 0))) 1)) ∧
      (f.z = 0 → CompletesAlways (fun i => .abs i f) (fun t =>
        let a := t.rd f.y.toNat
        dTo t f.x.toNat (fitted t 14 |a.toInt|) 1 :: flagsTo (flagsNZV 14 |a.toInt|) 1))) ∧
  (
    ∀ (f : R3) (imm : Word),
      let logic : Thread → Word → List (RegW × Nat) := fun t r =>
        dTo t f.x.toNat r 1 :: flagsTo [(.n, r.msb), (.z, r == 0), (.v, false)] 1
      let s : Thread → Word := fun t => t.rd f.y.toNat
      let u : Thread → Word := fun t => t.rd f.z.toNat
      (f.b = 0 →
        CompletesAlways (fun i => .min i f) (fun t => logic t (if (u t).toInt < (s t).toInt then u t else s t)) ∧
        CompletesAlways (fun i => .max i f) (fun t => logic t (if (s t).toInt < (u t).toInt then u t else s t)) ∧
        CompletesAlways (fun i => .minu i f) (fun t => logic t (if (u t).toNat < (s t).toNat then u t else s t)) ∧
        CompletesAlways (fun i => .maxu i f) (fun t => logic t (if (s t).toNat < (u t).toNat then u t else s t)) ∧
        CompletesAlways (fun i => .and i f) (fun t => logic t (s t &&& u t)) ∧
        CompletesAlways (fun i => .or i f) (fun t => logic t (s t ||| u t)) ∧
        CompletesAlways (fun i => .xor i f) (fun t => logic t (s t ^^^ u t)) ∧
        CompletesAlways (fun i => .andn i f) (fun t => logic t (s t &&& ~~~u t))) ∧
      (f.b = 0 → f.z = 0 →
        CompletesAlways (fun i => .not i f) (fun t => logic t (~~~s t)) ∧
        CompletesAlways (fun i => .mov i f) (fun t => [dTo t f.x.toNat (s t) 1])) ∧
      CompletesAlways (fun i => .movi i f.x imm) (fun t => [dTo t f.x.toNat imm 1]) ∧
      (f.x.toNat % 2 = 0 → f.y.toNat < 16 → f.z = 0 →
        (f.b = 0 → CompletesAlways (fun i => .mvad i f) (fun t =>
          [(.a f.y.toNat ((t.rdd f.x.toNat).truncate 24), 1)])) ∧
        (f.b = 1 → CompletesAlways (fun i => .mvad i f) (fun t =>
          pairTo t f.x.toNat ((smGet t.a f.y.toNat).setWidth 28) 1))))

/-- R148, R150: the .D forms act on even pairs as the word forms do, at width 28. R152: register shifts take Dt[5:0]
as a signed count, immediate shifts the signed field; a left count m gives s · 2^m with the last bit shifted out in C,
a right count the floor of s / 2^m (arithmetic) or of the unsigned value. -/
def Obligations.PairArithmeticAndShifts : Prop :=
  (
    ∀ (f : R3), f.b = 0 → f.y.toNat % 2 = 0 →
      (f.x.toNat % 2 = 0 → f.z.toNat % 2 = 0 →
        CompletesAlways (fun i => .addD i f) (fun t =>
          let a := t.rdd f.y.toNat; let b := t.rdd f.z.toNat; let e := a.toInt + b.toInt
          pairTo t f.x.toNat (fitted t 28 e) 1 ++ flagsTo (flagsNZCV 28 e (decide (2 ^ 28 ≤ a.toNat + b.toNat))) 1) ∧
        CompletesAlways (fun i => .adcD i f) (fun t =>
          let a := t.rdd f.y.toNat; let b := t.rdd f.z.toNat; let e := a.toInt + b.toInt + b2n t.flagC
          pairTo t f.x.toNat (fitted t 28 e) 1 ++
            flagsTo (flagsNZCV 28 e (decide (2 ^ 28 ≤ a.toNat + b.toNat + b2n t.flagC))) 1) ∧
        CompletesAlways (fun i => .subD i f) (fun t =>
          let a := t.rdd f.y.toNat; let b := t.rdd f.z.toNat; let e := a.toInt - b.toInt
          pairTo t f.x.toNat (fitted t 28 e) 1 ++ flagsTo (flagsNZCV 28 e (decide (b.toNat ≤ a.toNat))) 1) ∧
        CompletesAlways (fun i => .sbcD i f) (fun t =>
          let a := t.rdd f.y.toNat; let b := t.rdd f.z.toNat; let e := a.toInt - b.toInt - (1 - b2n t.flagC)
          pairTo t f.x.toNat (fitted t 28 e) 1 ++
            flagsTo (flagsNZCV 28 e (decide (b.toNat + (1 - b2n t.flagC) ≤ a.toNat))) 1)) ∧
      (f.x = 0 → f.z.toNat % 2 = 0 → CompletesAlways (fun i => .cmpD i f) (fun t =>
        let a := t.rdd f.y.toNat; let b := t.rdd f.z.toNat
        flagsTo (flagsNZCV 28 (a.toInt - b.toInt) (decide (b.toNat ≤ a.toNat))) 1)) ∧
      (f.x.toNat % 2 = 0 → f.z = 0 →
        CompletesAlways (fun i => .negD i f) (fun t =>
          let a := t.rdd f.y.toNat
          pairTo t f.x.toNat (fitted t 28 (-a.toInt)) 1 ++ flagsTo (flagsNZCV 28 (-a.toInt) (decide (a = 0))) 1) ∧
        CompletesAlways (fun i => .movD i f) (fun t => pairTo t f.x.toNat (t.rdd f.y.toNat) 1))) ∧
  (
    ∀ (f : R3) (g : RI6),
      let flags : ∀ {w : Nat}, ShiftOut w → List (RegW × Nat) := fun r =>
        flagsTo ([(.n, r.r.msb), (.z, r.r == 0), (.v, r.v)] ++ (match r.c with | some b => [(.c, b)] | none => [])) 1
      let count : Thread → Int := fun t => ((t.rd f.z.toNat).truncate 6).toInt
      (f.b = 0 →
        CompletesAlways (fun i => .lsh i f) (fun t =>
          let r := shiftW false (t.rd f.y.toNat) (count t); dTo t f.x.toNat r.r 1 :: flags r) ∧
        CompletesAlways (fun i => .ash i f) (fun t =>
          let r := shiftW true (t.rd f.y.toNat) (count t); dTo t f.x.toNat r.r 1 :: flags r)) ∧
      (∀ op ∈ [fun i => Instr.lsl i g, fun i => .lsr i g], CompletesAlways op (fun t =>
        let r := shiftW false (t.rd g.y.toNat) g.i.toInt; dTo t g.x.toNat r.r 1 :: flags r)) ∧
      (∀ op ∈ [fun i => Instr.asl i g, fun i => .asr i g], CompletesAlways op (fun t =>
        let r := shiftW true (t.rd g.y.toNat) g.i.toInt; dTo t g.x.toNat r.r 1 :: flags r)) ∧
      (f.b = 0 → f.x.toNat % 2 = 0 → f.y.toNat % 2 = 0 →
        CompletesAlways (fun i => .lshD i f) (fun t =>
          let r := shiftW false (t.rdd f.y.toNat) (count t); pairTo t f.x.toNat r.r 1 ++ flags r) ∧
        CompletesAlways (fun i => .ashD i f) (fun t =>
          let r := shiftW true (t.rdd f.y.toNat) (count t); pairTo t f.x.toNat r.r 1 ++ flags r)))

/-- R148, R157–R160, R166: accumulator operations write the fitted exact value with latency 2, N, Z and V of it, and
set AV where it does not fit; CLRA writes 0 with latency 1 and no flag; MVP moves one 14-bit part. R148, R155, R157:
the complex operations write the real part to ACn and the imaginary part to ACn+1, with N of the real part, Z of both,
V and AV of either; outside wide mode. -/
def Obligations.AccumulatorOperations : Prop :=
  (
    ∀ (f : R3) (g : RI6),
      let acc : Thread → Int → List (RegW × Nat) := fun t e =>
        let w := accW t.wide
        (.ac f.x.toNat (accWrite t.wide (fit t.sat e w).1), 2) :: (flagsTo (flagsNZV w e) 2 ++
          (if fits e w then [] else [(.sticky .av, 2)]))
      let prod : Thread → Int := fun t =>
        if t.wide then wideRead (t.rdd f.y.toNat) * wideRead (t.rdd f.z.toNat)
        else (t.rd f.y.toNat).toInt * (t.rd f.z.toNat).toInt
      let old : Thread → Nat → Int := fun t n => accRead t.wide (smGet t.ac n)
      let fit3 : Core → Nat → Thread → Prop := fun _ _ t => t.wide = true → f.y.toNat % 2 = 0 ∧ f.z.toNat % 2 = 0
      (f.b = 0 → f.x.toNat < 8 →
        Completes (fun i => .mpy i f) fit3 (fun _ _ t => acc t (prod t)) ∧
        Completes (fun i => .mac i f) fit3 (fun _ _ t => acc t (old t f.x.toNat + prod t)) ∧
        Completes (fun i => .msu i f) fit3 (fun _ _ t => acc t (old t f.x.toNat - prod t)) ∧
        (f.y.toNat < 8 → f.z.toNat < 8 →
          CompletesAlways (fun i => .adda i f) (fun t => acc t (old t f.y.toNat + old t f.z.toNat)) ∧
          CompletesAlways (fun i => .suba i f) (fun t => acc t (old t f.y.toNat - old t f.z.toNat))) ∧
        (f.y.toNat < 8 → f.z = 0 → CompletesAlways (fun i => .nega i f) (fun t => acc t (-old t f.y.toNat))) ∧
        (f.y = 0 → f.z = 0 → CompletesAlways (fun i => .clra i f) (fun _ => [(.ac f.x.toNat 0, 1)]))) ∧
      (g.x.toNat < 8 → g.y.toNat < 8 → g.x = f.x → CompletesAlways (fun i => .asha i g) (fun t =>
        acc t (if 0 ≤ g.i.toInt then old t g.y.toNat * 2 ^ g.i.toInt.toNat
               else (old t g.y.toNat).fdiv (2 ^ g.i.toInt.natAbs)))) ∧
      (f.z.toNat < 4 → f.y.toNat < 8 →
        (f.b = 0 → CompletesAlways (fun i => .mvp i f) (fun t =>
          [dTo t f.x.toNat ((smGet t.ac f.y.toNat >>> (14 * f.z.toNat)).truncate 14) 1])) ∧
        (f.b = 1 → CompletesAlways (fun i => .mvp i f) (fun t =>
          [(.acPart f.y.toNat f.z.toNat (t.rd f.x.toNat) t.wide, 1)])))) ∧
  (
    ∀ (f : R3), f.b = 0 → f.x.toNat < 8 → f.x.toNat % 2 = 0 → f.y.toNat % 2 = 0 → f.z.toNat % 2 = 0 →
      let a : Thread → Int := fun t => (t.rd f.y.toNat).toInt
      let b : Thread → Int := fun t => (t.rd (f.y.toNat + 1)).toInt
      let c : Thread → Int := fun t => (t.rd f.z.toNat).toInt
      let d : Thread → Int := fun t => (t.rd (f.z.toNat + 1)).toInt
      let old : Thread → Nat → Int := fun t n => accRead false (smGet t.ac n)
      let acc : Thread → Int → Int → List (RegW × Nat) := fun t re im =>
        [(.ac f.x.toNat (accWrite false (fit t.sat re 40).1), 2), (.ac (f.x.toNat + 1) (accWrite false (fit t.sat im 40).1), 2)] ++
          flagsTo [(.n, decide (wrapped re 40 < 0)), (.z, decide (wrapped re 40 = 0) && decide (wrapped im 40 = 0)),
            (.v, !fits re 40 || !fits im 40)] 2 ++ (if fits re 40 && fits im 40 then [] else [(.sticky .av, 2)])
      Completes (fun i => .cmpy i f) (fun _ _ t => t.wide = false) (fun _ _ t =>
        acc t (a t * c t - b t * d t) (a t * d t + b t * c t)) ∧
      Completes (fun i => .cmac i f) (fun _ _ t => t.wide = false) (fun _ _ t =>
        acc t (old t f.x.toNat + (a t * c t - b t * d t)) (old t (f.x.toNat + 1) + (a t * d t + b t * c t))) ∧
      Completes (fun i => .cmacj i f) (fun _ _ t => t.wide = false) (fun _ _ t =>
        acc t (old t f.x.toNat + (a t * c t + b t * d t)) (old t (f.x.toNat + 1) + (b t * c t - a t * d t))))

/-- R157, R163, R164, R166: MULF and the scaled moves round half up and fit to a word, or to a wide datum in wide
mode; MUL.D is exact; EXPD keeps the unsigned maximum in D7 and EXPD.S replaces it. R174: decimal addition and
subtraction digit by digit, with the decimal carry in where B is 1; N is 0, Z says a zero result, V an invalid digit
of an operand, DC the carry or borrow out. -/
def Obligations.ScaledAndDecimalResults : Prop :=
  (
    ∀ (f : R3),
      let res : Thread → Int → Nat → List (RegW × Nat) := fun t e lat =>
        if t.wide then pairTo t f.x.toNat (wideWrite (fit t.sat e 24).1) lat ++ flagsTo (flagsNZV 24 e) lat
        else dTo t f.x.toNat (fitted t 14 e) lat :: flagsTo (flagsNZV 14 e) lat
      let old : Thread → Int := fun t => accRead t.wide (smGet t.ac f.y.toNat)
      let scale : Thread → Nat → Int := fun t base => scaleMove (old t) base (sclK t.scl (t.rd 7))
      let even : Core → Nat → Thread → Prop := fun _ _ t => t.wide = true → f.x.toNat % 2 = 0
      (f.b = 0 →
        Completes (fun i => .mulf i f) (fun _ _ t => t.wide = true →
            f.x.toNat % 2 = 0 ∧ f.y.toNat % 2 = 0 ∧ f.z.toNat % 2 = 0) (fun _ _ t =>
          res t (if t.wide then rnd (wideRead (t.rdd f.y.toNat) * wideRead (t.rdd f.z.toNat)) 23
                 else rnd ((t.rd f.y.toNat).toInt * (t.rd f.z.toNat).toInt) 13) 2) ∧
        (f.x.toNat % 2 = 0 → Completes (fun i => .mulD i f) (fun _ _ t => t.wide = false) (fun _ _ t =>
          let p := (t.rd f.y.toNat).toInt * (t.rd f.z.toNat).toInt
          pairTo t f.x.toNat (BitVec.ofInt 28 p) 2 ++ flagsTo (flagsNZ 28 p ++ [(.v, false)]) 2)) ∧
        (f.z = 0 → f.y.toNat < 8 →
          Completes (fun i => .mvr i f) even (fun _ _ t => res t (scale t (if t.wide then 23 else 13)) 1) ∧
          Completes (fun i => .mvi i f) even (fun _ _ t => res t (scale t 0) 1)) ∧
        (f.x = 0 → f.z = 0 → f.y.toNat < 8 → CompletesAlways (fun i => .expd i f) (fun t =>
          [dTo t 7 (BitVec.ofNat 14 (Nat.max (t.rd 7).toNat (blockExp t.wide (old t)))) 1]))) ∧
      (f.b = 1 → f.x = 0 → f.z = 0 → f.y.toNat < 8 → CompletesAlways (fun i => .expdS i f) (fun t =>
        [dTo t 7 (BitVec.ofNat 14 (blockExp t.wide (old t))) 1]))) ∧
  (
    ∀ (f : R3), f.x.toNat % 2 = 0 → f.y.toNat % 2 = 0 →
      let dec : Thread → DWord × Bool → Bool → List (RegW × Nat) := fun t r v =>
        pairTo t f.x.toNat r.1 1 ++ flagsTo [(.n, false), (.z, r.1 == 0), (.v, v), (.dc, r.2)] 1
      let m : Thread → DWord := fun t => t.rdd f.y.toNat
      let n : Thread → DWord := fun t => t.rdd f.z.toNat
      (f.z.toNat % 2 = 0 → f.b.toNat < 2 →
        CompletesAlways (fun i => .dadd i f) (fun t =>
          dec t (dadd (m t) (n t) (f.b == 1 && t.flagDC)) (badDigit (m t) || badDigit (n t))) ∧
        CompletesAlways (fun i => .dsub i f) (fun t =>
          dec t (dsub (m t) (n t) (f.b == 1 && t.flagDC)) (badDigit (m t) || badDigit (n t)))) ∧
      (f.z = 0 → f.b = 0 → CompletesAlways (fun i => .daj i f) (fun t => dec t (daj (m t)) false)))

/-- R68, R168–R170, R213: DIV, DIVU, FDIV and FSQRT occupy their unit for their latency; the unit then owes quotient
and remainder with N, Z and V, DZ where the divisor is 0, or the F28 result with its flags. -/
def Obligations.UnitsStart : Prop :=
  ∀ (f : R3) (s : State) (i : Site) (k : Nat) (c : Core) (t : Thread), f.b = 0 →
    let owes : Thread → Word → Word → Bool → Bool → List RegW := fun t q r v dz =>
      [.d (dPhys t.wpos f.x.toNat) q, .d (dPhys t.wpos (f.x.toNat + 1)) r, .flag .n q.msb, .flag .z (q == 0), .flag .v v] ++
        (if dz then [.sticky .dz] else [])
    (f.x.toNat % 2 = 0 → Quiet s i (.div i f) k c t →
      let a := (t.rd f.y.toNat).toInt; let b := (t.rd f.z.toNat).toInt; let r := divSigned t.sat a b
      exec (.div i f) s = .next (issuedWith s i k [] (fun c => { c with
        divu := some ⟨k, t.seq, divLatency t.ct a.natAbs b.natAbs,
          owes t (BitVec.ofInt 14 r.1) (BitVec.ofInt 14 r.2.1) r.2.2.1 r.2.2.2⟩ }))) ∧
    (f.x.toNat % 2 = 0 → Quiet s i (.divu i f) k c t →
      let a := (t.rd f.y.toNat).toNat; let b := (t.rd f.z.toNat).toNat; let r := divUnsigned a b
      exec (.divu i f) s = .next (issuedWith s i k [] (fun c => { c with
        divu := some ⟨k, t.seq, divLatency t.ct a b,
          owes t (BitVec.ofNat 14 r.1) (BitVec.ofNat 14 r.2.1) r.2.2.1 r.2.2.2⟩ }))) ∧
    (f.x.toNat < 16 → f.y.toNat < 16 → FReady c k t →
      let a := fRead c t f.y.toNat; let b := fRead c t f.z.toNat
      (f.z.toNat < 16 → Quiet s i (.fdiv i f) k c t →
        exec (.fdiv i f) s = .next (issuedWith s i k [] (fun d => { d with
          fdivu := some ⟨k, t.seq, fLatency t.ct (fDivSpecial a b),
            .f f.x.toNat (fDiv t.frm a b).val :: fFlagWrites c k t (fDiv t.frm a b) 5 f.x.toNat a b 0⟩ }))) ∧
      (f.z = 0 → Quiet s i (.fsqrt i f) k c t →
        exec (.fsqrt i f) s = .next (issuedWith s i k [] (fun d => { d with
          fdivu := some ⟨k, t.seq, fLatency t.ct (fSqrtSpecial a),
            .f f.x.toNat (fSqrt t.frm a).val :: fFlagWrites c k t (fSqrt t.frm a) 6 f.x.toNat a 0 0⟩ }))))

/-- R106, R113, R120, R235, R236: MVS reads any defined register that the level's bank holds, and writes it, a
core-level one only from level L3; TGET reads TCTL of the context that Ds names, 0 where there is none. -/
def Obligations.SystemRegisterMoves : Prop :=
  ∀ (x : BitVec 5) (n : BitVec 8) (f : R3),
    let here : CoreKind → Nat → Bool → Prop := fun kd k dbl =>
      sysDefined kd n.toNat = some dbl ∧ sysHeld kd k n.toNat = true ∧ (dbl = true → x.toNat % 2 = 0)
    (∀ dbl : Bool,
      Completes (fun i => .mvs i x n false) (fun c k t => here c.kind k dbl ∧ (n = 2 → FReady c k t))
        (fun c k t => if dbl then pairTo t x.toNat (sysRead c k t n.toNat) 1
                      else [dTo t x.toNat ((sysRead c k t n.toNat).truncate 14) 1]) ∧
      Completes (fun i => .mvs i x n true) (fun c k t => here c.kind k dbl ∧ (n = 2 → FReady c k t) ∧
          (sysCoreLevel c.kind n.toNat = true → k = 3))
        (fun _ _ t => [(.sys n.toNat (if dbl then t.rdd x.toNat else (t.rd x.toNat).setWidth 28), 1)])) ∧
    (f.z = 0 → f.b = 0 → Completes (fun i => .tget i f) (fun c _ _ => c.kind ≠ .signal) (fun c _ t =>
      let m := (t.rd f.y.toNat).toNat % 64
      [dTo t f.x.toNat (if m < ctxCount c.kind then (match c.threads[m]? with | some u => tctl u | none => 0) else 0) 1]))

/-! ### The V family -/

/-- R152, R180, R184: element operations write words 0 to VL − 1 of Vd and no other: sums and differences fitted,
halved ones rounded half up, minimum, maximum, logic and shifts; no flag. -/
def Obligations.VectorElements : Prop :=
  ∀ (f : R3) (g : RI6),
    let words : Thread → BitVec 5 → (Nat → Word) → List (RegW × Nat) := fun t d e =>
      [(.v d.toNat ((List.range t.vl.toNat).map (fun n => (n, e n))), 1)]
    let vv : (Site → Instr) → (Thread → Word → Word → Word) → Prop := fun op e =>
      Completes op (fun c k _ => VecReady c k) (fun _ _ t =>
        words t f.x (fun n => e t (t.rv f.y.toNat n) (t.rv f.z.toNat n)))
    let vs : (Site → Instr) → (Thread → Word → Word → Word) → Prop := fun op e =>
      Completes op (fun c k _ => VecReady c k) (fun _ _ t =>
        words t f.x (fun n => e t (t.rv f.y.toNat n) (t.rd f.z.toNat)))
    let v1 : (Site → Instr) → (Thread → Word → Word) → Prop := fun op e =>
      Completes op (fun c k _ => VecReady c k) (fun _ _ t => words t f.x (fun n => e t (t.rv f.y.toNat n)))
    let vi : (Site → Instr) → Bool → Prop := fun op arith =>
      Completes op (fun c k _ => VecReady c k) (fun _ _ t =>
        words t g.x (fun n => (shiftW arith (t.rv g.y.toNat n) g.i.toInt).r))
    let count : Word → Int := fun w => (w.truncate 6).toInt
    (f.b = 0 → f.x.toNat < 16 → f.y.toNat < 16 →
      (f.z.toNat < 16 →
        vv (fun i => .vadd i f) (fun t a b => fitted t 14 (a.toInt + b.toInt)) ∧
        vv (fun i => .vsub i f) (fun t a b => fitted t 14 (a.toInt - b.toInt)) ∧
        vv (fun i => .vaddh i f) (fun t a b => fitted t 14 (rnd (a.toInt + b.toInt) 1)) ∧
        vv (fun i => .vsubh i f) (fun t a b => fitted t 14 (rnd (a.toInt - b.toInt) 1)) ∧
        vv (fun i => .vmin i f) (fun _ a b => if b.toInt < a.toInt then b else a) ∧
        vv (fun i => .vmax i f) (fun _ a b => if a.toInt < b.toInt then b else a) ∧
        vv (fun i => .vand i f) (fun _ a b => a &&& b) ∧
        vv (fun i => .vor i f) (fun _ a b => a ||| b) ∧
        vv (fun i => .vxor i f) (fun _ a b => a ^^^ b) ∧
        vv (fun i => .vandn i f) (fun _ a b => a &&& ~~~b)) ∧
      vs (fun i => .vadds i f) (fun t a b => fitted t 14 (a.toInt + b.toInt)) ∧
      vs (fun i => .vsubs i f) (fun t a b => fitted t 14 (a.toInt - b.toInt)) ∧
      vs (fun i => .vlsh i f) (fun _ a b => (shiftW false a (count b)).r) ∧
      vs (fun i => .vash i f) (fun _ a b => (shiftW true a (count b)).r) ∧
      (f.z = 0 →
        v1 (fun i => .vneg i f) (fun t a => fitted t 14 (-a.toInt)) ∧
        v1 (fun i => .vabs i f) (fun t a => fitted t 14 |a.toInt|) ∧
        v1 (fun i => .vmov i f) (fun _ a => a))) ∧
    (g.x.toNat < 16 → g.y.toNat < 16 →
      vi (fun i => .vlsl i g) false ∧ vi (fun i => .vlsr i g) false ∧
      vi (fun i => .vasl i g) true ∧ vi (fun i => .vasr i g) true)

/-- R180, R184: fractional and complex products with latency 3, and the moves between elements: pairs are swapped,
conjugated or turned, words broadcast, permuted, slid, interleaved, extracted or inserted. -/
def Obligations.VectorProductsAndMoves : Prop :=
  ∀ (f : R3) (g : RI5) (vd vs vt : BitVec 4) (u : BitVec 5),
    let words : Thread → Nat → (Nat → Word) → Nat → List (RegW × Nat) := fun t d e lat =>
      [(.v d ((List.range t.vl.toNat).map (fun n => (n, e n))), lat)]
    let pairs : Thread → Nat → (Nat → Word × Word) → Nat → List (RegW × Nat) := fun t d e lat =>
      [(.v d ((List.range (t.vl.toNat / 2)).flatMap (fun n => [(2 * n, (e n).1), (2 * n + 1, (e n).2)])), lat)]
    let on : (Site → Instr) → (Thread → List (RegW × Nat)) → Prop := fun op ws =>
      Completes op (fun c k _ => VecReady c k) (fun _ _ t => ws t)
    let s : Thread → Nat → Word := fun t n => t.rv f.y.toNat n
    let z : Thread → Nat → Word := fun t n => t.rv f.z.toNat n
    let both : Thread → Nat → Nat → Nat → Word := fun t p q n => if n < 32 then t.rv p n else t.rv q (n - 32)
    let re : Thread → Bool → Nat → Int := fun t j n =>
      cmulRe j (s t (2 * n)).toInt (s t (2 * n + 1)).toInt (z t (2 * n)).toInt (z t (2 * n + 1)).toInt
    let im : Thread → Bool → Nat → Int := fun t j n =>
      cmulIm j (s t (2 * n)).toInt (s t (2 * n + 1)).toInt (z t (2 * n)).toInt (z t (2 * n + 1)).toInt
    (f.b = 0 → f.x.toNat < 16 →
      (f.y.toNat < 16 → f.z.toNat < 16 →
        Completes (fun i => .vmulf i f) (fun c k t => VecReady c k ∧ t.wide = false) (fun _ _ t =>
          words t f.x.toNat (fun n => fitted t 14 (rnd ((s t n).toInt * (z t n).toInt) 13)) 3) ∧
        on (fun i => .vcmulf i f) (fun t => pairs t f.x.toNat (fun n =>
          (fitted t 14 (rnd (re t false n) 13), fitted t 14 (rnd (im t false n) 13))) 3) ∧
        on (fun i => .vcmuljf i f) (fun t => pairs t f.x.toNat (fun n =>
          (fitted t 14 (rnd (re t true n) 13), fitted t 14 (rnd (im t true n) 13))) 3) ∧
        on (fun i => .vperm i f) (fun t => words t f.x.toNat (fun n => s t ((z t n).toNat % 32)) 1) ∧
        on (fun i => .vzip i f) (fun t =>
          words t f.x.toNat (fun n => if n % 2 = 0 then s t (n / 2) else z t (n / 2)) 1) ∧
        on (fun i => .vunz i f) (fun t => words t f.x.toNat (fun n => both t f.y.toNat f.z.toNat (2 * n)) 1)) ∧
      (f.y.toNat < 16 → f.z = 0 →
        on (fun i => .vconj i f) (fun t => pairs t f.x.toNat (fun n =>
          (s t (2 * n), fitted t 14 (-(s t (2 * n + 1)).toInt))) 1) ∧
        on (fun i => .vmulj i f) (fun t => pairs t f.x.toNat (fun n =>
          (fitted t 14 (-(s t (2 * n + 1)).toInt), s t (2 * n))) 1) ∧
        on (fun i => .vswri i f) (fun t => pairs t f.x.toNat (fun n => (s t (2 * n + 1), s t (2 * n))) 1)) ∧
      (f.z = 0 →
        on (fun i => .vbcast i f) (fun t => words t f.x.toNat (fun _ => t.rd f.y.toNat) 1) ∧
        (f.y.toNat % 2 = 0 → on (fun i => .vbcastc i f) (fun t =>
          pairs t f.x.toNat (fun _ => (t.rd f.y.toNat, t.rd (f.y.toNat + 1))) 1)))) ∧
    on (fun i => .vslide i vd vs vt u) (fun t =>
      words t vd.toNat (fun n => both t vs.toNat vt.toNat (n + u.toNat)) 1) ∧
    (g.b = 0 → g.y.toNat < 16 → on (fun i => .vext i g) (fun t => [dTo t g.x.toNat (t.rv g.y.toNat g.u.toNat) 1])) ∧
    (g.b = 0 → g.x.toNat < 16 → on (fun i => .vins i g) (fun t =>
      [(.v g.x.toNat [(g.u.toNat, t.rd g.y.toNat)], 1)]))

/-- R156, R178, R180, R186–R188: a vector MAC lands its exact products three cycles later, added to the elements as
they stand then or in their place, and AV where one does not fit; VCLRA clears every element. -/
def Obligations.VectorAccumulate : Prop :=
  ∀ (f : R3), f.b = 0 → f.x.toNat < 4 →
    let put : Thread → Nat → List (Nat × Int) → List (RegW × Nat) := fun t a ps =>
      (.va a (ps.map (fun p => (p.1, accWrite t.wide (fit t.sat p.2 (accW t.wide)).1))), 3) ::
        (if ps.all (fun p => fits p.2 (accW t.wide)) then [] else [(.sticky .av, 3)])
    let add : Thread → Nat → List (Nat × Int) → List (RegW × Nat) := fun t a ps => [(.vmac a ps t.wide t.sat, 3)]
    let vec : Core → Nat → Thread → Prop := fun c k _ => VecReady c k
    let narrow : Core → Nat → Thread → Prop := fun c k t => VecReady c k ∧ t.wide = false
    let s : Thread → Nat → Int := fun t n => (t.rv f.y.toNat n).toInt
    let z : Thread → Nat → Int := fun t n => (t.rv f.z.toNat n).toInt
    let words : Thread → List Nat := fun t => List.range t.vl.toNat
    let twos : Thread → List Nat := fun t => List.range (t.vl.toNat / 2)
    let prods : Thread → Int → List (Nat × Int) := fun t sg =>
      if t.wide then (twos t).map (fun n => (2 * n, sg * (wideRead (t.rvw f.y.toNat n) * wideRead (t.rvw f.z.toNat n))))
      else (words t).map (fun n => (n, sg * (s t n * z t n)))
    let cplx : Thread → Bool → (Nat → Int × Int) → List (Nat × Int) := fun t j q =>
      (twos t).flatMap (fun n =>
        [(2 * n, cmulRe j (s t (2 * n)) (s t (2 * n + 1)) (q n).1 (q n).2),
         (2 * n + 1, cmulIm j (s t (2 * n)) (s t (2 * n + 1)) (q n).1 (q n).2)])
    let qz : Thread → Nat → Int × Int := fun t n => (z t (2 * n), z t (2 * n + 1))
    (f.y.toNat < 16 → f.z.toNat < 16 →
      Completes (fun i => .vmpy i f) vec (fun _ _ t => put t f.x.toNat (prods t 1)) ∧
      Completes (fun i => .vmac i f) vec (fun _ _ t => add t f.x.toNat (prods t 1)) ∧
      Completes (fun i => .vmsu i f) vec (fun _ _ t => add t f.x.toNat (prods t (-1))) ∧
      (f.x.toNat % 2 = 0 →
        Completes (fun i => .vmpyp i f) narrow (fun _ _ t =>
          put t f.x.toNat ((words t).map (fun n => (n, s t n * z t n))) ++
          put t (f.x.toNat + 1) ((words t).map (fun n => (n, s t n * z t (if n % 2 = 0 then n + 1 else n - 1))))) ∧
        Completes (fun i => .vmacp i f) narrow (fun _ _ t =>
          add t f.x.toNat ((words t).map (fun n => (n, s t n * z t n))) ++
          add t (f.x.toNat + 1) ((words t).map (fun n => (n, s t n * z t (if n % 2 = 0 then n + 1 else n - 1)))))) ∧
      Completes (fun i => .vcmpy i f) narrow (fun _ _ t => put t f.x.toNat (cplx t false (qz t))) ∧
      Completes (fun i => .vcmac i f) narrow (fun _ _ t => add t f.x.toNat (cplx t false (qz t))) ∧
      Completes (fun i => .vcmacj i f) narrow (fun _ _ t => add t f.x.toNat (cplx t true (qz t)))) ∧
    (f.y.toNat < 16 →
      Completes (fun i => .vmacs i f) (fun c k t => VecReady c k ∧ (t.wide = true → f.z.toNat % 2 = 0)) (fun _ _ t =>
        add t f.x.toNat (if t.wide then
            (twos t).map (fun n => (2 * n, wideRead (t.rvw f.y.toNat n) * wideRead (t.rdd f.z.toNat)))
          else (words t).map (fun n => (n, s t n * (t.rd f.z.toNat).toInt)))) ∧
      (f.z.toNat % 2 = 0 → Completes (fun i => .vcmacs i f) narrow (fun _ _ t =>
        add t f.x.toNat (cplx t false (fun _ => ((t.rd f.z.toNat).toInt, (t.rd (f.z.toNat + 1)).toInt)))))) ∧
    (f.y = 0 → f.z = 0 → Completes (fun i => .vclra i f) vec (fun _ _ _ =>
      [(.va f.x.toNat ((List.range 32).map (fun n => (n, 0))), 1)]))

/-- R163, R164, R190: VMVR and VMVI scale, round and fit every processed accumulator element; VEXPD and VEXPD.S bring
the largest block exponent to D7. R179, R191–R193: the extremum searches give the extreme processed element and the
lowest index that holds it, a running one the global index added to Dm; SETVL takes min(Ds, 32) and leaves the rest in
Dd. -/
def Obligations.VectorMovesExponentsAndSearches : Prop :=
  (
    ∀ (f : R3), f.z = 0 → f.y.toNat < 4 →
      let vec : Core → Nat → Thread → Prop := fun c k _ => VecReady c k
      let acc : Thread → Nat → Int := fun t n => accRead t.wide (t.rva f.y.toNat n)
      let moved : Thread → Nat → Nat → Int := fun t base n => scaleMove (acc t n) base (sclK t.scl (t.rd 7))
      let out : Thread → Nat → List (RegW × Nat) := fun t base =>
        if t.wide then
          [(.v f.x.toNat ((List.range (t.vl.toNat / 2)).flatMap (fun n =>
            let w := wideWrite (fit t.sat (moved t base (2 * n)) 24).1
            [(2 * n, w.truncate 14), (2 * n + 1, (w >>> 14).truncate 14)])), 1)]
        else [(.v f.x.toNat ((List.range t.vl.toNat).map (fun n => (n, fitted t 14 (moved t base n)))), 1)]
      let top : Thread → Nat := fun t =>
        ((if t.wide then (List.range (t.vl.toNat / 2)).map (fun n => 2 * n) else List.range t.vl.toNat).map
          (fun n => blockExp t.wide (acc t n))).foldl Nat.max 0
      (f.b = 0 → f.x.toNat < 16 →
        Completes (fun i => .vmvr i f) vec (fun _ _ t => out t (if t.wide then 23 else 13)) ∧
        Completes (fun i => .vmvi i f) vec (fun _ _ t => out t 0)) ∧
      (f.x = 0 → f.b = 0 → Completes (fun i => .vexpd i f) vec (fun _ _ t =>
        [dTo t 7 (BitVec.ofNat 14 (Nat.max (t.rd 7).toNat (top t))) 3])) ∧
      (f.x = 0 → f.b = 1 → Completes (fun i => .vexpdS i f) vec (fun _ _ t => [dTo t 7 (BitVec.ofNat 14 (top t)) 3]))) ∧
  (
    ∀ (f : R3) (g : RI6),
      let vec : Core → Nat → Thread → Prop := fun c k _ => VecReady c k
      let els : Thread → List (Nat × Int) := fun t => (List.range t.vl.toNat).map (fun n => (n, (t.rv f.y.toNat n).toInt))
      let accs : Thread → List (Nat × Int) := fun t =>
        (List.range t.vl.toNat).map (fun n => (n, accRead t.wide (t.rva f.y.toNat n)))
      let found : Thread → Bool → List (Nat × Int) → Option (Int × Nat) := fun t mx es =>
        (extreme mx es).map (fun p => (p.1, ((t.rdd f.z.toNat).toNat + p.2) % 2 ^ 28))
      let one : Bool → Thread → List (RegW × Nat) := fun mx t =>
        match extreme mx (els t) with
        | some (v, n) => [dTo t f.x.toNat (BitVec.ofInt 14 v) 3, dTo t (f.x.toNat + 1) (BitVec.ofNat 14 n) 3]
        | none => [dTo t f.x.toNat (if mx then 0x2000 else 0x1FFF) 3, dTo t (f.x.toNat + 1) 0x3FFF 3]
      let go : Bool → (Thread → List (Nat × Int)) → Thread → List (RegW × Nat) := fun mx es t =>
        [(.ext f.x.toNat (found t mx (es t)) mx t.wide, 3)]
      let start : Bool → (Thread → List (Nat × Int)) → Thread → List (RegW × Nat) := fun mx es t =>
        match found t mx (es t) with
        | some (v, n) => [(.ac f.x.toNat (accWrite t.wide v), 3), (.ac (f.x.toNat + 1) (BitVec.ofNat 56 n), 3)]
        | none => [(.ac f.x.toNat (accWrite t.wide (if mx then sMin (accW t.wide) else sMax (accW t.wide))), 3),
            (.ac (f.x.toNat + 1) 0xFFFFFFF, 3)]
      (f.x.toNat % 2 = 0 →
        (f.b = 0 → f.z = 0 → f.y.toNat < 16 →
          Completes (fun i => .vmaxi i f) vec (fun _ _ t => one true t) ∧
          Completes (fun i => .vmini i f) vec (fun _ _ t => one false t)) ∧
        (f.x.toNat < 8 → f.z.toNat % 2 = 0 →
          (f.b = 0 → f.y.toNat < 16 →
            Completes (fun i => .vmaxir i f) vec (fun _ _ t => go true els t) ∧
            Completes (fun i => .vminir i f) vec (fun _ _ t => go false els t)) ∧
          (f.b = 1 → f.y.toNat < 16 →
            Completes (fun i => .vmaxirS i f) vec (fun _ _ t => start true els t) ∧
            Completes (fun i => .vminirS i f) vec (fun _ _ t => start false els t)) ∧
          (f.b = 0 → f.y.toNat < 4 →
            Completes (fun i => .vmaxia i f) vec (fun _ _ t => go true accs t) ∧
            Completes (fun i => .vminia i f) vec (fun _ _ t => go false accs t)) ∧
          (f.b = 1 → f.y.toNat < 4 →
            Completes (fun i => .vmaxiaS i f) vec (fun _ _ t => start true accs t) ∧
            Completes (fun i => .vminiaS i f) vec (fun _ _ t => start false accs t)))) ∧
      (f.z = 0 → f.b = 0 → Completes (fun i => .setvl i f) (fun c k _ => c.kind = .signal → k < 2) (fun _ _ t =>
        let r := (t.rd f.y.toNat).toNat
        [(.vl (BitVec.ofNat 6 (Nat.min r 32)), 1), dTo t f.x.toNat (BitVec.ofNat 14 (r - Nat.min r 32)) 1])) ∧
      (g.x = 0 → g.y = 0 → g.i.toNat ≤ 32 →
        Completes (fun i => .setvlImmediate i g) (fun c k _ => c.kind = .signal → k < 2) (fun _ _ _ => [(.vl g.i, 1)])))

/-! ### Floating point -/

/-- R205–R211, R215–R217: FADD, FSUB, FMUL and FMA write the once-rounded F28 result with latency 3, FMIN, FMAX and
the compares with latency 1; FSTAT flags and the trap record follow the result. -/
def Obligations.FloatArithmetic : Prop :=
  ∀ (f : R3), f.b = 0 → f.y.toNat < 16 → f.z.toNat < 16 →
    let a : Core → Thread → DWord := fun c t => fRead c t f.y.toNat
    let b : Core → Thread → DWord := fun c t => fRead c t f.z.toNat
    let d : Core → Thread → DWord := fun c t => fRead c t f.x.toNat
    let flags : Core → Nat → Thread → FOut → Nat → Nat → DWord → Nat → List (RegW × Nat) :=
      fun c k t r opc dst third lat => (fFlagWrites c k t r opc dst (a c t) (b c t) third).map (fun w => (w, lat))
    let res : (Site → Instr) → (Core → Thread → FOut) → Nat → Nat → Bool → Prop := fun op r opc lat three =>
      Completes op FReady (fun c k t => (.f f.x.toNat (r c t).val, lat) ::
        flags c k t (r c t) opc f.x.toNat (if three then d c t else 0) lat)
    let cmp : (Site → Instr) → Bool → Prop := fun op quiet =>
      Completes op FReady (fun c k t =>
        let r := fCompare quiet (a c t) (b c t)
        flagsTo [(.n, r.1.1), (.z, r.1.2.1), (.c, r.1.2.2.1), (.v, r.1.2.2.2)] 1 ++ flags c k t r.2 11 0 0 1)
    (f.x.toNat < 16 →
      res (fun i => .fadd i f) (fun c t => fAdd t.frm (a c t) (b c t)) 1 3 false ∧
      res (fun i => .fsub i f) (fun c t => fAdd t.frm (a c t) (fNegate (b c t))) 2 3 false ∧
      res (fun i => .fmul i f) (fun c t => fMul t.frm (a c t) (b c t)) 3 3 false ∧
      res (fun i => .fma i f) (fun c t => fMa t.frm (a c t) (b c t) (d c t)) 4 3 true ∧
      res (fun i => .fmin i f) (fun c t => fMinMax false (a c t) (b c t)) 12 1 false ∧
      res (fun i => .fmax i f) (fun c t => fMinMax true (a c t) (b c t)) 12 1 false) ∧
    (f.x = 0 → cmp (fun i => .fcmp i f) false ∧ cmp (fun i => .fcmpe i f) true)

/-- R209, R212, R219: conversions with latency 3, moves between F and D registers with latency 1 that change no flag,
and FBAR, which writes nothing three cycles later. -/
def Obligations.FloatConversionsAndMoves : Prop :=
  ∀ (f : R3) (g : RI5),
    let flags : Core → Nat → Thread → FOut → Nat → Nat → DWord → List (RegW × Nat) := fun c k t r opc dst src =>
      (fFlagWrites c k t r opc dst src 0 0).map (fun w => (w, 3))
    let s : Core → Thread → DWord := fun c t => fRead c t f.y.toNat
    (g.b = 0 →
      (g.x.toNat < 16 → Completes (fun i => .fcvtFD i g) FReady (fun c k t =>
        let v := t.rd g.y.toNat; let r := fFromInt t.frm v.toInt g.u.toNat
        (.f g.x.toNat r.val, 3) :: flags c k t r 7 g.x.toNat (v.setWidth 28))) ∧
      (g.x.toNat < 16 → g.y.toNat % 2 = 0 → Completes (fun i => .fcvtFDD i g) FReady (fun c k t =>
        let v := t.rdd g.y.toNat; let r := fFromInt t.frm v.toInt g.u.toNat
        (.f g.x.toNat r.val, 3) :: flags c k t r 8 g.x.toNat v)) ∧
      (g.y.toNat < 16 → Completes (fun i => .fcvtDF i g) FReady (fun c k t =>
        let v := fRead c t g.y.toNat; let r := fToInt t.frm 14 g.u.toNat v
        dTo t g.x.toNat (BitVec.ofInt 14 r.1) 3 :: flags c k t r.2 9 g.x.toNat v)) ∧
      (g.y.toNat < 16 → g.x.toNat % 2 = 0 → Completes (fun i => .fcvtDDF i g) FReady (fun c k t =>
        let v := fRead c t g.y.toNat; let r := fToInt t.frm 28 g.u.toNat v
        pairTo t g.x.toNat (BitVec.ofInt 28 r.1) 3 ++ flags c k t r.2 10 g.x.toNat v))) ∧
    (f.b = 0 → f.z = 0 →
      (f.x.toNat < 16 → f.y.toNat < 16 →
        Completes (fun i => .fmov i f) FReady (fun c _ t => [(.f f.x.toNat (s c t), 1)]) ∧
        Completes (fun i => .fneg i f) FReady (fun c _ t => [(.f f.x.toNat (s c t ^^^ 0x8000000), 1)]) ∧
        Completes (fun i => .fabs i f) FReady (fun c _ t => [(.f f.x.toNat (s c t &&& 0x7FFFFFF), 1)])) ∧
      (f.x.toNat < 16 → f.y.toNat % 2 = 0 → Completes (fun i => .fmvf i f) FReady (fun _ _ t =>
        [(.f f.x.toNat (t.rdd f.y.toNat), 1)])) ∧
      (f.x.toNat % 2 = 0 → f.y.toNat < 16 → Completes (fun i => .fmvd i f) FReady (fun c _ t =>
        pairTo t f.x.toNat (s c t) 1)) ∧
      (f.y.toNat < 16 → Completes (fun i => .fkind i f) FReady (fun c _ t => [dTo t f.x.toNat (fKind (s c t)) 1]))) ∧
    Completes (fun i => .fbar i) FReady (fun _ _ _ => [(.nothing, 3)])

/-! ### The address class -/

/-- R245–R252: LD, LD.D, ST and ST.D in every address mode on core-local words: a load brings the word with latency 2,
a store writes it at once and no other word; An is post-updated with latency 1 where the mode says so. -/
def Obligations.LocalLoadsAndStores : Prop :=
  ∀ (f : AMF) (s : State) (i : Site) (k : Nat) (c : Core) (t : Thread) (ea : AWord) (post : Option AWord) (cb : Bool)
    (p q : Bool × Nat),
    let n := f.an.toNat
    let next := upd t n ea 1
    (amode t n f.am f.mm 1 = some (ea, post, cb) → localPlace f.slot ea = some p →
      (Quiet s i (.ld i f) k c t →
        exec (.ld i f) s = .next (landing s i k (dTo t f.x.toNat (localRead c p) 2 :: postWrites n post cb))) ∧
      (Quiet s i (.st i f) k c t →
        exec (.st i f) s = .next (issuedWith s i k (postWrites n post cb)
          (withStores [(p.1, p.2, t.rd f.x.toNat)])))) ∧
    (amode t n f.am f.mm 2 = some (ea, post, cb) → localPlace f.slot ea = some p → localPlace f.slot next.1 = some q →
      f.x.toNat % 2 = 0 →
      let cb2 := cb || (next.2 && f.am != 0)
      (Quiet s i (.ldD i f) k c t →
        exec (.ldD i f) s = .next (landing s i k (dTo t f.x.toNat (localRead c p) 2 ::
          dTo t (f.x.toNat + 1) (localRead c q) 2 :: postWrites n post cb2))) ∧
      (Quiet s i (.stD i f) k c t →
        exec (.stD i f) s = .next (issuedWith s i k (postWrites n post cb2)
          (withStores [(p.1, p.2, t.rd f.x.toNat), (q.1, q.2, t.rd (f.x.toNat + 1))]))))

/-- R194–R200: the vector loads and stores on core-local words move elements 0 to VL − 1 (VLDX and VSTX from VSTART
on, which they clear), element k at the address that An and its displacement give. -/
def Obligations.LocalVectorLoadsAndStores : Prop :=
  ∀ (f : AMF) (g : AXF) (s : State) (i : Site) (k : Nat) (c : Core) (t : Thread) (ea : AWord) (post : Option AWord)
    (cb : Bool), VecReady c k →
    let place : ASlot → List (Nat × AWord) → Prop := fun sl as => ∀ e ∈ as, (localPlace sl e.2).isSome = true
    let at_ : ASlot → AWord → Bool × Nat := fun sl a => (localPlace sl a).getD (false, 0)
    let loaded : ASlot → List (Nat × AWord) → List (Nat × Word) := fun sl as =>
      as.map (fun e => (e.1, localRead c (at_ sl e.2)))
    let stored : ASlot → Nat → List (Nat × AWord) → List (Bool × Nat × Word) := fun sl v as =>
      as.map (fun e => ((at_ sl e.2).1, (at_ sl e.2).2, t.rv v e.1))
    let seqA := vecAddrs t f.an.toNat 0 (fun n => n)
    let strA := vecAddrs t f.an.toNat 0 (fun n => n * (smGet t.m f.mm.toNat).toInt)
    let idxA := vecAddrs t g.an.toNat t.vstart.toNat (fun n => (t.rv g.vt.toNat n).toNat)
    (f.x.toNat < 16 → vecMode t f = some (ea, post, cb) → place f.slot seqA.1 →
      (Quiet s i (.vld i f) k c t → exec (.vld i f) s = .next (landing s i k
        ((.v f.x.toNat (loaded f.slot seqA.1), 2) :: postWrites f.an.toNat post (cb || seqA.2)))) ∧
      (Quiet s i (.vst i f) k c t → exec (.vst i f) s = .next (issuedWith s i k
        (postWrites f.an.toNat post (cb || seqA.2)) (withStores (stored f.slot f.x.toNat seqA.1))))) ∧
    (f.x.toNat < 16 → f.am = 0 → place f.slot strA.1 →
      (Quiet s i (.vlds i f) k c t → exec (.vlds i f) s = .next (landing s i k
        ((.v f.x.toNat (loaded f.slot strA.1), 2) :: postWrites f.an.toNat none strA.2))) ∧
      (Quiet s i (.vsts i f) k c t → exec (.vsts i f) s = .next (issuedWith s i k
        (postWrites f.an.toNat none strA.2) (withStores (stored f.slot f.x.toNat strA.1))))) ∧
    (g.x.toNat < 16 → place g.slot idxA.1 →
      (Quiet s i (.vldx i g) k c t → exec (.vldx i g) s = .next (landing s i k
        ((.v g.x.toNat (loaded g.slot idxA.1), 2) :: (.vstart 0, 1) :: postWrites g.an.toNat none idxA.2))) ∧
      (Quiet s i (.vstx i g) k c t → exec (.vstx i g) s = .next (issuedWith s i k
        ((.vstart 0, 1) :: postWrites g.an.toNat none idxA.2) (withStores (stored g.slot g.x.toNat idxA.1)))))

/-- R254, R256, R258, R262, R273: a load from a window waits as one request per row for its words, which land after 16
advancing cycles; a store to a window waits in the store buffer, one entry per row. -/
def Obligations.WindowLoadsAndStores : Prop :=
  ∀ (f : AMF) (s : State) (i : Site) (k : Nat) (c : Core) (t : Thread) (ea : AWord) (post : Option AWord) (cb : Bool)
    (o : Bool × Nat), coreGeode i.core ≠ none →
    amode t f.an.toNat f.am f.mm 1 = some (ea, post, cb) →
    (offsetOf (target (viewOf i (.ld i f) k c t) (isA1 f.slot) false ea) = some o → Quiet s i (.ld i f) k c t →
      let reqs := loadReqs (requesterOf i.core) k c.nextId [(0, o)]
      exec (.ld i f) s = .next (withRequests (issuedWith s i k
        ((.load c.nextId 1 (.d (dPhys t.wpos f.x.toNat)), 16) :: postWrites f.an.toNat post cb)
        (fun d => { d with nextId := c.nextId + 2 })) i.core
        ((reqs.filter (fun m => !m.1)).map (fun m => m.2)) ((reqs.filter (fun m => m.1)).map (fun m => m.2)) [])) ∧
    (offsetOf (target (viewOf i (.st i f) k c t) (isA1 f.slot) true ea) = some o → Quiet s i (.st i f) k c t →
      exec (.st i f) s = .next (issuedWith s i k (postWrites f.an.toNat post cb) (fun d =>
        { d with sb := storeEntries c.nextId [(o.1, o.2, t.rd f.x.toNat)], nextId := c.nextId + 1 })))

/-- R225, R226, R250, R251: address arithmetic updates An as an address mode does; the register moves write any A, M,
B or L register, AMOVH its bits 23:12 alone. -/
def Obligations.AddressArithmetic : Prop :=
  ∀ (f : AMF) (sl : ASlot) (an : BitVec 4) (imm : BitVec 12) (r q : BitVec 6),
    let added : Thread → Nat → Int → List (RegW × Nat) := fun t n m =>
      let u := upd t n (smGet t.a n) m
      (.a n u.1, 1) :: (if u.2 then [(.sticky .cb, 1)] else [])
    (f.x = 0 → f.am = 0 → CompletesAlways (fun i => .aadd i f) (fun t =>
      added t f.an.toNat (smGet t.m f.mm.toNat).toInt)) ∧
    CompletesAlways (fun i => .aaddi i sl an imm) (fun t => added t an.toNat imm.toInt) ∧
    (r.toNat < 40 →
      (q.toNat < 40 → CompletesAlways (fun i => .amv i sl r q) (fun t => [(selW r (t.rsel q), 1)])) ∧
      CompletesAlways (fun i => .amovl i sl r imm) (fun _ => [(selW r (imm.setWidth 24), 1)]) ∧
      CompletesAlways (fun i => .amovh i sl r imm) (fun t => [(selW r (imm ++ (t.rsel r).truncate 12), 1)]))

/-- R265, R268: PALLOC and PFREE send the virtual page of An to the allocator; entry, Z and V land 16 advancing cycles
later. -/
def Obligations.PageRequests : Prop :=
  ∀ (f : AMF) (s : State) (i : Site) (k : Nat) (c : Core) (t : Thread), f.x = 0 → f.am = 0 → f.mm = 0 →
    let a := (smGet t.a f.an.toNat).toNat
    0x400000 ≤ a → a < 0x800000 → c.kind ≠ .hub →
    ∀ r ∈ [(Instr.palloc i f, true), (.pfree i f, false)], Quiet s i r.1 k c t →
      let tb := pageTable (viewOf i r.1 k c t)
      let v := (a - 0x400000) / 4096
      exec r.1 s = .next (withRequests (issuedWith s i k [(.page c.nextId tb v, 16)]
        (fun d => { d with nextId := c.nextId + 1 })) i.core [] []
        [⟨c.nextId, coreNum i.core, tb, isA1 f.slot, r.2, v⟩])

/-! ### The control class -/

/-- R73–R79, R101: B.cc, BRA and JMP leave control where it was for the delay slot and carry on at the target behind
it, or, not taken, behind the slot, which .A then annuls; the direction counter moves by one towards the outcome. -/
def Obligations.Branches : Prop :=
  ∀ (s : State) (i : Site) (k : Nat) (c : Core) (t : Thread) (cc : BitVec 4) (a taken : Bool) (d12 : BitVec 12)
    (d14 : IAddr) (an : BitVec 4),
    let goes : Instr → Option IAddr → Bool → Prop := fun op cont annul => Quiet s i op k c t →
      ∃ u v d, exec op s = .next u ∧ u.threadAt i.core k = some v ∧ v.dslot = some d ∧ d.cont = cont ∧ d.annul = annul ∧
        d.window = 0 ∧ v.pc = BitVec.ofNat 14 (t.pc.toNat + i.syl.toNat + 1) ∧ v.adv = t.adv + 1 ∧ v.flight = t.flight ∧
        v.d = t.d ∧ v.stat = t.stat ∧ sameBank t v ∧
        (∀ j : Nat, (t.pb = true ∨ ∀ b e h, op ≠ .bCc i b e h) → dirCtr (u.core i.core) j = dirCtr c j)
    (condition t cc = some taken →
      goes (.bCc i cc a d12) (if taken then some (t.pc + d12.signExtend 14) else none) (a && !taken)) ∧
    (condition t cc = some taken → t.pb = false → smWf c.dirctr = true →
      Quiet s i (.bCc i cc a d12) k c t →
      ∃ u, exec (.bCc i cc a d12) s = .next u ∧
        let j := (t.pc.toNat + i.syl.toNat) % 1024
        dirCtr (u.core i.core) j = (if taken then Nat.min 3 (dirCtr c j + 1) else dirCtr c j - 1) ∧
        ∀ m, m ≠ j → dirCtr (u.core i.core) m = dirCtr c m) ∧
    goes (.bra i false d14) (some (t.pc + d14)) false ∧
    goes (.jmp i false an) (some ((smGet t.a an.toNat).truncate 14)) false

/-- R78, R130, R131: calls put the address behind their delay slot into A15, one advancing cycle later; the windowed
ones turn the window by one behind the slot and count it in RES, or, with RES at 2, store the oldest pair of frames at
SPP; the returns continue at A15 and undo it. -/
def Obligations.CallsAndReturns : Prop :=
  ∀ (s : State) (i : Site) (k : Nat) (c : Core) (t : Thread) (d14 : IAddr) (an : BitVec 4),
    let after := t.pc.toNat + i.syl.toNat + 1
    let ret : IAddr := BitVec.ofNat 14 (after + bundleSize c.imem.cells after)
    let turns : Instr → IAddr → BitVec 2 → List (RegW × Nat) → (Core → Thread → Prop) → Prop :=
      fun op tgt w ws more => Quiet s i op k c t →
        ∃ u v d, exec op s = .next u ∧ u.threadAt i.core k = some v ∧ v.dslot = some d ∧ d.cont = some tgt ∧
          d.annul = false ∧ d.window = w ∧ v.pc = BitVec.ofNat 14 after ∧ v.flight = t.flight ++ pends t ws ∧
          v.wpos = t.wpos ∧ v.stat = t.stat ∧ sameBank t v ∧ more (u.core i.core) v
    let still : Core → Thread → Prop := fun e v => v.res = t.res ∧ v.spp = t.spp ∧ v.d = t.d ∧ e.x = c.x
    let call : Instr → IAddr → Prop := fun op tgt => turns op tgt 0 [(.a 15 (ret.setWidth 24), 1)] still
    let callo : Instr → IAddr → Prop := fun op tgt =>
      (t.res ≠ 2 → turns op tgt 1 [(.a 15 (ret.setWidth 24), 1)] (fun e v =>
        v.res = t.res + 1 ∧ v.spp = t.spp ∧ v.d = t.d ∧ e.x = c.x)) ∧
      (t.res = 2 → t.spp.toNat + 16 ≤ t.splim.toNat → (c.kind = .signal → k ≠ 3) →
        turns op tgt 1 [(.a 15 (ret.setWidth 24), 1)] (fun e v =>
          v.res = 2 ∧ v.spp = t.spp + 16 ∧ v.d = t.d ∧
          e.x = c.x.writeList t.spp.toNat ((pairRegs (t.wpos - 2)).map (fun r => smGet t.d r))))
    call (.call i false d14) (t.pc + d14) ∧
    call (.callAn i false an) ((smGet t.a an.toNat).truncate 14) ∧
    callo (.callo i false d14) (t.pc + d14) ∧
    callo (.calloAn i false an) ((smGet t.a an.toNat).truncate 14) ∧
    turns (.ret i false) ((smGet t.a 15).truncate 14) 0 [] still ∧
    (t.res ≠ 0 → turns (.reto i false) ((smGet t.a 15).truncate 14) 3 [] (fun e v =>
      v.res = t.res - 1 ∧ v.spp = t.spp ∧ v.d = t.d ∧ e.x = c.x)) ∧
    (t.res = 0 → t.spbase.toNat + 16 ≤ t.spp.toNat → turns (.reto i false) ((smGet t.a 15).truncate 14) 3 [] (fun e v =>
      v.res = 0 ∧ v.spp = t.spp - 16 ∧ e.x = c.x ∧
      v.d = smPutAll t.d (((pairRegs (t.wpos - 1)).zip (List.range 16)).map (fun p =>
        (p.1, smGet c.x.cells (t.spp.toNat - 16 + p.2))))))

/-- R83, R87–R91, R95, R96, R275: LOOP activates a free loop level with its count, head and tail, or skips the body;
REP repeats the next bundle, or turns it into a bubble; BARP writes PB, FLUSHP clears the predictors, SIGNAL waits
behind the stores in the store buffer, NOP leaves nothing. -/
def Obligations.LoopsAndBarriers : Prop :=
  ∀ (s : State) (i : Site) (k : Nat) (c : Core) (t : Thread) (f : LoopF) (g : RepF) (b : Bool) (u3 : BitVec 6),
    (∀ p ∈ t.flight, t.adv + 5 < p.due) →
    let after := t.pc.toNat + i.syl.toNat + 1
    let leaves : Instr → (Core → Thread → Prop) → Prop := fun op post => Quiet s i op k c t →
      ∃ u v, exec op s = .next u ∧ u.threadAt i.core k = some v ∧ v.flight = t.flight ∧ v.d = t.d ∧ sameBank t v ∧
        v.dslot = none ∧ post (u.core i.core) v
    let count : LoopF → Nat := fun f => match f with
      | .imm n _ => n.toNat + 1
      | .reg ds _ => (t.rd ds.toNat).toNat
    let disp : LoopF → Nat := fun f => match f with | .imm _ d => d.toNat | .reg _ d => d.toNat
    let tail := t.pc.toNat + disp f
    let reps : RepF → Nat := fun g => match g with
      | .imm n _ => n.toNat + 1
      | .reg ds _ => (t.rd ds.toNat).toNat
    let intr : RepF → Bool := fun g => match g with | .imm _ j => j | .reg _ j => j
    (i.syl.toNat + 1 ≤ disp f → tail ≤ 0x3FFF →
      (count f ≠ 0 → leaves (.loop i f) (fun _ v => v.pc = BitVec.ofNat 14 after ∧ v.loop1 = t.loop1 ∧
        v.loop0.act = true ∧ v.loop0.run = BitVec.ofNat 14 (count f) ∧ v.loop0.head = BitVec.ofNat 14 after ∧
        v.loop0.tail = BitVec.ofNat 14 tail ∧ v.adv = t.adv + 1)) ∧
      (count f = 0 → leaves (.loop i f) (fun _ v => v.loop0 = t.loop0 ∧ v.loop1 = t.loop1 ∧ v.adv = t.adv + 6 ∧
        v.pc = BitVec.ofNat 14 (tail + bundleSize c.imem.cells tail)))) ∧
    (i.syl = 0 → (intr g = true ∨ reps g ≤ 1024) →
      (reps g ≠ 0 → leaves (.rep i g) (fun _ v => v.pc = BitVec.ofNat 14 after ∧ v.adv = t.adv + 1 ∧
        v.rep = some ⟨reps g, intr g, true⟩)) ∧
      (reps g = 0 → leaves (.rep i g) (fun _ v => v.rep = none ∧ v.adv = t.adv + 2 ∧
        v.pc = BitVec.ofNat 14 (after + bundleSize c.imem.cells after)))) ∧
    leaves (.barp i b) (fun _ v => v.stat = setBit t.stat 11 b ∧ v.adv = t.adv + 5) ∧
    leaves (.flushp i) (fun e v => (∀ j, dirCtr e j = 1) ∧ v.rstk = [] ∧ v.rsp = 0 ∧ v.adv = t.adv + 5) ∧
    (u3.toNat < 8 → leaves (.signal i u3) (fun e v => e.sb = [⟨c.nextId, .signal (u3.truncate 3)⟩] ∧
      v.adv = t.adv + 1)) ∧
    leaves (.nop i) (fun e v => e.sb = [] ∧ v.adv = t.adv + 1 ∧ v.stat = t.stat ∧
      v.pc = BitVec.ofNat 14 after)

/-- R126, R128, R142: WAITE makes its level or context wait unless a line for it is pending; RTE ends level L2, or
level L3, whose faulting level continues at XPC. R236, R237: TSTART makes a stopped context ready at Ds, TRESUME a
faulted one at its XPC, TSTOP stops one, TSET gives one its priority. -/
def Obligations.WaitsReturnsAndTasks : Prop :=
  (
    ∀ (s : State) (i : Site) (k : Nat) (c : Core) (t : Thread),
      (Quiet s i (.waite i) k c t → lineFor c k = false →
        (c.kind = .signal → k < 2 →
          ∃ u, exec (.waite i) s = .next u ∧
            (if k = 0 then (u.core i.core).l0w = true else (u.core i.core).l1w = true) ∧
            (u.core i.core).run ≠ .lvl k) ∧
        (c.kind ≠ .signal → ∃ u v, exec (.waite i) s = .next u ∧ u.threadAt i.core k = some v ∧ v.tstate = .waiting)) ∧
      (Quiet s i (.rte i) k c t → c.kind = .signal →
        (k = 2 → ∃ u, exec (.rte i) s = .next u ∧ (lineFor c 2 = false → (u.core i.core).l2act = false)) ∧
        (∀ lvl x, k = 3 → lvl = t.xcause.toNat / 1024 % 4 → lvl ≠ 3 → (lvl = 2 → c.l2act = true) →
          c.threads[lvl]? = some x → bitOf t.xcause 12 = false → bitOf t.xcause 13 = false →
          ∃ u y, exec (.rte i) s = .next u ∧ (u.core i.core).l3act = false ∧ u.threadAt i.core lvl = some y ∧
            y.pc = t.xpc ∧ y.dslot = none ∧ y.rep = none ∧ y.d = x.d ∧ sameBank x y))) ∧
  (
    ∀ (s : State) (i : Site) (k m : Nat) (c : Core) (t x : Thread) (ds : BitVec 5) (n : BitVec 6) (f : R3),
      c.kind ≠ .signal → m ≠ k → m < ctxCount c.kind → c.threads[m]? = some x →
      let leaves : Instr → (Thread → Prop) → Prop := fun op post => Quiet s i op k c t →
        ∃ u y, exec op s = .next u ∧ u.threadAt i.core m = some y ∧ y.d = x.d ∧ sameBank x y ∧ post y
      (n.toNat = m →
        (x.tstate = .stopped → leaves (.tstart i ds n) (fun y =>
          y.tstate = .ready ∧ y.pc = t.rd ds.toNat ∧ y.entry = t.rd ds.toNat ∧ y.pri = x.pri)) ∧
        (x.tstate = .faulted → bitOf x.xcause 12 = false → leaves (.tresume i n) (fun y =>
          y.tstate = .ready ∧ y.pc = x.xpc ∧ y.pri = x.pri)) ∧
        (x.tstate ≠ .running → leaves (.tstop i n) (fun y => y.tstate = .stopped ∧ y.pc = x.pc ∧ y.pri = x.pri))) ∧
      (f.x = 0 → f.b = 0 → (t.rd f.y.toNat).toNat % 64 = m → leaves (.tset i f) (fun y =>
        y.pri = (t.rd f.z.toNat).truncate 2 ∧ y.tstate = x.tstate ∧ y.pc = x.pc)))

/-- R240–R242: a user decode operation whose entry is valid and holds one micro-operation completes with that
operation's writes, its parameters substituted. -/
def Obligations.UserDecodeOperation : Prop :=
  ∀ (s : State) (i : Site) (k : Nat) (c : Core) (t : Thread) (uidx : BitVec 4) (p0 p1 p2 : BitVec 5) (p3 : BitVec 4)
    (mop : Instr) (j : Site) (g : IssueCtx → OpOut) (ws : List (RegW × Nat)),
    let op := Instr.userDecodeOperation i uidx p0 p1 p2 p3
    let x := viewOf i op k c t
    Quiet s i op k c t → c.kind = .signal → udtValid c.udt uidx.toNat = true → udtLen c.udt uidx.toNat = 1 →
    decodeLong { i with short := false, fin := .more, rsv := false }
      (microWord c.udt uidx.toNat 0 [p0.toNat, p1.toNat, p2.toNat, p3.toNat]) = some mop →
    opBase mop = some (j, g) → j.rsv = false → (g x).acts = ws.map (fun w => .wr w.1 w.2) → (g x).excs = [] →
    ((g x).vec = true → c.vpow = true) → ((g x).fuse = true → FReady c k t) → (∀ w ∈ ws, 1 ≤ w.2) →
    exec op s = .next (landing s i k ws)

/-! ### Exceptions -/

/-- R71, R117, R118, R133, R247: a bundle that raises a precise exception below level L3 writes nothing; level L3
begins at EXVEC with XPC, XCAUSE and XADDR of the faulting bundle, whose level keeps its bank and its place. Code 1 is
an illegal operation, 2 a page fault at the address, 3 a full and 4 an empty spill area. -/
def Obligations.ExceptionEntry : Prop :=
  ∀ (s : State) (i : Site) (k : Nat) (c : Core) (t h : Thread) (f : R3) (am : AMF) (x : BitVec 5) (n : BitVec 8)
    (dbl : Bool) (ea : AWord) (post : Option AWord) (cb : Bool) (d14 : IAddr),
    c.kind = .signal → k < 3 → c.threads[3]? = some h →
    let taken : Instr → Nat → DWord → Prop := fun op code addr => Quiet s i op k c t →
      ∃ u v y, exec op s = .next u ∧ (u.core i.core).run = .lvl 3 ∧ (u.core i.core).l3act = true ∧
        u.threadAt i.core 3 = some y ∧ y.pc = c.exvec ∧ y.xpc = t.pc ∧ y.xcont = 0 ∧ y.xrepc = 0 ∧
        y.xcause = BitVec.ofNat 14 (k * 1024 + code) ∧ y.xaddr = addr ∧ y.d = h.d ∧ sameBank h y ∧
        u.threadAt i.core k = some v ∧ v.pc = t.pc ∧ v.d = t.d ∧ v.stat = t.stat ∧ v.flight = t.flight ∧
        sameBank t v ∧ (u.core i.core).x = c.x ∧ (u.core i.core).y = c.y ∧ (u.core i.core).f = c.f
    (f.b ≠ 0 → taken (.and i f) 1 0 ∧ taken (.addD i f) 1 0) ∧
    (f.x.toNat % 2 = 1 → taken (.addD i f) 1 0) ∧
    (k = 2 → taken (.vadd i f) 1 0) ∧
    taken (.tget i f) 1 0 ∧
    (sysCoreLevel c.kind n.toNat = true → sysDefined c.kind n.toNat = some dbl → taken (.mvs i x n true) 1 0) ∧
    (sysDefined c.kind n.toNat = none → taken (.mvs i x n dbl) 1 0) ∧
    (amode t am.an.toNat am.am am.mm 1 = some (ea, post, cb) →
      (target (viewOf i (.ld i am) k c t) (isA1 am.slot) false ea = .pageFault → taken (.ld i am) 2 (ea.setWidth 28)) ∧
      (target (viewOf i (.st i am) k c t) (isA1 am.slot) true ea = .pageFault → taken (.st i am) 2 (ea.setWidth 28))) ∧
    (amode t am.an.toNat am.am am.mm 1 = none → taken (.ld i am) 1 0 ∧ taken (.st i am) 1 0) ∧
    (t.res = 2 → t.splim.toNat < t.spp.toNat + 16 → taken (.callo i false d14) 3 (t.spp.setWidth 28)) ∧
    (t.res = 0 → t.spp.toNat < t.spbase.toNat + 16 → taken (.reto i false) 4 (t.spp.setWidth 28))

/-! ### Events of a core -/

/-- R57, R68, R121, R125, R136, R137, R182, R183, R197, R258: a unit's owed result comes to its level, window data
comes to its level's return buffer, of a gather that page-faulted to its register too, the timer raises its line, the
L0 window opens and closes, the vector unit changes its power, and the lazy F sequence gives the F file to the level
that waits; a bundle that waited for it tries to issue again. -/
def Obligations.CoreTimeEvents : Prop :=
  ∀ (s : State) (r : CoreRef) (c : Core) (g : Fin 8) (n : Fin 9), s.cores[coreIdx r]? = some c →
    let again : Stall → State → State := fun k u => if c.stall = some k ∧ c.live = true then u.retry r else u
    let owed : UnitPend → Core → Core := fun u d => onThread d u.tid (fun t =>
      { t with flight := t.flight ++ u.ws.map (fun w => { due := t.adv, seq := u.seq, w := w }) })
    (∀ u, c.divu = some u → c.live = true → c.run = .lvl u.tid →
      exec (.divideResultLands r) s =
        .next (again .divider (s.onCore r (fun d => { owed u d with divu := none })))) ∧
    (∀ u, c.fdivu = some u → c.live = true → c.run = .lvl u.tid →
      exec (.divideSquareRootLands r) s =
        .next (again .fdivider (s.onCore r (fun d => { owed u d with fdivu := none })))) ∧
    (∀ u p v t, c.divu = some u → c.run ≠ .lvl u.tid → c.threads[u.tid]? = some t → u.ws = [.d p v] →
      c.stall = none →
      ∃ w y, exec (.divideResultLands r) s = .next w ∧ (w.core r).divu = none ∧ w.threadAt r u.tid = some y ∧
        y.d = smPut t.d p v) ∧
    (∀ tid rid el w rest t, c.inbox = (tid, rid, el, w) :: rest → c.threads[tid]? = some t →
      let mine : Nat × Nat × Nat × Word → Bool := fun e => e.1 == tid && e.2.1 == rid
      ∃ u y, exec (.sharedLoadDataArrival r) s = .next (again .loadData u) ∧
        (u.core r).inbox = c.inbox.filter (fun e => !mine e) ∧ u.threadAt r tid = some y ∧
        y.retbuf = t.retbuf ++ (c.inbox.filter mine).map (fun e => e.2) ∧ y.d = t.d ∧
        ((∀ p ∈ t.flight, ∀ m q, p.w ≠ .load rid m (.kept q)) → sameBank t y) ∧
        (∀ p m q, t.flight = [p] → p.w = .load rid m (.kept q) →
          y.v = putEls t.v (32 * q) ((c.inbox.filter mine).map (fun e => e.2.2)))) ∧
    (c.tmr ≠ 0 → ∃ u, exec (.coreTimerExpiry r) s = .next u ∧ (u.core r).tmr = 0 ∧
      linePending (u.core r) (match c.kind with | .signal => 2 | .supervisor => 28 | .hub => 50) = true ∧
      ∀ m, m ≠ (match c.kind with | .signal => 2 | .supervisor => 28 | .hub => 50) →
        linePending (u.core r) m = linePending c m) ∧
    (r = .sig g n → c.l0win.toNat % 2 ^ 14 ≠ 0 →
      exec (.l0WindowOpen g n) s = .next (s.onCore r (fun d => { d with l0open := true }))) ∧
    (r = .sig g n → exec (.l0WindowClose g n) s = .next (s.onCore r (fun d => { d with l0open := false }))) ∧
    (c.vpin = false → exec (.vectorUnitPowerDown r) s = .next (s.onCore r (fun d => { d with vpow := false }))) ∧
    (c.vpin = true → exec (.vectorUnitPowerDown r) s = .next s) ∧
    (c.vwaking = true → exec (.vectorUnitWake r) s =
      .next (again .vectorWake (s.onCore r (fun d => { d with vpow := true, vwaking := false })))) ∧
    (∀ k t, r = .sig g n → c.stall = some .lazyF → c.run = .lvl k → c.live = true → c.fdivu = none →
      c.threads[k]? = some t → c.x.corr = [] → c.x.unc = [] →
      let other := c.fownv && c.fown != k
      let x1 := if other then c.x.writeList (fArea c c.fown) (fWords c) else c.x
      ∃ d y, exec (.lazyFSequence g n) s = .next ((s.onCore r (fun _ => d)).retry r) ∧ d.fownv = true ∧ d.fown = k ∧
        d.x = x1 ∧ d.threads[k]? = some y ∧ bitOf y.stat 12 = true ∧ y.d = t.d ∧ sameBank t y ∧
        d.fstat = smGet x1.cells (t.fsave.toNat + 32) &&& 0x1F1F ∧
        (∀ i, i < 16 → smGet d.f i =
          smGet x1.cells (t.fsave.toNat + 2 * i + 1) ++ smGet x1.cells (t.fsave.toNat + 2 * i)))

/-- R69, R124, R127, R141, R216, R218, R467: at a dispatch point the core changes to the highest ready level in the
order of the L0 window, or to the ready context the scheduler picks; what parks and what enters keep their banks. A
trap that is due is taken there as an exception of its level, or faults its context. -/
def Obligations.Dispatches : Prop :=
  ∀ (s : State) (r : CoreRef) (c : Core) (k m : Nat) (t x : Thread) (g : Fin 8) (n : Fin 9),
    s.cores[coreIdx r]? = some c → c.live = true → c.stall = none → c.fresh = false → c.run = .lvl k →
    c.threads[k]? = some t → c.threads[m]? = some x → dispatchPoint t = true → t.stopReq = false → c.markOut = [] →
    (r = .sig g n → c.kind = .signal → t.trapDue = none → m ≠ k →
      ([3, 2] ++ (if c.l0open then [0, 1] else [1, 0])).find? (readyLevel c) = some m →
      ∃ u v y, exec (.eventDispatch g n) s = .next u ∧ (u.core r).run = .lvl m ∧ (u.core r).cycles = c.cycles + 5 ∧
        (u.core r).l2act = (c.l2act || m == 2) ∧ u.threadAt r k = some v ∧ v.pc = t.pc ∧ v.stat = t.stat ∧ v.d = t.d ∧
        sameBank t v ∧ u.threadAt r m = some y ∧ y.d = x.d ∧ sameBank x y ∧
        y.pc = (if m = 2 ∧ c.l2act = false then c.l2vec else x.pc) ∧
        (m ≠ c.runShown → bitOf y.stat 12 = false)) ∧
    ((r = .sup g ∧ c.kind = .supervisor) ∨ (r = .hub ∧ c.kind = .hub) → t.trapDue = none → m ≠ k →
      pickCtx c = some m →
      ∃ u v y, exec (.contextDispatch r) s = .next u ∧ (u.core r).run = .lvl m ∧ (u.core r).cycles = c.cycles + 5 ∧
        u.threadAt r k = some v ∧ v.pc = t.pc ∧ v.d = t.d ∧ sameBank t v ∧
        (t.tstate = .running → v.tstate = .ready) ∧
        u.threadAt r m = some y ∧ y.tstate = .running ∧ y.pc = x.pc ∧ y.d = x.d ∧ sameBank x y) ∧
    (∀ code, t.trapDue = some code →
      let cause : Nat → Word := fun l => BitVec.ofNat 14 (b2n t.rep.isSome * 2 ^ 12 + l * 2 ^ 10 + code.toNat)
      (r = .sig g n → c.kind = .signal → k < 3 → m = 3 →
        ∃ u y, exec (.f28TrapTaken r) s = .next u ∧ (u.core r).run = .lvl 3 ∧ (u.core r).l3act = true ∧
          u.threadAt r 3 = some y ∧ y.pc = c.exvec ∧ y.xpc = t.pc ∧ y.xcause = cause k ∧ y.xaddr = 0 ∧ y.d = x.d) ∧
      (c.kind = .supervisor → r = .sup g → k ≠ c.xctx →
        ∃ u y, exec (.f28TrapTaken r) s = .next u ∧ u.threadAt r k = some y ∧ y.tstate = .faulted ∧ y.xpc = t.pc ∧
          y.xcause = cause 0 ∧ y.d = t.d ∧ linePending (u.core r) 29 = true))

/-! ### The fabric and the memories -/

/-- R255, R256, R260, R270: in a column, a bank serves the oldest request to it of the requester whose OWNER code the
bank-slot table holds, or, in a free slot, of the next waiting requester in the order of the codes; the device-global
path serves its oldest request, hub memory in the geode's turn. The words read go back to the requester. -/
def Obligations.RequestsServed : Prop :=
  ∀ (s : State) (g : Fin 8) (b col : BitVec 4) (x : Geode) (q : MemReq) (c : Core),
    s.geodes[g.val]? = some x → s.cores[coreIdx (coreOfReq g q.by_)]? = some c → c.stop = none → c.sb = [] →
    c.stall ≠ some .requests → c.lateReqs = [] → (match q.by_ with | .core n => n < 9 | _ => True) →
    x.mem.corr = [] → x.mem.unc = [] → x.bstE = {} → s.hub.mem.corr = [] → s.hub.mem.unc = [] →
    (∀ k, (s.geode k).bstE = {}) →
    let o := bstAt x.bst (16 * col.toNat + b.toNat)
    let served : Nat → Prop := fun rr =>
      exec (.bankRequestServed g (.bank b col)) s = .next ((s.onGeode g.val (fun y =>
        { y with column := col, reqs := y.reqs.erase q, rr := rr })).onCore (coreOfReq g q.by_) (fun d =>
          { d with inbox := d.inbox ++ q.offs.map (fun p => (q.tid, q.rid, p.1, smGet x.mem.cells p.2)) }))
    (o ≠ 0xF → ownedReq x b.toNat o.toNat = some q → served x.rr) ∧
    (o ≠ 0xF → ownedReq x b.toNat o.toNat = none →
      exec (.bankRequestServed g (.bank b col)) s = .next (s.onGeode g.val (fun y => { y with column := col }))) ∧
    (∀ k, o = 0xF → k < 13 → (∀ j, j < k → ownedReq x b.toNat ((x.rr + 1 + j) % 13) = none) →
      ownedReq x b.toNat ((x.rr + 1 + k) % 13) = some q → served ((x.rr + 1 + k) % 13)) ∧
    (∀ rest, x.greqs = q :: rest → (∀ p ∈ q.offs, p.2 < 0x880000) →
      (∃ k, k < 8 ∧ (s.hub.rrG + 1 + k) % 8 = g.val ∧
        ∀ j, j < k → (s.hub.rrG + 1 + j) % 8 ≠ g.val ∧ s.hubAsks ((s.hub.rrG + 1 + j) % 8) = false) →
      exec (.bankRequestServed g .global) s = .next (((s.onHub (fun h => { h with rrG := g.val })).onGeode g.val (fun y =>
        { y with greqs := rest })).onCore (coreOfReq g q.by_) (fun d => { d with inbox := d.inbox ++ q.offs.map (fun p =>
          (q.tid, q.rid, p.1, smGet s.hub.mem.cells (p.2 - 0x800000))) }))) ∧
    (∀ rest, x.greqs = q :: rest → (∃ p ∈ q.offs, 0x880000 ≤ p.2) →
      exec (.bankRequestServed g .global) s = .next ((s.onGeode g.val (fun y => { y with greqs := rest })).onCore
        (coreOfReq g q.by_) (fun d => { d with inbox := d.inbox ++ q.offs.map (fun p => (q.tid, q.rid, p.1,
          if p.2 < 0x880000 then smGet s.hub.mem.cells (p.2 - 0x800000)
          else s.fabricRead ((p.2 - 0x880000) / 0x1000 % 8) (p.2 % 0x1000))) })))

/-- R255, R256, R260, R273, R275: the head entry of a store buffer writes its words, in a slot of its requester's bank
or in a free one, where nothing earlier of its core to the same place waits, and leaves the buffer; with no slot it
waits; a SIGNAL marker raises the line of the geode's signal cores and latches in its channels. -/
def Obligations.StoreBufferDrains : Prop :=
  ∀ (s : State) (r : CoreRef) (c : Core) (e : SbEntry) (rest : List SbEntry), s.cores[coreIdx r]? = some c →
    c.sb = e :: rest →
    let again : State → State := fun u => if c.stall = some .storeBuffer ∧ c.live = true then u.retry r else u
    let gone : State → State := fun u => again (u.onCore r (fun d => { d with sb := rest }))
    (∀ g x w ws, coreGeode r = some g → s.geodes[g]? = some x → e.kind = .shm (w :: ws) →
      let code := ownerCode x (requesterOf r)
      let owns : Nat → Prop := fun col => bstAt x.bst (16 * col + bankOf w.1) = BitVec.ofNat 4 code
      let writes : Nat → Nat → Prop := fun col rr => exec (.storeBufferDrain r) s = .next (gone (s.onGeode g (fun y =>
        { y with column := BitVec.ofNat 4 col, rr := rr, mem := (w :: ws).foldl (fun m v => m.write v.1 v.2) y.mem })))
      c.lateReqs = [] → (∀ q ∈ x.reqs, q.by_ = requesterOf r → q.id < e.id → reqBank q ≠ bankOf w.1) →
      (∀ v ∈ w :: ws, v.1 < 0x200000) → code < 12 →
      (∀ col, col < 16 → owns col → (∀ k, k < col → ¬owns k) → writes col x.rr) ∧
      ((∀ col, col < 16 → ¬owns col) →
        (∀ k, k < 13 → (x.rr + 1 + k) % 13 = code →
          (∀ j, j < k → ownedReq x (bankOf w.1) ((x.rr + 1 + j) % 13) = none) →
          (∀ col, col < 16 → bstAt x.bst (16 * col + bankOf w.1) = 0xF →
            (∀ i, i < col → bstAt x.bst (16 * i + bankOf w.1) ≠ 0xF) → writes col code)) ∧
        ((∀ col, col < 16 → bstAt x.bst (16 * col + bankOf w.1) ≠ 0xF) → exec (.storeBufferDrain r) s = .next s))) ∧
    (∀ ws, e.kind = .glb ws → (∀ w ∈ ws, 0x800000 ≤ w.1 ∧ w.1 < 0x880000) → c.lateReqs = [] →
      (∀ g, coreGeode r = some g → (s.geode g).greqs = [] ∧ ∀ k, k < 8 → s.hubAsks k = false) →
      let turn := match coreGeode r with | some g => s.hubServed g | none => s
      exec (.storeBufferDrain r) s = .next (gone (turn.onHub (fun h =>
        { h with mem := ws.foldl (fun m w => m.write (w.1 - 0x800000) w.2) h.mem })))) ∧
    (∀ (g : Fin 8) u x, coreGeode r = some g.val → s.geodes[g.val]? = some x → e.kind = .signal u → c.stall = none →
      ∃ w, exec (.storeBufferDrain r) s = .next w ∧ (w.core r).sb = rest ∧
        (∀ n : Fin 9, ∀ d, s.cores[9 * g.val + n.val]? = some d →
          linePending (w.core (.sig g n)) (20 + u.toNat) = true) ∧
        (w.geode g.val).chans = x.chans.map (fun h => { h with latch := h.latch ||| (1#9 <<< u.toNat) })) ∧
    (∀ u, r = .hub → e.kind = .signal u → c.stall = none →
      ∃ w, exec (.storeBufferDrain r) s = .next w ∧ (w.core r).sb = rest ∧
        w.hub.chans = s.hub.chans.map (fun h => { h with latch := h.latch ||| (1#9 <<< u.toNat) }))

/-- R265–R267, R281: the allocator decides the oldest page request, and its entry, Z and V go back to the core; a page
that nothing maps any more is zeroed, in free slots that nobody waits for (R256), once its drain markers have arrived,
and then enters the pool. -/
def Obligations.PageAllocation : Prop :=
  ∀ (s : State) (g : Fin 8) (x : Geode) (c : Core) (q : PageReq) (rest : List PageReq), s.geodes[g.val]? = some x →
    (x.pageReqs = q :: rest → s.cores[coreIdx (pageCore g q.core)]? = some c → c.stop = none →
      let i := masterIdx q.core q.tid q.vpage
      let e := smGet x.master i
      let k := e.toNat % 512
      let cleared := { x with master := smPut x.master i (e &&& 0x1FFF), owed := x.owed ++ [k] }
      let answers : Geode → Word → Bool → Bool → Prop := fun y e z v =>
        let u := (s.onGeode g.val (fun _ => { y with pageReqs := rest })).onCore (pageCore g q.core) (fun d =>
          { d with pageRes := d.pageRes ++ [(q.id, e, z, v)] })
        exec (.pageRequestDecided g) s =
          .next (if c.stall = some .loadData ∧ c.live = true then u.retry (pageCore g q.core) else u)
      (q.alloc = true → bitOf e 13 = true → answers x e true false) ∧
      (q.alloc = true → bitOf e 13 = false → x.pool = [] → answers x e false true) ∧
      (∀ p ps, q.alloc = true → bitOf e 13 = false → x.pool = p :: ps →
        answers { x with master := smPut x.master i (0x2000 ||| BitVec.ofNat 14 p), pool := ps }
          (0x2000 ||| BitVec.ofNat 14 p) false false) ∧
      (q.alloc = false → bitOf e 13 = true → answers
        { cleared with zeroing := if k ≠ 0 ∧ pageCount cleared k = 0 then x.zeroing ++ [k] else x.zeroing }
        (e &&& 0x1FFF) false false) ∧
      (q.alloc = false → bitOf e 13 = false → answers x e true false)) ∧
    (∀ m before after, x.markers = before ++ m :: after →
      (∀ n ∈ before, markerArrives x (s.core (pageCore g n.core)) n = false) →
      markerArrives x (s.core (pageCore g m.core)) m = true →
      exec (.drainMarkerArrival g) s = .next (s.onGeode g.val (fun y =>
        { y with markers := before ++ after, owed := y.owed.erase m.page }))) ∧
    (∀ k before after, x.zeroing = before ++ k :: after → (∀ n ∈ before, n ∈ x.owed) → k ∉ x.owed →
      Memory.wf x.mem = true → (∀ b, b < 16 → bankIdle x b = true) →
      ∃ u y, exec (.pageZeroingComplete g) s = .next u ∧ u.geodes[g.val]? = some y ∧ y.zeroing = before ++ after ∧
        y.pool = insAsc x.pool k ∧ Memory.wf y.mem = true ∧ y.master = x.master ∧
        ∀ a, smGet y.mem.cells a = if 4096 * k ≤ a ∧ a < 4096 * k + 4096 then 0 else smGet x.mem.cells a)

/-- R270–R272: a scrub step reads the next word of X, Y or instruction memory, or the next row of shared or hub
memory, corrects and counts, and moves on around the memory; an uncorrectable word of a core in service raises its
attention line. -/
def Obligations.Scrubbing : Prop :=
  ∀ (s : State) (r : CoreRef) (c : Core) (g : Fin 8) (n : Fin 9) (x : Geode), s.cores[coreIdx r]? = some c →
    s.geodes[g.val]? = some x →
    let fixed : Nat → Nat → List Nat → Nat := fun old a corr => ctrAdd 16 old (b2n (corr.contains a))
    (c.scrubX ∉ c.x.unc → exec (.scrubStep (.x r)) s = .next (s.onCore r (fun d =>
      { d with x := c.x.corrected c.scrubX, scrubX := (c.scrubX + 1) % 65536
               eccCorr := fixed c.eccCorr c.scrubX c.x.corr, eccUnc := ctrAdd 16 c.eccUnc 0 }))) ∧
    (c.scrubY ∉ c.y.unc → exec (.scrubStep (.y r)) s = .next (s.onCore r (fun d =>
      { d with y := c.y.corrected c.scrubY, scrubY := (c.scrubY + 1) % 65536
               eccCorr := fixed c.eccCorr c.scrubY c.y.corr, eccUnc := ctrAdd 16 c.eccUnc 0 }))) ∧
    (r = .sig g n → c.scrubI ∉ c.imem.unc → exec (.scrubStep (.imem g n)) s = .next (s.onCore r (fun d =>
      { d with imem := c.imem.corrected c.scrubI, scrubI := (c.scrubI + 1) % 16384
               eccCorr := fixed c.eccCorr c.scrubI c.imem.corr, eccUnc := ctrAdd 16 c.eccUnc 0 }))) ∧
    (∀ d, r = .sig g n → c.scrubX ∈ c.x.unc → c.svc = true → s.cores[72 + g.val]? = some d →
      ∃ u, exec (.scrubStep (.x r)) s = .next u ∧ (u.core r).attn = true ∧ (u.core r).run = c.run ∧
        (u.core r).stop = c.stop ∧ (u.core r).scrubX = (c.scrubX + 1) % 65536 ∧
        linePending (u.core (.sup g)) (1 + n.val) = true) ∧
    (bankIdle x (bankOf x.scrub) = false → exec (.scrubStep (.shared g)) s = .next s) ∧
    (bankIdle x (bankOf x.scrub) = true → (∀ a ∈ rowWords x.scrub, a ∉ x.mem.unc) → x.scrub + 32 < 0x200000 →
      exec (.scrubStep (.shared g)) s = .next (s.onGeode g.val (fun y =>
        { y with
          mem := (rowWords x.scrub).foldl EMem.corrected y.mem
          eccCorr := ctrAdd 16 y.eccCorr ((rowWords x.scrub).filter (fun a => x.mem.corr.contains a)).length
          scrub := x.scrub + 32 }))) ∧
    ((∀ a ∈ rowWords s.hub.scrub, a ∉ s.hub.mem.unc) →
      exec (.scrubStep .hubmem) s = .next (s.onHub (fun h =>
        { h with
          mem := (rowWords s.hub.scrub).foldl EMem.corrected h.mem
          eccCorr := ctrAdd 16 h.eccCorr ((rowWords s.hub.scrub).filter (fun a => s.hub.mem.corr.contains a)).length
          eccUnc := ctrAdd 16 h.eccUnc 0
          scrub := (s.hub.scrub + 32) % 0x80000 })))

/-- R109, R123, R243, R244, R249, R263, R266, R517: the core control port writes a halted core's memories, tables,
banks and user decode words, and answers a write to a core that runs with a refusal; the supervisor mailbox raises
line 1; a header with V = 1 is kept only if its entry is valid. R12, R15, R16, R261: a fabric register takes its
write. -/
def Obligations.PortAndRegisterWrites : Prop :=
  ∀ (s : State) (g : Fin 8) (n : Fin 9) (c : Core) (a : BitVec 17) (i : IAddr) (v : Word) (w : DWord) (t : Fin 3)
    (p : BitVec 10) (b l1 : Bool) (idx : BitVec 4) (off : BitVec 12),
    s.cores[coreIdx (.sig g n)]? = some c →
    let r := CoreRef.sig g n
    let port : PortWrite → State → Prop := fun x u => exec (.coreControlPortWrite g n x) s = .next u
    let h := c.isHalted
    let refused := s.onGeode g.val (fun y => { y with portRefusals := y.portRefusals + 1 })
    let noted := refused.onCore r (fun d => { d with udtstat := d.udtstat ||| 0x2000 })
    (h = true →
      port (.data a v) (s.onCore r (fun d => if a.toNat < 0x10000 then { d with x := d.x.write a.toNat v }
        else { d with y := d.y.write (a.toNat - 0x10000) v })) ∧
      port (.syllable i w) (s.onCore r (fun d => { d with imem := d.imem.write i.toNat w })) ∧
      port (.table t p v) ((s.onCore r (fun d => putTbl d (1024 * t.val + p.toNat) (v &&& 0x31FF))).onGeode
        g.val (fun y => { y with master := smPut y.master (masterIdx n.val t.val p.toNat) (v &&& 0x31FF) })) ∧
      port (.service b) (s.onCore r (fun d => { d with svc := b })) ∧
      (∀ (l : Fin 4) (k : Fin 16) (z : BitVec 1792), port (.bankReg l (.a k) z) (s.onCore r (fun d => onThread d l.val (fun y =>
        { y with a := smPut y.a k.val (BitVec.ofNat 24 z.toNat) })))) ∧
      (∃ u y, exec (.coreControlPortWrite g n (.start l1 i)) s = .next u ∧
        ((∃ z, c.threads[b2n l1]? = some z) → u.threadAt r (b2n l1) = some y ∧ y.pc = i ∧ y.dslot = none) ∧
        (if l1 then (u.core r).l1st else (u.core r).l0st) = true ∧ (u.core r).halted = false)) ∧
    (h = false → port (.data a v) refused ∧ port (.syllable i w) refused ∧ port (.table t p v) refused ∧
      port (.start l1 i) refused ∧ port (.service b) refused ∧ port (.sysReg (off.truncate 8) w) refused ∧
      (∀ (l : Fin 4) (k : Fin 16) (z : BitVec 1792), port (.bankReg l (.d ⟨k.val, by omega⟩) z) refused) ∧
      port (.udtWord (off.truncate 9) v) noted ∧ exec (.udtHeaderWrite g n idx v) s = .next noted) ∧
    port .mailbox (s.onCore r (fun d => raiseLine d 1)) ∧
    (h = true → (bitOf v 13 = false ∨ udtWhy c.udt idx.toNat v = 0) →
      exec (.udtHeaderWrite g n idx v) s = .next (s.onCore r (fun d => putUdt d (26 * idx.toNat) v))) ∧
    (h = true → bitOf v 13 = true → udtWhy c.udt idx.toNat v ≠ 0 →
      exec (.udtHeaderWrite g n idx v) s = .next (s.onCore r (fun d =>
        { putUdt d (26 * idx.toNat) (v &&& 0x1FFF) with
          udtstat := (d.udtstat &&& 0x2000) ||| 0x1000 |||
            BitVec.ofNat 14 (idx.toNat * 2 ^ 8 + udtWhy c.udt idx.toNat v) }))) ∧
    (let reg : State → Prop := fun u => exec (.registerWrite (.fabric g off v)) s = .next u
     (off = 0 → reg (s.onGeode g.val (fun x =>
       { x with cfgerr := x.cfgerr && !bitOf v 13, unc := x.unc && !bitOf v 12, offp := x.offp && !bitOf v 11 }))) ∧
     (0x200 ≤ off.toNat → off.toNat < 0x300 →
       reg (s.onGeode g.val (fun x =>
         if 0xC ≤ v.toNat % 16 ∧ v.toNat % 16 ≤ 0xE then { x with cfgerr := true }
         else { x with bstn := smPut x.bstn (off.toNat - 0x200) (v.truncate 4 ^^^ 0xF#4), bstE := x.bstE.written (off.toNat - 0x100) }))) ∧
     (0x100 ≤ off.toNat → off.toNat < 0x200 → reg s))

/-! ### Time and beacons -/

/-- R504: a tick adds the rate word to device time. The steps of R452 that time alone brings come at the latest times
it allows (the model's choice, log entry 79), and PPS_OUT falls 100 ms after it rose (R507). -/
def Obligations.TimeTicks : Prop :=
  ∀ (s : State),
    let t := s.aon.time + BitVec.ofNat 122 s.aon.rate
    let since : Nat → Prop := fun ms => ms * 2 ^ 80 ≤ 1000 * (t.toNat - s.aon.started.toNat)
    (s.aon.inReset = true → s.aon.startKind = 1 → exec .timerefTick s = .next s) ∧
    (s.aon.inReset = false → s.aon.ppsHigh = false →
      (5 ≤ s.aon.stage → exec .timerefTick s = .next (s.onAon (fun a => { a with time := t }))) ∧
      (s.aon.stage = 0 → since 15 → ∃ u, exec .timerefTick s = .next u ∧ u.aon.time = t ∧ u.aon.stage = 1 ∧
        u.aon.fuseLoaded = true ∧ u.aon.fuseW = [] ∧
        ∀ (n : Nat) (c : Core), 72 ≤ n → n < 81 → s.cores[n]? = some c → ∃ d : Core, u.cores[n]? = some d ∧ d.halted = false ∧
          d.threads = c.threads) ∧
      (s.aon.stage = 1 → since 30 → ∃ u, exec .timerefTick s = .next u ∧ u.aon.time = t ∧ u.aon.stage = 2 ∧
        u.mon.open_ = true) ∧
      (s.aon.stage = 2 → since 40 → ∃ u a b, exec .timerefTick s = .next u ∧ u.aon.time = t ∧ u.aon.stage = 3 ∧
        u.out = .uart (ascii "> ") :: .uart (ascii "GLEVON FJ3214-HB REV 01 ROM " ++ a ++ ascii " FAULT " ++ b ++ [13, 10])
          :: s.out) ∧
      (s.aon.stage = 3 → since 80 → ∃ u, exec .timerefTick s = .next u ∧ u.aon.time = t ∧ u.aon.stage = 4 ∧
        u.link.cfgReady = true) ∧
      (s.aon.stage = 4 → since 100 → ∃ u, exec .timerefTick s = .next u ∧ u.aon.time = t ∧ u.aon.stage = 5 ∧
        u.hub.windowQ = List.range 8)) ∧
    (s.aon.inReset = false → s.aon.ppsHigh = true → 5 ≤ s.aon.stage → 2 ^ 80 ≤ 10 * (t.toNat % 2 ^ 80) →
      exec .timerefTick s = .next ((s.onAon (fun a => { a with time := t, ppsHigh := false })).emit (.ppsOut false)))

/-- R27, R28, R31, R46, R48, R123, R125, R142, R474: at its time the next beacon leaves for the hub and the geodes, a
new period beginning with the beacon that starts it; where it arrives, counters are captured, an L0 window closes and
line 0 becomes pending. -/
def Obligations.Beacons : Prop :=
  ∀ (s : State) (g : Fin 8) (k : Fin 9) (n : U32) (rest : List U32) (x : Geode) (c : Core),
    (s.aon.inReset = false → s.aon.nextBeacon = n → (beaconTime s.aon n ≤ (now56 s.aon : Int)) →
      s.aon.islandsOff = false →
      ∃ u, exec .beaconEmit s = .next u ∧ u.aon.lastBeacon = some n ∧ u.aon.nextBeacon = n + 1 ∧
        u.aon.snap = some (n, [s.aon.ppsEdges.toNat, s.aon.irigErr]) ∧ u.hub.beacons = s.hub.beacons ++ [n] ∧
        (∀ (j : Nat) (y : Geode), s.geodes[j]? = some y →
          ∃ z : Geode, u.geodes[j]? = some z ∧ z.beacons = y.beacons ++ [n] ∧ z.mem = y.mem) ∧
        (s.aon.newPeriod = none → u.aon.f = s.aon.f ∧ u.aon.fs = s.aon.fs ∧ u.aon.n0 = s.aon.n0 ∧ u.aon.t0 = s.aon.t0) ∧
        (∀ f fs, s.aon.newPeriod = some (n, f, fs) → u.aon.f = f ∧ u.aon.fs = fs ∧ u.aon.n0 = n ∧
          u.aon.newPeriod = none)) ∧
    (s.aon.nextBeacon = n → (now56 s.aon : Int) < beaconTime s.aon n → exec .beaconEmit s = .next s) ∧
    (s.geodes[g.val]? = some x → x.beacons = n :: rest → x.inReset = false → s.aon.islandsOff = false →
      s.hub.halted = false → s.jobOn g.val = none → s.cores[72 + g.val]? = some c →
      ∃ (u : State) (y : Geode), exec (.beaconArrivalGeode g) s = .next u ∧ u.geodes[g.val]? = some y ∧ y.beacons = rest ∧
        y.beacon = some n ∧ y.snap = some (n, s.fabricCounters g.val) ∧
        linePending (u.core (.sup g)) 0 = true ∧
        (∀ (j : Nat) (d : Core), s.cores[9 * g.val + j]? = some d → j < 9 → ∃ e : Core, u.cores[9 * g.val + j]? = some e ∧
          e.beacons = d.beacons ++ [n] ∧ e.threads = d.threads)) ∧
    (s.cores[coreIdx (.sig g k)]? = some c → c.beacons = n :: rest →
      ∃ u, exec (.beaconEventCoreArrival g k) s = .next u ∧ (u.core (.sig g k)).beacons = rest ∧
        (u.core (.sig g k)).snap = [c.issued, c.flushed, c.vwakes, c.offAcc, c.offStall, c.eccCorr, c.eccUnc] ∧
        (u.core (.sig g k)).l0open = false ∧ linePending (u.core (.sig g k)) 0 = true) ∧
    (s.hub.beacons = n :: rest → s.aon.islandsOff = false → s.hub.halted = false → s.hub.resetting = false →
      s.hub.jobs = [] → (∀ f ∈ s.fns, f.flr = false) → s.cores[80]? = some c →
      ∃ u, exec .beaconArrivalHub s = .next u ∧ u.hub.beacons = rest ∧ u.hub.beacon = some n ∧
        u.hub.snap = some (n, s.hubCounters) ∧ u.hub.log = s.hub.log.map (fun e => { e with readable := true }) ∧
        linePending (u.core .hub) 0 = true)

/-- R24, R40, R41, R42–R45, R135, R142, R143, R271, R325, R336, R464–R466, R468: the mailbox message that was sent
first raises its line; a core that misses the checkpoint that it owes, or asks for attention while the supervisor
would replace it, is eclipsed: it stops, the eclipse is counted, logged and reported, and the spare is prepared for
its role, or takes it at once before the first frame, or the slot is lost; the spare takes the role's image; an
eclipsed core that passes self-test becomes the spare, one that fails is retired. -/
def Obligations.MailboxesAndFailedCores : Prop :=
  ∀ (s : State) (g : Fin 8) (n : Fin 9) (m : MailMsg) (rep : GeodeReport) (x : Geode) (c d h : Core) (j : Job),
    s.geodes[g.val]? = some x → s.cores[coreIdx (.sig g n)]? = some c → s.cores[72 + g.val]? = some d →
    s.cores[80]? = some h →
    (s.hub.mail.find? (fun e => e.1 == g.val) = some (g.val, m) →
      exec (.hubMailboxMessage g m) s = .next (((s.onHub (fun y => { y with mail := y.mail.erase (g.val, m) })).onGeode
        g.val (fun y => { y with mailbox := y.mailbox ++ [m] })).onCore (.sup g) (fun e => raiseLine e 10))) ∧
    exec (.geodeMailboxMessage g rep) s = .next (s.onCore .hub (fun e => raiseLine e (1 + g.val))) ∧
    (d.isHalted = false → s.jobOn g.val = some j →
      let now := x.beacon.getD 0
      let r := x.role.idxOf n.val
      let holds := x.role.contains n.val = true ∧ r ∉ x.lost.map (fun l => l.1)
      let eclipsed : State → Nat → Prop := fun u why =>
        ∃ (y : Geode) (e : Core), u.geodes[g.val]? = some y ∧ u.cores[coreIdx (.sig g n)]? = some e ∧
          y.eclipses = ctrAdd 16 x.eclipses 1 ∧ (x.spare ≠ some n.val → e.stop.isSome = true) ∧
          ((∀ sp, x.spare = some sp → sp < 9) → linePending (u.core .hub) (1 + g.val) = true) ∧
          (holds → x.spare.isSome = true → x.eclipse = none → atOrAfter now j.first = true →
            ∃ f, y.eclipse = some f ∧ f.slot = r ∧ f.core = n.val ∧ f.copied = false) ∧
          (∀ sp, holds → x.spare = some sp → x.eclipse = none → atOrAfter now j.first = false →
            y.role = (x.role.map (fun k => if k = sp then n.val else k)).set r sp ∧ y.spare = none ∧ y.eclipse = none) ∧
          (holds → (x.spare = none ∨ x.eclipse.isSome = true) → ∃ b, y.lost = x.lost ++ [(r, b)] ∧ y.role = x.role) ∧
          (s.hub.halted = false → s.aon.islandsOff = false → s.hub.log.length < 4095 → (∀ l ∈ s.hub.log, l.readable = true) →
            ∃ l ∈ u.hub.log, l.kind = 0x0D ∧ l.job = j.id ∧ l.a = u32 why)
      (c.stop = none → c.checkpointDue = true →
        ∃ u, exec (.watchdogMiss g n) s = .next u ∧ eclipsed u (if c.l3act then 2 else 3) ∧
          (u.geode g.val).wdogMiss = ctrAdd 16 x.wdogMiss 1) ∧
      (c.attn = true →
        (c.svc = true ∨ (x.lodeSlot.isSome = true ∧ holds) ∨ (x.spare = some n.val ∧ x.eclipse.isSome = true)) →
        ∃ u, exec (.coreAttention g n) s = .next u ∧ (u.core (.sig g n)).attn = false ∧
          eclipsed u (if c.stop = some .doubleFault then 2 else 1)) ∧
      (∀ (e : Eclipse) (sp : Nat) (b : Core), x.eclipse = some e → x.spare = some sp → sp < 9 → e.copied = false →
        s.cores[9 * g.val + sp]? = some b →
        ∃ (u : State) (y : Geode) (f : Core), exec (.spareImageCopyComplete g) s = .next u ∧ u.geodes[g.val]? = some y ∧
          y.eclipse = some { e with copied := true } ∧ y.role = x.role ∧ y.spare = x.spare ∧
          u.cores[9 * g.val + sp]? = some f ∧ f.stop = none ∧
          (j.releaseAt = none →
            f.x.cells = smOf 0 (sectUnits (s.lodeOf j.slot) 2 (lodeGeode j g.val) e.slot 0) ∧
            f.y.cells = smOf 0 (sectUnits (s.lodeOf j.slot) 3 (lodeGeode j g.val) e.slot 0)))) ∧
    (d.isHalted = false → n.val ∉ x.retired → c.held = false → (n.val ∈ x.eclipsed ∨ (x.spare = some n.val ∧ x.eclipse = none)) →
      (∃ (u : State) (y : Geode), exec (.coreSelfTestComplete g n true) s = .next u ∧ u.geodes[g.val]? = some y ∧
        n.val ∉ y.eclipsed ∧ y.spare = (if x.spare.isNone then some n.val else x.spare) ∧ y.retired = x.retired) ∧
      (∃ (u : State) (y : Geode), exec (.coreSelfTestComplete g n false) s = .next u ∧ u.geodes[g.val]? = some y ∧
        n.val ∉ y.eclipsed ∧ y.retired = x.retired ++ [n.val] ∧
        y.spare = (if x.spare = some n.val then none else x.spare)))

/-! ### DMA -/

/-- R281–R283, R300, R308: the engine takes the command in word 0 of a channel's control block: START sets the channel
from the block or refuses it (ERR 1 busy, 2 checks), DISABLE stops it, at once or when its reads are back, a reserved
command gives ERR 3; CQHEAD is read whenever it is written, and a blocked channel that finds space goes on. -/
def Obligations.DmaCommands : Prop :=
  ∀ (s : State) (e : Eng) (n : Fin 32) (c : Chan) (cmd : BitVec 3) (v : Word), chanOk e n.val = true →
    (s.chans e)[n.val]? = some c →
    (match e with | .geode g => (s.geode g.val).mem.corr = [] ∧ (s.geode g.val).mem.unc = []
                  | .host => s.hub.mem.corr = [] ∧ s.hub.mem.unc = []) →
    let word : Nat → Word := fun k => match e with
      | .geode g => smGet (s.geode g.val).mem.cells (32 * n.val + k)
      | .host => smGet s.hub.mem.cells (0x7F000 + 32 * n.val + k)
    let ws := (List.range 24).map word
    let leaves : Instr → Chan → Prop := fun op d => ∃ u, exec op s = .next u ∧ u.chan e n.val = d
    ((word 0).toNat % 8 = 1 →
      (chBusy c = true → leaves (.start e n) { c with err := 1 }) ∧
      (chBusy c = false → startOk e ws = true → leaves (.start e n) { chanOf e ws with ecc := c.ecc }) ∧
      (chBusy c = false → startOk e ws = false → leaves (.start e n) { c with err := 2 })) ∧
    ((word 0).toNat % 8 = 2 →
      (chBusy c = false → leaves (.disable e n) { c with err := 0 }) ∧
      (chBusy c = true → c.reads ≠ [] → leaves (.disable e n) { c with stopDue := true, err := 0 }) ∧
      (chBusy c = true → c.reads = [] → ∃ u, exec (.disable e n) s = .next u ∧ (u.chan e n.val).state = .stopped ∧
        (u.chan e n.val).instr = none ∧ (u.chan e n.val).move = none ∧ (u.chan e n.val).owes = none)) ∧
    (3 ≤ cmd.toNat → (word 0).toNat % 8 = cmd.toNat → leaves (.dmaCommandReserved e n cmd) { c with err := 3 }) ∧
    (let d := { c with cqhead := v }
     let goes := if c.state = .blocked ∧ queueFull d = false then { d with state := .running } else d
     leaves (.cqheadWrite e n v) goes ∧ (s.engWrite e (ccbBase e n.val + 10) v).chan e n.val = goes)

/-- R284, R286, R294, R298–R301, R305, R307: a fetched instruction is kept or refused with its cause; LOOP, ENDL,
WAIT, SIGNAL, REC and HALT have their effect on the channel that has the beat, which counts in BUSED; a full queue
blocks a channel; a beat beyond BUDGET stops it with a record. Fetches and records of a geode engine take slots of
requester 0xA (R255, R279). -/
def Obligations.DmaControlBeats : Prop :=
  ∀ (s : State) (e : Eng) (n : Fin 32) (c : Chan) (i : List DWord), (s.chans e)[n.val]? = some c → chanOk e n.val = true →
    let f := dwField (i.getD 0 0) 0 14
    let past := { c with instr := none, move := none, state := .running, bused := c.bused + 1
                         pc := (c.pc + 1) % Nat.max 1 c.plen.toNat }
    let leaves : Instr → Chan → Prop := fun op d => ∃ u, exec op s = .next u ∧ u.chan e n.val = d
    let clear := ∀ a ∈ recAddrs c, 0x200 ≤ a ∧ (a < 0x7F000 ∨ 0x7F400 ≤ a) ∧ a < engSize e
    (c.state = .running → c.instr = none → c.owes = none → s.dmaSlots e = true →
      (match e with | .geode g => (s.geode g.val).mem.corr = [] ∧ (s.geode g.val).mem.unc = []
                    | .host => s.hub.mem.corr = [] ∧ s.hub.mem.unc = []) →
      let word : Nat → Word := fun a => match e with
        | .geode g => smGet (s.geode g.val).mem.cells a
        | .host => smGet s.hub.mem.cells a
      let at_ : Nat → DWord := fun k =>
        let a := c.pbase.toNat + 2 * ((c.pc + k) % Nat.max 1 c.plen.toNat)
        word (a + 1) ++ word a
      let j := (List.range (if dwField (at_ 0) 24 4 = 1 then 5 else 1)).map at_
      (programCause e c j = none → leaves (.dmaInstructionFetch e n) { c with instr := some j }) ∧
      (∀ k, programCause e c j = some k → ∃ u r, exec (.dmaInstructionFetch e n) s = .next u ∧
        (u.chan e n.val).owes = some r ∧ r.kind = 5 ∧ r.tag = BitVec.ofNat 14 k ∧ r.a = c.pc)) ∧
    (c.instr = some i → c.owes = none → overBudget c = false →
      (s.wins e n.val .loop = true →
        leaves (.dmaLoop e n) { past with loops := (f + 1, past.pc) :: c.loops }) ∧
      (∀ k p rest, s.wins e n.val .endl = true → c.loops = (k, p) :: rest →
        leaves (.endl e n) (if 1 < k then { past with loops := (k - 1, p) :: rest, pc := p }
          else { past with loops := rest })) ∧
      (s.wins e n.val .wait = true →
        leaves (.dmaWait e n) { past with latch := c.latch &&& ~~~(1#9 <<< (dwField (i.getD 0 0) 0 4)) }) ∧
      (s.wins e n.val .signal = true → ∃ u, exec (.dmaSignal e n) s = .next u ∧ u.chan e n.val = past ∧
        (∀ g, e = .geode g → (∀ k : Fin 9, (∃ d, s.cores[9 * g.val + k.val]? = some d) →
            linePending (u.core (.sig g k)) (4 + n.val) = true) ∧
          ((∃ d, s.cores[72 + g.val]? = some d) → linePending (u.core (.sup g)) (11 + n.val) = true)) ∧
        (e = .host → (∃ d, s.cores[80]? = some d) → linePending (u.core .hub) (9 + n.val) = true)) ∧
      (s.wins e n.val .recBeat = true → c.cqloc = false → s.dmaSlots e = true → clear → leaves (.dmaRec e n) { past with
        cqtail := BitVec.ofNat 14 ((c.cqtail.toNat + 1) % Nat.max 1 c.cqlen.toNat), ecc := false
        phase := if (c.cqtail.toNat + 1) % Nat.max 1 c.cqlen.toNat = 0 then !c.phase else c.phase }) ∧
      (s.wins e n.val .halt = true → dwField (i.getD 0 0) 14 1 = 0 → leaves (.dmaHalt e n)
        { c with bused := c.bused + 1, instr := none, state := .halted }) ∧
      (c.state = .running → opCode i = 4 → bitOf c.latch (dwField (i.getD 0 0) 0 4) = false →
        leaves (.dmaWait e n) { c with state := .waiting }) ∧
      (c.state = .running → c.reads = [] → c.stopDue = false → opCode i = 6 → queueFull c = true →
        leaves (.dmaRec e n) { c with state := .blocked })) ∧
    (c.instr = some i → overBudget c = true → ∀ p ∈ [(BeatKind.loop, Instr.dmaLoop e n), (.endl, .endl e n),
        (.wait, .dmaWait e n), (.signal, .dmaSignal e n), (.recBeat, .dmaRec e n), (.halt, .dmaHalt e n)],
      s.wins e n.val p.1 = true → ∃ u r, exec p.2 s = .next u ∧ (u.chan e n.val).owes = some r ∧ r.kind = 3 ∧
        (u.chan e n.val).bused = c.bused) ∧
    (∀ r, c.owes = some r → s.wins e n.val .record = true → c.cqloc = false → s.dmaSlots e = true → clear →
      ∃ u, exec (.recordBeat e n) s = .next u ∧ (u.chan e n.val).state = c.thenSt ∧ (u.chan e n.val).owes = none ∧
        (u.chan e n.val).instr = none ∧ (u.chan e n.val).bused = c.bused ∧
        (u.chan e n.val).cqtail = BitVec.ofNat 14 ((c.cqtail.toNat + 1) % Nat.max 1 c.cqlen.toNat))

/-- R289–R295, R306: a data beat of a MOVE consumes the source units of its chunk, a drain beat none; both advance the
pointers and count; a beat that reads the host sends its request behind those under way, whose completions go through
the holding register in their order, an early one held until then, and whose failure stops the channel with a TARGET
record. -/
def Obligations.DmaMoves : Prop :=
  ∀ (s : State) (e : Eng) (n : Fin 32) (c : Chan) (i : List DWord), (s.chans e)[n.val]? = some c →
    c.instr = some i →
    let m := mvOf i
    let b := atBeat e c
    let begun := s.chanStepU e n.val (if opCode i = 1 ∧ c.move = none then [.done, .hold] else []) (atBeat e)
    let ready := overBudget b = false ∧ begun.beatCause e n.val = none ∧ begun.beatClaim e n.val ≠ none
    let q := chunkOf s.link e b m b.done
    let outs := q.put + b2n q.pad
    let moved : Instr → Prop := fun op => ∃ u, exec op s = .next u ∧ (u.chan e n.val).done = b.done + q.take ∧
      (u.chan e n.val).bused = c.bused + 1 ∧ (u.chan e n.val).owes = b.owes ∧ (u.chan e n.val).loops = c.loops ∧
      (b.done + q.take < m.count → (u.chan e n.val).instr = some i ∧
        (u.chan e n.val).sptr = (if m.sm = 2 then b.sptr else b.sptr + BitVec.ofNat 64 (q.take * unitSpan m.su)) ∧
        (u.chan e n.val).dptr = (if m.dm = 2 then b.dptr else b.dptr + BitVec.ofNat 64 (outs * unitSpan m.du)))
    (ready → c.reads = [] → s.wins e n.val .data = true → moved (.move e n)) ∧
    (ready → c.reads = [] → s.wins e n.val .drain = true → q.take = 0 ∧ moved (.drainBeat e n)) ∧
    (ready → e = .host → s.wins e n.val .hostRead = true →
      let a := aheadOf s.link b m
      let k := (chunkOf s.link e a m a.done).take
      ∃ u, exec (.move e n) s = .next u ∧
        u.out = ((hostPieces (srcSide e a m).addr (k * unitSpan m.su)).map (fun p => Out.hostRead p.1 p.2)).reverse ++ s.out ∧
        (u.chan e n.val).reads = c.reads ++ [{ take := k, beat := (failAt b).1 }] ∧ (u.chan e n.val).done = b.done) ∧
    (∀ x rest, e = .host → c.reads = x :: rest → x.got = none →
      (∀ k, ∃ u r, exec (.hostReadCompletion n ⟨0, .failed k⟩) s = .next u ∧
        (u.chan e n.val).owes = some r ∧ r.kind = 4 ∧ r.tag = k.setWidth 14 ∧ r.a = beatIdx x.beat ∧ r.b = c.done ∧
        (u.chan e n.val).reads = []) ∧
      (∃ u r, exec (.completionTimeout n) s = .next u ∧ (u.chan e n.val).owes = some r ∧ r.kind = 4 ∧ r.tag = 1 ∧
        r.a = beatIdx x.beat ∧ (u.chan e n.val).reads = []) ∧
      (∀ bs, bs.length = x.take * unitSpan m.su → (∀ y ∈ rest, y.got = none) →
        (c.stopDue = true → rest = [] ∨ c.done + x.take < m.count) →
        ∃ u, exec (.hostReadCompletion n ⟨0, .data bs⟩) s = .next u ∧
          (u.chan e n.val).reads = rest ∧ (u.chan e n.val).done = c.done + x.take ∧ (u.chan e n.val).bused = c.bused) ∧
      (∀ k y bs, rest[k]? = some y → y.got = none → bs.length = y.take * unitSpan m.su →
        ∃ u, exec (.hostReadCompletion n ⟨k + 1, .data bs⟩) s = .next u ∧
          u.chan e n.val = { c with reads := x :: modAt rest k (fun z => { z with got := some (.data bs) }) }))

/-! ### Commands of the host -/

/-- R434–R437, R440, R442–R446, R470, R474, R475: the commands that only ask are answered with status 0 and their
payload, and change nothing else. -/
def Obligations.HostQueries : Prop :=
  ∀ (s : State) (h : CmdHdr) (n : Fin 16) (f : Fin 8) (p : Fin 32) (b : Fin 10) (first : U32) (max : U16) (j : Job),
    let gives : Instr → Nat → List Byte → Prop := fun op o bytes => exec op s = .next (s.answered h o 0 bytes 0)
    let tells : Instr → Nat → Nat → Prop := fun op o len =>
      ∃ bytes k, exec op s = .next (s.answered h o 0 bytes k) ∧ bytes.length = len
    (s.serves h false →
      gives (.hostNop h) 0 [] ∧
      (∃ bytes, exec (.identify h) s = .next (s.answered h 1 0 bytes 0) ∧ bytes.length = 64 ∧
        bytes.take 4 = [0x14, 0x32, 1, byteOf h.fn.val]) ∧
      (∃ bytes, exec (.status h) s = .next (s.answered h 2 0 bytes 0) ∧ bytes.length = 32 ∧
        bytes.take 8 = [2, byteOf (b2n s.aon.talarm)] ++ leBytes 2 s.aon.tj.toNat ++ leBytes 4 s.beaconNow.toNat) ∧
      ((s.slotOf n.val).waiting = none → (s.slotOf n.val).report = none → tells (.lodeQuery h n) 0x0102 48) ∧
      (h.fn.val = 0 ∨ h.fn = f → gives (.shareGet h f) 0x0204
        (let x := s.share f.val
         let d := demandOf (ofFn s.reserving f.val)
         leBytes 4 x.geodes ++ leBytes 4 x.posting ++ leBytes 4 x.staging ++ leBytes 4 d.1 ++ leBytes 4 d.2.1 ++
           leBytes 4 d.2.2)) ∧
      gives (.positionQuery h p) 0x0300
        (let x := s.pos p.val
         [byteOf (modNumber x.mod), x.reason] ++ leBytes 2 (lstatWord x).toNat ++
           leBytes 2 (match x.stream with | some st => st.job.toNat | none => 0) ++ [0, 0] ++
           (x.record ++ List.replicate 384 0).take 384) ∧
      (h.fn.val = 0 → tells (.calRecordRead h p) 0x0400 576) ∧
      gives (.timeGet h) 0x0500 (timeBytes s.aon.time ++ leBytes 4 s.beaconNow.toNat ++
        [byteOf s.aon.source.toNat, byteOf (b2n s.aon.locked)] ++ List.replicate 10 0) ∧
      (∃ v q, exec (.powerStatus h) s = .next (s.answered h 0x0701 0
        (v ++ leBytes 2 s.aon.tj.toNat ++ q ++ List.replicate 8 0) 6) ∧ v.length = 2 ∧ q.length = 4) ∧
      (let es := ((s.logFrom first).filter (fun e => h.fn.val == 0 || e.fn == byteOf h.fn.val)).take max.toNat
       ∀ e rest, s.hub.log = e :: rest → 1 ≤ max.toNat → max.toNat ≤ 4096 →
        replyFits (s.fn h.fn.val) (8 + 48 * es.length) = true →
        gives (.logRead h first max) 0x0800 (leBytes 4 e.seq.toNat ++ leBytes 2 es.length ++ [0, 0] ++ es.flatMap logBytes)) ∧
      (h.fn.val = 0 → ∃ head, exec (.counterRead h b true) s = .next (s.answered h 0x0801 0
        (head ++ (s.liveBlock b.val).flatMap (fun v => leBytes 8 v)) 4) ∧ head.length = 4) ∧
      (∀ m l, h.fn.val = 0 → b = 0 → s.hub.snap = some (m, l) → gives (.counterRead h b false) 0x0801
        (leBytes 4 m.toNat ++ leBytes 8 m.toNat ++ l.flatMap (fun v => leBytes 8 v))) ∧
      gives (.fwInfo h) 0x0F00 (leBytes 4 Config.romVersion.toNat ++ leBytes 4 s.hub.patch.version.toNat ++
        [byteOf s.hub.patch.state] ++ List.replicate 7 0)) ∧
    (s.serves h true → s.jobOf h.job = some j → j.fn = h.fn.val →
      (∃ bytes, exec (.jobQuery h) s = .next (s.answered h 0x0202 0 bytes 0) ∧ bytes.length = 32 ∧
        bytes.take 8 = [byteOf (match j.state with | .admitted => 0 | .running => 1 | .draining => 2), byteOf j.slot, 0, 0] ++
          leBytes 4 j.start.toNat) ∧
      (s.boundAt j.id = [] → gives (.calStatus h) 0x0401 (leBytes 2 j.gen.toNat ++ [0, 0])))

/-- R271, R339, R349, R378, R414, R442, R444: the commands that set a policy, a share, a lane, a module, a solve or a
memory do it, and are answered; MEM_READ answers the words of the memory it names. R27, R28, R444, R446, R450, R456,
R458–R460: TIME_SET waits for its tick, at which device time becomes T and the origin beacon falls; DUSK_ENTER fixes
beacon D, and Dusk follows once nothing is left to post; firmware chunks are kept and a checked patch activates by a
hub reset. -/
def Obligations.HostSettingsTimeAndFirmware : Prop :=
  (
    ∀ (s : State) (h : CmdHdr) (f q : Fin 8) (p : Fin 32) (g post stag : Nat) (key : List Byte) (qctl l0 l1 l2 l3 : Word)
      (a n : U32), s.serves h false → h.fn.val = 0 →
      let done : Instr → Nat → U16 → (State → State) → Prop := fun op o status body =>
        exec op s = .next ((body (s.takeFetched h o)).reply h status [])
      (∀ arg : Byte, arg.toNat < 2 → done (.signPolicy h 0 arg []) 0x0103 0
        (fun t => t.onHub (fun x => { x with require := arg == 1 }))) ∧
      (∀ arg : Byte, arg.toNat < 4 → key.length = 32 → done (.signPolicy h 1 arg key) 0x0103 0
        (fun t => t.onHub (fun x => { x with keys := modAt x.keys arg.toNat (fun _ => some key) }))) ∧
      (g ≤ 8 → post ≤ admissible s.link → post < 2 ^ 32 → stag ≤ 224 →
        let d := demandOf (ofFn s.reserving f.val)
        done (.shareSet h f (byteOf g) (u32 post) (u32 stag)) 0x0203
          (if g < d.1 ∨ post < d.2.1 ∨ stag < d.2.2 then 0x0103 else 0)
          (fun t => t.onHub (fun x => { x with shares := modAt x.shares f.val (fun _ => ⟨g, post, stag, false⟩) }))) ∧
      (s.quadBound q.val = false → done (.laneConfig h q qctl [l0, l1, l2, l3]) 0x0301 0 (fun t =>
        ((((t.onQuad q.val (fun x => { x with dlink := bitOf qctl 13 })).writeLcfg (4 * q.val) l0).writeLcfg (4 * q.val + 1)
          l1).writeLcfg (4 * q.val + 2) l2).writeLcfg (4 * q.val + 3) l3)) ∧
      (s.quadBound q.val = true → bitOf qctl 13 ≠ (s.quad q.val).dlink →
        exec (.laneConfig h q qctl [l0, l1, l2, l3]) s = .next (s.answered h 0x0301 0x0308 [] 0)) ∧
      (∀ x, s.poss[p.val]? = some x → x.mod ≠ .absent → x.stream = none →
        ∃ (u : State) (y : Pos), exec (.moduleReset h p) s = .next (u.reply h 0 []) ∧ u.poss[p.val]? = some y ∧ y.mod = .reading ∧
          y.mrst = true) ∧
      ((s.pos p.val).mod = .live → (s.pos p.val).stream = none → recInjCap (s.pos p.val).record = true →
        done (.calSolve h p) 0x0402 0 (fun t => t.onPos p.val (fun x => { x with solveReq := true }))) ∧
      ((s.pos p.val).mod ≠ .live ∨ (s.pos p.val).stream.isSome = true →
        exec (.calSolve h p) s = .next (s.answered h 0x0402 0x0309 [] 0)) ∧
      (1 ≤ n.toNat → n.toNat ≤ 64 → s.hub.mem.corr = [] → s.hub.mem.unc = [] → a.toNat + n.toNat ≤ 0x80000 →
        replyFits (s.fn 0) (packLen 1 n.toNat) = true →
        exec (.memRead h 0 0 0 1 a n) s = .next (s.answered h 0x0600 0
          (pack 1 ((List.range n.toNat).map (fun k => (smGet s.hub.mem.cells (a.toNat + k)).toNat))) 0)) ∧
      (∀ bs, 0x78000 ≤ a.toNat → a.toNat + n.toNat ≤ 0x7F000 → bs.length = packLen 1 n.toNat →
        ∃ u : State, exec (.memWrite h 0 0 0 1 a n bs) s = .next (u.reply h 0 []) ∧ u.geodes = s.geodes ∧ u.cores = s.cores ∧
          (Memory.wf s.hub.mem = true →
            ∀ k, smGet u.hub.mem.cells k = if a.toNat ≤ k ∧ k < a.toNat + n.toNat
              then BitVec.ofNat 14 (((unpack 1 bs).take n.toNat).getD (k - a.toNat) 0) else smGet s.hub.mem.cells k))) ∧
  (
    ∀ (s : State) (h : CmdHdr) (once : Bool) (src : BitVec 2) (n : U32) (sec frac : U64) (r : TimeSetReq) (d : U32)
      (bs : List Byte),
      (s.serves h false → h.fn.val = 0 →
        (s.aon.timeSet = none → s.hub.jobs = [] → src ≠ 3 →
          exec (.timeSet h once src n sec frac) s = .next ((s.takeFetched h 0x0501).onAon (fun a =>
            { a with timeSet := some ⟨h, once, once, src, n,
                BitVec.ofNat 122 (sec.toNat % 2 ^ 42 * 2 ^ 80 + frac.toNat / 2 ^ 8 * 2 ^ 24)⟩ }))) ∧
        (s.reserving.any (fun j => j.state == .admitted) = false → s.hub.slots.any (fun x => x.state == .loading) = false →
          ∃ u : State, exec (.duskEnter h) s = .next u ∧ u.aon.devstate = .leaving ∧ u.hub.duskAt = some (s.beaconNow + 2) ∧
            u.hub.jobs = s.hub.jobs.map (fun j => if j.state = .running then
              { j with suspendAt := some (toMultiple j.k (s.beaconNow + 2)) } else j)) ∧
        (bs.length < 2 ^ 20 →
          exec (.fwChunk h true false 0 (u32 (bs.length + 1)) bs) s = .next (((s.takeFetched h 0x0F01).onHub (fun x =>
            { x with patch := { x.patch with bytes := bs, len := bs.length + 1, loading := true } })).reply h 0 []) ∧
          (Config.patchCheck bs = true → exec (.fwChunk h true true 0 (u32 bs.length) bs) s =
            .next (((s.takeFetched h 0x0F01).onHub (fun x => { x with
              patch := ⟨1, Config.patchVersion bs, bs, bs.length, false⟩ })).reply h 0 [])) ∧
          (Config.patchCheck bs = false → ∃ u : State, exec (.fwChunk h true true 0 (u32 bs.length) bs) s =
            .next (u.reply h 0x0404 []) ∧ u.hub.patch.loading = false ∧ u.hub.patch.version = s.hub.patch.version)) ∧
        (s.hub.jobs = [] → s.hub.patch.state = 1 → s.hub.slots.length = 16 →
          ∃ u : State, exec (.fwActivate h) s = .next u ∧ u.hub.resetting = true ∧ u.hub.fwActivate = true ∧ u.hub.mem = {} ∧
            u.aon.devstate = .leaving ∧ u.hub.patch = s.hub.patch ∧ (∀ x ∈ u.hub.slots, x.state = .empty)) ∧
        (s.hub.jobs ≠ [] →
          exec (.timeSet h once src n sec frac) s = .next (if s.aon.timeSet.isSome then s
            else if src = 3 then (s.takeFetched h 0x0501).malformedAt h (s.offsetOf h 0x0501) 0x0501 0x0206
            else s.answered h 0x0501 0x0308 [] 0) ∧
          exec (.fwActivate h) s = .next (s.answered h 0x0F02 0x0308 [] 0))) ∧
      (s.aon.timeSet = some r → r.armed = true →
        ∃ u : State, exec .timeSetApply s = .next (u.reply r.hdr 0 (timeBytes (s.aon.time + BitVec.ofNat 122 s.aon.rate))) ∧
          u.aon.time = r.t ∧ u.aon.t0 = r.t ∧ u.aon.n0 = r.n ∧ u.aon.nextBeacon = r.n ∧ u.aon.source = r.source ∧
          u.aon.timeSet = none ∧ u.aon.locked = false ∧ (r.source = 0 → u.aon.rate = 12089258196146292) ∧
          u.hub = s.hub ∧ u.geodes = s.geodes) ∧
      (s.hub.duskAt = some d → s.hubUp = true → s.aon.devstate = .leaving → atOrAfter s.beaconNow d = true →
        s.hub.jobs.all (quietJob s.beaconNow) = true →
        ∃ u : State, exec .duskQuiesce s = .next u ∧ u.aon.devstate = .dusk ∧ u.aon.islandsOff = true ∧ u.hub.duskAt = none ∧
          u.hub.window = none ∧ u.hub.windowQ = [] ∧ (∀ c ∈ u.cores, c.vpow = false)))

/-! ### Lodes and jobs -/

/-- R318, R320, R321, R326, R330, R332, R340, R342, R350, R441, R442, R520: a lode's chunks collect in its slot, its
images taking their pages as they come; verification makes it VERIFIED or REFUSED with its report; an unload empties
it; a job that fits is admitted with its times, one that does not is refused with the earliest fit; a stop fixes the
last frame two beacons on, and the supervisors are told. -/
def Obligations.LodesAndJobs : Prop :=
  ∀ (s : State) (h : CmdHdr) (n : Fin 16) (x : LodeSlot) (mask vec : Byte) (off : U32) (bs : List Byte) (oe : Bool)
    (st e : U32) (bind : List Binding), s.hub.slots[n.val]? = some x → x.monitor = none →
    let slots : (LodeSlot → LodeSlot) → State → State := fun f t =>
      t.onHub (fun y => { y with slots := modAt y.slots n.val f })
    (s.serves h false → x.waiting = none →
      (∀ len : U32, x.state = .empty → bs.length ≤ len.toNat →
        exec (.lodeChunk h n true false mask 0 len bs) s = .next (((slots (fun _ =>
          { state := .loading, owner := h.fn.val, mask := mask, len := len.toNat, bytes := bs })
          (s.takeFetched h 0x0100)).bytesIn n.val).reply h 0 [])) ∧
      (x.state = .loading → x.owner = h.fn.val → off.toNat = x.bytes.length → off.toNat + bs.length ≤ x.len →
        let t := (slots (fun y => { y with bytes := x.bytes ++ bs }) (s.takeFetched h 0x0100)).bytesIn n.val
        exec (.lodeChunk h n false false 0 off 0 bs) s = .next (t.reply h 0 []) ∧
        (off.toNat + bs.length = x.len → exec (.lodeChunk h n false true 0 off 0 bs) s = .next (slots (fun y =>
          { y with waiting := some h }) t))) ∧
      (x.state ≠ .empty → x.owner ≠ h.fn.val →
        exec (.lodeChunk h n true false mask 0 off bs) s = .next (s.answered h 0x0100 0x0305 [] 0)) ∧
      (x.state = .verified ∨ x.state = .refused → x.owner = h.fn.val ∨ h.fn.val = 0 → s.slotUsed n.val = false →
        ∃ u, exec (.lodeUnload h n) s = .next (State.reply u h 0 []) ∧ (u.slotOf n.val).state = .empty) ∧
      (x.state = .verified → x.owner = h.fn.val → s.slotUsed n.val = true →
        exec (.lodeUnload h n) s = .next (s.answered h 0x0101 0x0311 [] 0))) ∧
    (∀ w, s.hubUp = true → x.state = .loading → x.len ≤ x.bytes.length → x.waiting = some w →
      let sig := checkSignature s.hub.require s.hub.keys x.bytes
      let t := if sig.isSome then s else s.placeImages n.val
      (∀ r, t.verifyFrom n.val x.mask x.bytes sig = some r → ∃ u, exec (.lodeVerification n) s =
        .next (State.reply u w 0x0310 (refusedBytes r)) ∧ (u.slotOf n.val).state = .refused ∧
          (u.slotOf n.val).report = some r) ∧
      (t.verifyFrom n.val x.mask x.bytes sig = none → ∃ u bytes, exec (.lodeVerification n) s = .next (State.reply u w 0 bytes) ∧
        (u.slotOf n.val).state = .verified ∧ (u.slotOf n.val).waiting = none ∧ bytes.length = 16)) ∧
    (s.serves h true → x.waiting = none → startRange bind.length vec.toNat oe e = true → x.state = .verified →
      x.owner = h.fn.val → (oe = true ∨ e.toNat % Nat.max 1 (lodeK x.bytes) = 0) → s.jobOf h.job = none →
      (∀ g ∈ maskGeodes x.mask, (s.geode g).faulted = false) →
      let t := s.jobTimes x.bytes st s.reserving.isEmpty
      (oe = true ∨ 0 < frameDiff e t.2.1) →
      (∀ y, s.noFit s.reserving h.fn.val n.val bind = some y →
        ∃ u bytes, exec (.jobStart h n vec oe st e bind) s = .next (State.reply u h 0x0320 bytes) ∧ u.hub = s.hub ∧
          bytes.length = 40) ∧
      (s.noFit s.reserving h.fn.val n.val bind = none →
        ∃ u j, exec (.jobStart h n vec oe st e bind) s = .next (State.reply u h (if t.1 = st then 0 else 0x0101)
            (leBytes 4 t.1.toNat ++ leBytes 4 t.2.1.toNat ++ time56Bytes t.2.2)) ∧ u.jobOf h.job = some j ∧
          j.fn = h.fn.val ∧ j.slot = n.val ∧ j.vec = vec ∧ j.state = .admitted ∧ j.start = t.1 ∧ j.first = t.2.1 ∧
          j.geodes = maskGeodes x.mask ∧ j.bindings = bind)) ∧
    (∀ j, s.serves h true → s.jobOf h.job = some j → j.fn = h.fn.val → j.cause = 0 →
      let last := toMultiple j.k (s.beaconNow + 2)
      let r := last + BitVec.ofNat 32 j.k
      (j.releaseAt = none ∨ (∃ q, j.releaseAt = some q ∧ atOrAfter r q = false)) →
      exec (.jobStop h) s = .next ((((s.takeFetched h 0x0201).onJob h.job (fun y =>
        { y with openEnd := false, last := last, releaseAt := some r, cause := 1 })).mailRelease j r).fixPeriod.reply h 0
          (leBytes 4 last.toNat ++ leBytes 4 r.toNat)))

/-! ### Rings, posting and interrupts -/

/-- R54, R345–R347, R426, R428, R429, R431, R433–R438, R440: the ring registers take their writes and refuse offsets
that are no entry of the ring; a whole packet is fetched, a failed read stops the ring; the next TLP of a job's record
leaves where its ring, its credits and its allowance or turn let it, and the last one makes the entry; a vector's
records are signalled in time. -/
def Obligations.RingsAndPosting : Prop :=
  ∀ (s : State) (f : Fin 8) (x : Fn) (v : U32), s.fns[f.val]? = some x → f.val ≤ s.link.vfs →
    let o := v.toNat % 2 ^ 24
    let bad := s.onFn f.val (fun y => { y with cfgerr := true })
    (o % 16 = 0 → o < 2 ^ x.crlog2.toNat →
      exec (.crtailDoorbell f v) s = .next ((s.onFn f.val (fun y => { y with crtail := v.truncate 24 })).hubLine (41 + f.val))) ∧
    (o % 16 ≠ 0 ∨ 2 ^ x.crlog2.toNat ≤ o → exec (.crtailDoorbell f v) s = .next bad) ∧
    (o % 16 = 0 → o < 2 ^ x.rrlog2.toNat → x.waitq = [] → x.rrfull = false →
      exec (.rrheadDoorbell f v) s = .next ((s.onFn f.val (fun y => { y with rrhead := v.truncate 24 })).hubLine (41 + f.val))) ∧
    (o % 16 ≠ 0 ∨ 2 ^ x.rrlog2.toNat ≤ o → exec (.rrheadDoorbell f v) s = .next bad) ∧
    (x.cren = false → exec (.cren f true) s = .next (s.onFn f.val (fun y =>
      { y with cren := true, crhead := 0, crtail := 0, crstop := false }))) ∧
    (x.cren = true → exec (.cren f false) s = .next (s.onFn f.val (fun y => { y with cren := false })) ∧
      exec (.cren f true) s = .next s) ∧
    (x.rren = false → x.waitq = [] → x.rrfull = false → exec (.rren f true) s = .next (((s.dropPosts f.val).onFn f.val (fun y =>
      { y with rren := true, rrhead := 0, rrtail := 0 })).emit (.terminator f.val 0))) ∧
    (x.rren = true → exec (.rren f false) s = .next ((s.dropPosts f.val).onFn f.val (fun y => { y with rren := false }))) ∧
    (∀ k np, exec (.flowControlCreditUpdate ⟨k, np⟩) s = .next (s.onLink (fun l =>
      { l with credits := l.credits + k, npCredits := l.npCredits + np }))) ∧
    (∀ k : Fin 64, x.irqTime ≠ 0 → unsigOf x k.val ≠ 0 → x.d3 = false → bitOf (msixWord x (4 * k.val + 3)) 0 = false →
      exec (.irqModerationTimeout f k) s = .next ((s.onFn f.val (fun y =>
        { y with unsig := y.unsig.filter (fun p => p.1 != k.val) })).emit (.msix f.val k.val))) ∧
    (s.fetchTurn = some f.val →
      let z := 2 ^ x.crlog2.toNat
      (∀ bs, 16 ≤ bs.length → packetStatus x (admissible s.link) bs = 0 →
        let whole := 16 + (leAt bs 8 4 + 15) / 16 * 16
        whole ≤ bs.length → whole ≤ (x.crtail.toNat + z - x.crhead.toNat) % z →
        ∃ u y, exec (.commandFetch f (.ok bs)) s = .next u ∧ u.fns[f.val]? = some y ∧ u.hub.rrFn = (f.val + 1) % 8 ∧
          y.crhead = BitVec.ofNat 24 ((x.crhead.toNat + whole) % z) ∧
          y.fetched = x.fetched ++ [⟨BitVec.ofNat 16 (leAt bs 0 2), x.crhead.toNat, hdrOf f bs,
            (bs.drop 16).take (leAt bs 8 4)⟩]) ∧
      (∀ k, ∃ u y, exec (.commandFetch f (.failed k)) s = .next u ∧ u.fns[f.val]? = some y ∧ y.crstop = true ∧
        y.crhead = x.crhead)) ∧
    (∀ j, s.hubUp = true → s.jobOf j.id = some j → j.fn = f.val →
      let sends : State → Posting → (State → Prop) → Prop := fun t q more =>
        let len := entryLen q.payload.length
        let n := tlpLen s.link len q.sent
        let covered := n * 2 ^ 56 ≤ s.allowNow j
        n ≤ s.link.credits → covered ∨ s.myTurn j = true →
        (len ≤ q.sent + n → ∃ u at_, exec (.resultPosting j.id) s = .next u ∧
          Out.entry f.val at_ ⟨0, BitVec.ofNat 16 q.kind, j.id, 2, q.payload, j.vec⟩ (crcField q.payload) ∈ u.out ∧
          u.link.credits = s.link.credits - n ∧ u.free = t.free ∧ more u) ∧
        (q.sent + n < len → ∃ u, exec (.resultPosting j.id) s = .next u ∧ u.link.credits = s.link.credits - n ∧
          u.out = t.out ∧ u.hub.postTurn = (if covered then s.hub.postTurn else j.id) ∧
          (u.jobOf j.id).map (fun y => (y.post, y.allow, y.allowAt)) = some (some { q with sent := q.sent + n },
            (if covered then s.allowNow j - n * 2 ^ 56 else s.allowNow j), now56 s.aon))
      (∀ q, j.post = some q →
        (s.link.credits < tlpLen s.link (entryLen q.payload.length) q.sent → exec (.resultPosting j.id) s = .next s) ∧
        sends s q (fun _ => True)) ∧
      (∀ p, s.ringBusy f.val = false → nextItem j = some p →
        let posts : State → Nat → List Byte → (State → Prop) → Prop := fun t tag bytes more => x.waitq = [] →
          (entryFits x bytes.length = true → sends t ⟨p, tag, bytes, 0⟩ more) ∧
          (entryFits x bytes.length = false → x.rren = true → x.d3 = false →
            ∃ u, exec (.resultPosting j.id) s = .next u ∧ (u.fn f.val).rrfull = true)
        (∀ a k, p = .late a k → posts s 0xF2 (lateBytes a k) (fun u =>
          (u.jobOf j.id).map (fun y => y.lateDue) = some (j.lateDue.drop 1) ∧ (u.fn f.val).late = true)) ∧
        (∀ g, p = .input g → posts s 0xF1 (s.inputBytes j g) (fun u =>
          (u.jobOf j.id).map (fun y => y.inputGaps) = some (j.inputGaps.drop 1))) ∧
        (∀ a k, p = .gap a k → posts s 0xF0 (s.gapBytes j a k) (fun u =>
          (u.jobOf j.id).map (fun y => y.gaps) = some (j.gaps.drop 1) ∧ (u.fn f.val).gap = true)) ∧
        (∀ a, p = .frame a → a.left = [] → ∃ u, exec (.resultPosting j.id) s = .next u ∧ u.link = s.link ∧
          (u.jobOf j.id).map (fun y => (y.posted, y.frames, y.lastPost)) =
            some (j.posted + 1, j.frames.filter (fun y => y.num != a.num), some a.num)) ∧
        (∀ a kind k more, p = .frame a → a.left = (kind, k) :: more →
          let r := s.resultPayload j a kind
          let small := 2 ^ x.rrlog2.toNat < 16 + r.1.length + 32
          (small → posts r.2 0xF0 (s.gapBytes j a.num 1) (fun u => (u.fn f.val).gap = true)) ∧
          (¬ small → posts r.2 kind r.1 (fun u => k ≤ 1 → more = [] → (u.jobOf j.id).map (fun y => y.posted) =
            some (j.posted + 1)))) ∧
        (p = .ended → let r := s.endedBytes j
          posts r.2 0xF3 r.1 (fun u => u.jobOf j.id = none))))

/-! ### The host link and its functions -/

/-- R306, R419–R423, R430, R448, R449, R454, R461: a wake begins in Dusk and ends in READY; a Function Level Reset
leaves its function's registers at their reset values and drops its jobs; D3hot, link events and errors, and
configuration requests have their effect. -/
def Obligations.LinkAndFunctions : Prop :=
  ∀ (s : State) (f : Fin 8) (x : Fn), s.fns[f.val]? = some x →
    let fresh : Fn → Fn → Prop := fun a b => b = { resetFn a with flr := true }
    (s.aon.devstate = .dusk → ∃ u, exec .wake s = .next u ∧ u.aon.devstate = .waking) ∧
    (s.aon.devstate ≠ .dusk → exec .wake s = .next s) ∧
    (s.aon.devstate = .waking → s.hub.halted = false →
      ∃ u, exec .wakeComplete s = .next u ∧ u.aon.devstate = .ready ∧ u.aon.islandsOff = false ∧
        ∃ e ∈ u.hub.log, e.kind = 0x03) ∧
    (f.val ≠ 0 → ∃ u y, exec (.functionLevelReset f) s = .next u ∧ u.fns[f.val]? = some y ∧ fresh x y ∧
      u.link.vfs = s.link.vfs ∧
      (s.aon.islandsOff = false → ∀ j ∈ u.hub.jobs, j.fn = f.val → j.discard = true ∧ j.frames = [] ∧ j.gaps = [])) ∧
    (∃ u y, exec (.functionLevelReset 0) s = .next u ∧ u.fns[f.val]? = some y ∧ fresh x y ∧ u.link.vfs = 0) ∧
    (f.val ≠ 0 → ∃ u y, exec .vfDisable s = .next u ∧ u.fns[f.val]? = some y ∧ fresh x y ∧ u.link.vfs = 0) ∧
    exec (.d3hotEntry f) s = .next (s.onFn f.val (fun y => { y with d3 := true })) ∧
    (x.d3 = true → ∃ u y, exec (.d3hotToD0 f) s = .next u ∧ exec (.functionLevelReset f) s = .next u ∧
      u.fns[f.val]? = some y ∧ fresh x y) ∧
    (∃ u y, exec .linkDown s = .next u ∧ u.fns[f.val]? = some y ∧ fresh x y ∧ u.link.gen = 0 ∧ u.link.width = 0 ∧
      u.link.credits = 0 ∧ u.link.vfs = 0) ∧
    (∀ g w, 1 ≤ g → g ≤ 5 → (w = 1 ∨ w = 2 ∨ w = 4) → s.aon.inReset = false →
      let t := (s.hubLine 49).onLink (fun l => { l with gen := g, width := w })
      exec (.linkRetrain g w) s =
        .next (if s.aon.devstate = .starting then t else t.log { kind := 0x15, a := u32 g, b := u32 w })) ∧
    (∀ a, exec (.pcieError (.correctable a)) s = .next (((s.hubLine 49).onHub (fun h =>
      { h with pcieCorr := ctrAdd 16 h.pcieCorr 1 })).log { kind := 0x13, a := a })) ∧
    exec (.pcieError .refusedRequest) s = .next s ∧
    (∀ a, exec (.pcieError (.fatal a)) s = exec .linkDown (s.log { kind := 0x14, a := a })) ∧
    (∀ (n : Fin 32) k c x rest i, s.hub.chans[n.val]? = some c → c.reads = x :: rest → x.got = none → c.instr = some i →
      ∃ u r, exec (.pcieError (.deviceRead (some n) f k)) s = .next u ∧ (u.chan .host n.val).owes = some r ∧ r.kind = 4 ∧
        r.tag = k.setWidth 14) ∧
    (s.aon.inReset = false → s.link.cfgReady = true →
      (∀ a b r, exec (.configurationRequest (.deviceControl a b r)) s = .next (s.onLink (fun l =>
        { l with mps := if a.toNat ≤ 2 then a else l.mps, mrrs := if b.toNat ≤ 5 then b else l.mrrs, relaxed := r }))) ∧
      (∀ t, exec (.configurationRequest (.deviceControl2 t)) s = .next (s.onLink (fun l => { l with timeout := t }))) ∧
      (∀ n : Fin 8, n.val ≠ 0 →
        exec (.configurationRequest (.vfEnable n)) s = .next (s.onLink (fun l => { l with vfs := n.val }))) ∧
      (f.val ≤ s.link.vfs → ∃ v k, exec (.configurationRequest (.read f 0)) s =
        .next (({ s with free := s.free + k }).emit (.cfgCompletion f.val 0 false v)) ∧
        v.toNat / 2 ^ 16 = (if f.val = 0 then 0x3214 else 0x3215))) ∧
    (s.aon.inReset = false → s.link.cfgReady = false → ∀ off,
      exec (.configurationRequest (.read f off)) s = .next (s.emit (.cfgCompletion f.val off.toNat true 0)))

/-- R425, R426, R428, R449: BAR0 of an enabled function takes naturally aligned writes of 4 and 8 bytes; another
access sets CFGERR; a base or size is held while its ring is enabled; a poisoned write changes nothing, and a function
that is not enabled answers Unsupported Request. -/
def Obligations.Bar0Writes : Prop :=
  ∀ (s : State) (f : Fin 8) (x : Fn) (off : U16) (n : Nat) (v : U64), s.fns[f.val]? = some x →
    let w : U16 → Nat → State → Prop := fun o bytes u => exec (.registerWrite (.bar0 f o bytes false v)) s = .next u
    let bad := s.onFn f.val (fun y => { y with cfgerr := true })
    let lo := v.toNat % 2 ^ 32
    (s.link.vfs < f.val → exec (.registerWrite (.bar0 f off n false v)) s = .next (s.emit (.unsupported f.val))) ∧
    (f.val ≤ s.link.vfs →
      exec (.registerWrite (.bar0 f off n true v)) s = .next s ∧
      (n ≤ 8 → (off.toNat % 4 ≠ 0 ∨ (n ≠ 4 ∧ n ≠ 8)) → w off n bad) ∧
      w 0x8 4 (s.onFn f.val (fun y =>
        { y with cfgerr := y.cfgerr && !bitOf v 8, gap := y.gap && !bitOf v 7, late := y.late && !bitOf v 6 })) ∧
      (lo % 65536 ≠ 0 → w 0xC 4 (s.onFn f.val (fun y =>
        { y with irqTime := BitVec.ofNat 16 (lo / 65536), irqCount := BitVec.ofNat 16 lo }))) ∧
      (x.cren = true → w 0x10 4 bad ∧ w 0x14 4 bad ∧ w 0x18 4 bad) ∧
      (x.rren = true → w 0x30 4 bad ∧ w 0x34 4 bad ∧ w 0x38 4 bad) ∧
      (x.cren = false → 16 ≤ lo % 32 → lo % 32 ≤ 24 →
        w 0x18 4 (s.onFn f.val (fun y => { y with crlog2 := BitVec.ofNat 5 lo }))) ∧
      (x.cren = false → w 0x10 8 (s.onFn f.val (fun y =>
        { y with crbase := BitVec.ofNat 64 (v.toNat / 4096 * 4096) }))) ∧
      (x.rren = false → w 0x30 8 (s.onFn f.val (fun y =>
        { y with rrbase := BitVec.ofNat 64 (v.toNat / 4096 * 4096) }))))

/-! ### Lanes and modules -/

/-- R372–R380, R383: a module that comes is read, one that goes leaves its position; its record lets it wait for a
window or refuses it; the alert line is passed on, and given up after three passes that find nothing; an eclipsed lane
loses its rate and asks for a window. -/
def Obligations.ModulesComeAndGo : Prop :=
  ∀ (s : State) (p : Fin 32) (x : Pos) (g : Fin 8) (q : Quad) (bs : List Byte) (w : EclipseCause),
    s.poss[p.val]? = some x → g.val = p.val / 4 → s.quads[g.val]? = some q → s.aon.islandsOff = false →
    s.aon.inReset = false →
    let leaves : Instr → (State → Pos → Quad → Prop) → Prop := fun op post =>
      ∃ u y z, exec op s = .next u ∧ u.poss[p.val]? = some y ∧ u.quads[g.val]? = some z ∧ post u y z
    (q.dlMode = false → x.present = false → leaves (.mpresNChange p true) (fun _ y z =>
      y.present = true ∧ y.mod = .reading ∧ z.busStopped = false)) ∧
    (q.dlMode = false → x.present = true → leaves (.mpresNChange p false) (fun _ y _ =>
      y.present = false ∧ y.mod = .absent ∧ y.mrst = true ∧ y.record = [] ∧ y.est = x.est)) ∧
    exec (.mpresNChange p x.present) s = .next s ∧
    (x.mod = .reading → x.reread = false → q.busStopped = false →
      let k := recordReason (s.onPos p.val (fun y => { y with reread := false, record := bs })) p.val bs
      (k = 0 → leaves (.assayRecordRead p (.bytes bs)) (fun u y _ =>
        y.mod = .waiting ∧ y.record = bs ∧ y.reason = 0 ∧ y.mrst = true ∧ y.est.isSome = true ∧ g.val ∈ u.hub.windowQ)) ∧
      (k ≠ 0 → leaves (.assayRecordRead p (.bytes bs)) (fun _ y _ =>
        y.mod = .refused ∧ y.record = bs ∧ y.reason = byteOf k ∧ y.mrst = true)) ∧
      leaves (.assayRecordRead p .busFailed) (fun _ y z =>
        y.mod = .refused ∧ y.reason = 1 ∧ z.i2cf = true ∧ z.busStopped = true)) ∧
    (x.reread = true → q.busStopped = false → sameModule x.record bs = true →
      leaves (.assayRecordRead p (.bytes bs)) (fun u y _ =>
        y.reread = false ∧ y.mrst = false ∧ y.mod = x.mod ∧ y.record = x.record ∧ g.val ∈ u.hub.windowQ)) ∧
    (q.alertIgnored = false → q.busStopped = true ∨ bs = [] →
      leaves (.malertNAsserted g (bs.map some)) (fun _ _ z =>
        z.alert = true ∧ z.alertPasses = q.alertPasses + 1 ∧ (z.alertIgnored = true ↔ 3 ≤ q.alertPasses + 1))) ∧
    (∀ v : Byte, p.val % 4 = 0 → q.alertIgnored = false → q.busStopped = false → x.mod = .live → v ≠ 0 → s.hub.log = [] →
      s.hub.halted = false → leaves (.malertNAsserted g [some v]) (fun u _ z => z.alertPasses = 0 ∧
        ∃ e ∈ u.hub.log, e.kind = 0x22 ∧ e.a = v.setWidth 32)) ∧
    (q.alert = false → (∃ c, s.cores[72 + g.val]? = some c) →
      ∃ u, exec (.malertNAsserted g []) s = .next u ∧ linePending (u.core (.sup g)) 27 = true) ∧
    leaves (.malertNDeasserted g) (fun _ _ z => z.alert = false ∧ z.alertPasses = 0 ∧ z.alertIgnored = false) ∧
    (q.dlMode = false → s.owner p.val = some p.val → x.mod = .live → leaves (.laneEclipse p w) (fun u y _ =>
      y.mod = .eclipsed ∧ y.rate = 3 ∧ y.framed = false ∧ y.oldRate = x.rate ∧ y.trial = x.rate ∧ y.tries = 0 ∧
        g.val ∈ u.hub.windowQ)) ∧
    (q.dlMode = true → q.dlup = true → s.aon.noLaneRef = false → leaves (.laneEclipse p w) (fun u y z =>
      z.dlup = false ∧ y.rate = 3 ∧ y.framed = false ∧ y.lstate = 4 ∧ g.val ∈ u.hub.windowQ))

/-- R365, R367–R371, R378, R383, R519: a window opens for the first quad that asked, and its waiting modules come out
of reset and train; lanes frame at the rate at which they train, and a module whose lanes are all framed is told to
run; at its close what is not framed has failed; a message without its acknowledgment is sent up to four times. -/
def Obligations.Training : Prop :=
  ∀ (s : State) (p : Fin 32) (x : Pos) (g : Fin 8) (q : Quad) (rate : BitVec 2), s.poss[p.val]? = some x →
    g.val = p.val / 4 → s.quads[g.val]? = some q →
    let leaves : Instr → (State → Pos → Quad → Prop) → Prop := fun op post =>
      ∃ u y z, exec op s = .next u ∧ u.poss[p.val]? = some y ∧ u.quads[g.val]? = some z ∧ post u y z
    (s.hub.window = none → s.hub.windowQ.head? = some g.val → s.aon.noLaneRef = false → s.aon.islandsOff = false →
      s.aon.inReset = false → 5 ≤ s.aon.stage →
      (q.dlink = false → q.dlMode = false → x.mod = .waiting → modLanes x ≠ 0 → x.en = true →
        leaves (.trainingWindowOpen g) (fun u y z =>
        u.hub.window = some g.val ∧ u.hub.windowQ = s.hub.windowQ.drop 1 ∧ z.windows = q.windows + 1 ∧
          y.mod = .training ∧ y.mrst = false ∧ y.lstate = 2 ∧ y.framed = false)) ∧
      (q.dlink = true → q.dlMode = true → q.dlup = false → x.en = true → leaves (.trainingWindowOpen g) (fun u y z =>
        u.hub.window = some g.val ∧ z.windows = q.windows + 1 ∧ y.lstate = 2 ∧ y.framed = false))) ∧
    (s.hub.window = some g.val → rate ≠ 3 → rate = x.trial → x.lstate = 2 →
      leaves (.laneFramed p rate) (fun _ y _ => y.framed = true ∧ y.rate = rate ∧ y.rxsig = true ∧
        (s.aon.noLaneRef = false → y.lstate = 3)) ∧
      (q.dlMode = false → s.owner p.val = some p.val → modLanes x = 1 → x.ctl = none → x.ctlQ = [] →
        leaves (.laneFramed p rate) (fun u y _ =>
          u.out = .codeword p.val (ctlPayload 0 x.inject (x.cseq + 1) 1 0) :: s.out ∧ y.ctl = some ⟨x.cseq + 1, 1, 0, 1⟩))) ∧
    (s.hub.window = some g.val → leaves (.trainingWindowClose g) (fun u _ _ => u.hub.window = none)) ∧
    (s.hub.window = some g.val → q.dlMode = false → q.windows ≠ 1 → x.mod = .training → modLanes x = 1 →
      x.framed = false → leaves (.trainingWindowClose g) (fun _ y _ => y.mod = .retraining ∧ y.tries = x.tries + 1)) ∧
    (x.mod = .retraining → exec (.retryWindowTimer g) s = .next (if s.hub.windowQ.contains g.val then s
      else s.onHub (fun h => { h with windowQ := h.windowQ ++ [g.val] }))) ∧
    (x.lstate ≠ 2 → x.lstate ≠ 3 → s.aon.islandsOff = false → s.aon.inReset = false → ∀ n, x.ctrs[10]? = some n →
      leaves (.earlySignalDetected p) (fun _ y _ => y.early = true ∧ y.ctrs[10]? = some (ctrAdd 16 n 1))) ∧
    (∀ m, x.ctl = some m → m.sent < 4 → exec (.controlResendTimeout p) s =
      .next ((s.emit (.codeword p.val (ctlPayload 0 x.inject m.cseq m.cmd m.arg))).onPos p.val (fun y =>
        { y with ctl := some { m with sent := m.sent + 1 } }))) ∧
    (∀ m, x.ctl = some m → 4 ≤ m.sent → x.ctlQ = [] → s.hub.log = [] → s.hub.halted = false → s.aon.islandsOff = false →
      leaves (.controlResendTimeout p) (fun u y _ => y.ctl = none ∧
        ∃ e ∈ u.hub.log, e.kind = 0x1E ∧ e.a = u32 m.cmd.toNat ∧ e.b = u32 m.cseq.toNat))

/-- R351, R353–R366, R379, R384–R386, R388, R389: a codeword on a framed lane counts; a block in sequence of a bound
stream is written into its slot of the ring; marks and stimulus codewords leave on the outbound lanes; a missed
deadline closes the stream's blocks up to it. -/
def Obligations.Codewords : Prop :=
  ∀ (s : State) (p : Fin 32) (x : Pos) (g : Fin 8) (q : Quad) (pay : BitVec 5140) (n : Nat), s.poss[p.val]? = some x →
    g.val = p.val / 4 → s.quads[g.val]? = some q →
    let f := cwFields pay
    let an := ancOf f.anc
    let cw : Instr := .dataCodewordReceived p (.decoded pay n)
    let dl : Instr := .dlCodewordReceived g (.decoded pay n)
    let leaves : Instr → (State → Pos → Prop) → Prop := fun op post =>
      ∃ u y, exec op s = .next u ∧ u.poss[p.val]? = some y ∧ post u y
    let counts : Instr → Nat → Nat → Nat → Prop := fun op k w m => ∀ c, x.ctrs[k]? = some c →
      leaves op (fun _ y => y.ctrs[k]? = some (ctrAdd w c m))
    (x.lstate = 3 → q.dlMode = false →
      (n ≤ 15 → (f.type = 0 → counts cw 1 48 1 ∧ counts cw 0 48 n) ∧ (f.type = 1 → counts cw 2 48 1) ∧
        (2 ≤ f.type.toNat → counts cw 3 16 1)) ∧
      (15 < n → counts cw 3 16 1) ∧
      counts (.dataCodewordReceived p .uncorrectable) 3 16 1 ∧ (∀ t v, counts (.fillCodewordReceived p t v) 2 48 1) ∧
      (x.badRun < 3 → leaves (.dataCodewordReceived p .uncorrectable) (fun _ y => y.badRun = x.badRun + 1)) ∧
      (n ≤ 15 → f.type.toNat < 2 → s.owner p.val = none → leaves cw (fun _ y => y.badRun = 0)) ∧
      (∀ st l m a ge, n ≤ 15 → f.type = 0 → s.owner p.val = some p.val → x.mod = .live → x.solving = none →
        x.stream = some st → st.anchor.isSome = true → st.last.getD 0 none = some l → injects st = false →
        x.seqNext = some f.seq → x.marks.find? (fun r => r.1 == an.mark) = some m → an.tsel ≠ 0xF →
        s.geodes[g.val]? = some ge → st.credits = [] →
        let t : Int := (m.2.toNat / 2 ^ 24 : Nat) + samplesTime an.offs (streamRate st)
        let j := st.nextJ.getD 0 0
        blockNum st 0 an f.seq t = j → skewed st j = false →
        slotAddr ge st (j % Nat.max 1 (10 * st.bind.rcount.toNat)) = some a →
        a + 384 ≤ 0x200000 → Memory.wf ge.mem = true →
        leaves cw (fun u y => y.seqNext = some (f.seq + 1) ∧
          (∃ su, y.stream = some su ∧ su.nextJ = modAt st.nextJ 0 (fun _ => j + streamN st) ∧
            (st.base = j → st.known = [] → su.base = j + 1 ∧ su.gap = none)) ∧
          ∀ k, k < 384 → smGet (u.geode g.val).mem.cells (a + k) =
            (slotWords f.samples t an.calph an.calv false f.ovr f.inj f.blane.toNat 0).getD k 0))) ∧
    (let late : Job → U32 := fun j => frameAt j.k (beaconAt s.aon ((now56 s.aon : Int) - (2 * 2 ^ 56 / 1000000 : Nat)))
      let due : Stream → Job → Prop := fun st j => s.jobOf st.job = some j ∧ st.anchor.isSome = true ∧ j.state ≠ .admitted ∧
        s.aon.islandsOff = false ∧ suspendedAt j (late j - BitVec.ofNat 32 j.k) = false ∧
        atOrAfter (late j) (j.first + BitVec.ofNat 32 j.k) = true
      let closed : Stream → Job → Stream → Prop := fun st j su => su.gap = none ∧
        su.lateTo = Nat.max st.lateTo (blocksBefore st (beaconTime s.aon (late j)))
      (q.dlMode = false → ∀ st j, x.stream = some st → due st j →
        leaves (.lateBlockDeadline p) (fun _ y => ∃ su, y.stream = some su ∧ closed st j su)) ∧
      (q.dlMode = true → ∀ (c : Fin 16) st j, q.streams[c.val]? = some (some st) → due st j →
        ∃ u z su, exec (.lateBlockDeadline p) s = .next u ∧ u.quads[g.val]? = some z ∧ z.streams[c.val]? = some (some su) ∧
          closed st j su)) ∧
    (s.sends p.val = true → leaves (.timeMarkSend g) (fun u y =>
      y.marks = ((markNow s.aon, dtOf56 (now56 s.aon)) :: x.marks).take 4 ∧
        Out.codeword p.val (markPayload (s.outPlace p.val).1 (s.outPlace p.val).2 (markNow s.aon) (dtOf56 (now56 s.aon))) ∈
          u.out)) ∧
    (∀ b y, s.owner p.val = some b → s.poss[b]? = some y → y.mod = .live → b + y.outLane = p.val →
      s.aon.islandsOff = false → let r := lfsrRun 360 y.lfsr
      exec (.stimulusCodewordSend p) s =
        .next ((s.emit (.codeword p.val (stimPayload y.outLane y.inject y.phase r.1))).onPos b (fun z =>
          { z with lfsr := r.2, phase := BitVec.ofNat 23 ((z.phase.toNat + 360) % 8388607)
                   outLane := (z.outLane + 1) % modLanes y }))) ∧
    (q.dlMode = true → q.dlup = true → n ≤ 15 → p.val = 4 * g.val + f.blane.toNat →
      let a := dlAnc f.anc
      let ch := a.1 % 16
      (f.type = 0 → counts dl 1 48 1 ∧ counts dl 0 48 n) ∧ (f.type = 1 → counts dl 2 48 1) ∧
      (f.type = 0 → q.streams.getD ch none = none → ∃ u z, exec dl s = .next u ∧ u.quads[g.val]? = some z ∧
        z.dlDiscard = ctrAdd 16 q.dlDiscard 1) ∧
      (∀ st j at_ ge, f.type = 0 → q.streams[ch]? = some (some st) → s.jobOf st.job = some j → atOrAfter a.2.2 j.first = true →
        st.credits = [] → st.early = [] → q.rxSeq[ch]? = some (some f.seq) → s.geodes[g.val]? = some ge →
        let k := st.nextJ.getD 0 0
        slotAddr ge st (k % Nat.max 1 (10 * st.bind.rcount.toNat)) = some at_ → at_ + 384 ≤ 0x200000 → Memory.wf ge.mem = true →
        ∃ u z su, exec dl s = .next u ∧ u.quads[g.val]? = some z ∧ z.streams[ch]? = some (some su) ∧
          su.nextJ = modAt st.nextJ 0 (fun _ => k + 1) ∧ z.rxSeq[ch]? = some (some (f.seq + 1)) ∧
          ∀ i, i < 384 → smGet (u.geode g.val).mem.cells (at_ + i) =
            (dlSlot s.aon f.samples a.2.2 a.2.1 f.blane.toNat).getD i 0))

/-! ### Calibration -/

/-- R391, R394, R396, R404, R407, R408, R410, R413, R414: epochs fill and move the average of a stream or hold it, a
shadow set is built from a full average, INJECT is sent again in a hold, and a solve takes two pages and ends in an
estimate. -/
def Obligations.Calibration : Prop :=
  ∀ (s : State) (p : Fin 32) (x : Pos) (st : Stream) (r : EpochResult) (b : Bool) (n : Nat), s.poss[p.val]? = some x →
    s.supWaits (p.val / 4) = false →
    let leaves : Instr → (State → Pos → Prop) → Prop := fun op post =>
      ∃ u y, exec op s = .next u ∧ u.poss[p.val]? = some y ∧ post u y
    let hasStream : (Stream → Prop) → State → Pos → Prop := fun post _ y => ∃ su, y.stream = some su ∧ post su
    let heldFor : BitVec 3 → State → Pos → Prop := fun cause => hasStream (fun su =>
      su.holdDue = some cause ∧ su.valid = false ∧ su.avg = 0 ∧ su.fill = 0 ∧ su.lit = st.lit)
    (r.discarded = true → exec (.epochEnd p r) s = .next s) ∧
    (∀ k, r.discarded = false → x.solving = some k → exec (.epochEnd p r) s =
      .next (if s.solveWaits (p.val / 4) then s else s.onPos p.val (fun y =>
        { y with solving := some (if 20 ≤ r.pnr ∧ r.inLimits = true then k + 1 else k) }))) ∧
    (x.stream = some st → r.discarded = false → x.solving = none → injects st = true → x.inject = true →
      (6 ≤ r.pnr → st.cleared = true → 0 < st.avg →
        (20 ≤ r.pnr → r.inLimits = true → leaves (.epochEnd p r) (hasStream (fun su =>
          su = { st with avg := Nat.min (s.avgWOf st.job) (st.avg + 1), rejects := 0, lowPnr := 0 }))) ∧
        (r.pnr < 20 ∨ r.inLimits = false → st.rejects < 7 → leaves (.epochEnd p r) (hasStream (fun su =>
          su = { st with rejects := st.rejects + 1, lowPnr := 0 }))) ∧
        (r.pnr < 20 ∨ r.inLimits = false → 7 ≤ st.rejects → leaves (.epochEnd p r) (heldFor 1))) ∧
      (20 ≤ r.pnr → st.cleared = true → st.avg = 0 →
        let m := if st.fill = 0 ∨ r.nearPrevious = true then st.fill + 1 else 1
        leaves (.epochEnd p r) (hasStream (fun su => su = { st with
          avg := if 8 ≤ m then 8 else 0, fill := if 8 ≤ m then 0 else m, rejects := 0, lowPnr := 0 }))) ∧
      (r.pnr < 6 → 1 ≤ st.lowPnr → leaves (.epochEnd p r) (heldFor 2))) ∧
    (x.stream = some st →
      (s.shadowFree p.val st = false → exec (.shadowBuildComplete p b) s = .next s) ∧
      (s.shadowFree p.val st = true → leaves (.shadowBuildComplete p true) (heldFor 4) ∧
        leaves (.shadowBuildComplete p false) (hasStream (fun su => su = { st with valid := true }))) ∧
      (st.held = true → st.cause = 3 → st.holdDue = none →
        exec (.injectResendTimeout p) s = .next (s.sendInject p.val true))) ∧
    (∀ ge, s.geodes[p.val / 4]? = some ge →
      (s.solveDue p.val = true → leaves (.positionSolveStart p) (fun u y =>
        y.solving = some 0 ∧ y.solveReq = false ∧ y.inject = true ∧ y.level = 60 ∧ y.solvePages = ge.pool.take 2 ∧
          (u.geode (p.val / 4)).pool = ge.pool.drop 2)) ∧
      (s.solveDue p.val = false → exec (.positionSolveStart p) s = .next s) ∧
      (x.solving.isSome = true → s.solveWaits (p.val / 4) = true → exec (.solveComplete p n) s = .next s) ∧
      (x.solving.isSome = true → s.solveWaits (p.val / 4) = false →
        (32 ≤ n → leaves (.solveComplete p n) (fun u y => y.solving = none ∧ y.inject = false ∧ y.solvePages = [] ∧
          (∀ k ∈ x.solvePages, k ∈ ge.pool ∨ k ∈ (u.geode (p.val / 4)).zeroing) ∧
          ∃ e, y.est = some e ∧ e.source = .solved ∧ e.time = s.aon.time)) ∧
        (n < 32 → s.hub.log = [] → s.hub.halted = false → s.aon.islandsOff = false →
          leaves (.solveComplete p n) (fun u y => y.solving = none ∧ y.inject = false ∧ y.est = x.est ∧
            ∃ e ∈ u.hub.log, e.kind = 0x27 ∧ e.unit = byteOf p.val ∧ e.a = u32 n))))

/-! ### Resets, start-up and faults -/

/-- R451, R452, R454–R458, R463, R466, R469: what each reset leaves and keeps, the release of a reset at T0, a geode's
self-test, READY with its phases and log entry, and the ends of a hub reset and of a geode reset. -/
def Obligations.ResetsAndStartUp : Prop :=
  ∀ (s : State) (g : Fin 8) (x : Geode), s.geodes[g.val]? = some x →
    exec .powerUpReset s = .next { State.reset with
      out := s.out, free := s.free, pending := s.pending
      aon := { ({} : Aon) with tripHold := s.aon.tripHold, thermtrip := s.aon.thermtrip } } ∧
    (∀ op kind, (op = Instr.perstAsserted ∧ kind = 2) ∨ (op = Instr.vinBrownOut ∧ kind = 3) →
      (s.aon.inReset = true → s.aon.startKind = 1 → exec op s = .next s) ∧
      (s.aon.inReset = false → ∃ u, exec op s = .next u ∧ u.cores = State.reset.cores ∧ u.geodes = State.reset.geodes ∧
        u.quads = State.reset.quads ∧ u.poss = State.reset.poss ∧ u.fns = State.reset.fns ∧ u.link = {} ∧ u.mon = {} ∧
        u.jtag = s.jtag ∧ u.hub = { ({} : Hub) with log := s.hub.log, logSeq := s.hub.logSeq } ∧ u.out = s.out ∧
        u.aon.inReset = true ∧ u.aon.devstate = .starting ∧ u.aon.startKind = kind ∧ u.aon.time = s.aon.time ∧
        u.aon.rate = s.aon.rate ∧ u.aon.source = s.aon.source ∧ u.aon.locked = s.aon.locked ∧
        u.aon.ppsEdges = s.aon.ppsEdges ∧ u.aon.irigErr = s.aon.irigErr ∧ u.aon.tj = 0 ∧ u.aon.talarm = false ∧
        u.aon.f = 65536 ∧ u.aon.fs = 7200000000 ∧ u.aon.lastBeacon = none ∧
        u.aon.faultrec = (if kind = 3 ∧ bitOf s.aon.faultrec 13 = false then 0x2004 else s.aon.faultrec))) ∧
    (s.aon.inReset = true → s.aon.tripHold = false → ∃ u, exec .resetRelease s = .next u ∧ u.aon.inReset = false ∧
      u.aon.started = s.aon.time ∧ u.aon.t0 = s.aon.time ∧ u.aon.n0 = 0 ∧ u.aon.nextBeacon = 0 ∧ u.aon.thermtrip = false ∧
      u.cores = s.cores ∧ u.hub = s.hub) ∧
    (s.aon.inReset = false ∨ s.aon.tripHold = true → exec .resetRelease s = .next s) ∧
    (s.aon.inReset = false → s.aon.devstate = .starting → x.faulted = false →
      (x.pool = [] → exec (.geodeSelfTestComplete g true) s = .next (s.onGeode g.val (fun y => { y with pool := allPages }))) ∧
      (s.hub.halted = false → s.aon.islandsOff = false → s.hub.log = [] →
        ∃ u, exec (.geodeSelfTestComplete g false) s = .next u ∧ u.geodes[g.val]? = some { x with faulted := true } ∧
          ∃ e ∈ u.hub.log, e.kind = 0x0C ∧ e.geode = byteOf g.val ∧ e.a = 0)) ∧
    (∀ n, s.aon.inReset = false → s.aon.devstate = .starting → s.aon.lastBeacon = some n →
      let at_ : Int := (now56 { s.aon with time := s.aon.started } : Nat) + (2 ^ 56 * 4 / 10 : Nat)
      (beaconTime s.aon n < at_ → exec .ready s = .next s) ∧
      (at_ ≤ beaconTime s.aon n → s.hub.halted = false → s.aon.islandsOff = false → s.hub.log = [] →
        bitOf s.aon.faultrec 13 = false → ∃ u, exec .ready s = .next u ∧ u.aon.devstate = .ready ∧
          u.aon.faultrec = s.aon.faultrec ∧
          (∀ (k : Nat) (y : Pos), k < 32 → s.poss[k]? = some y → ∃ z : Pos, u.poss[k]? = some z ∧
            z.phase = BitVec.ofNat 23 (262144 * k) ∧ z.mod = y.mod ∧ z.record = y.record) ∧
          ∃ e ∈ u.hub.log, e.kind = 1 ∧ e.a = (if s.aon.startKind = 1 then 1 else 2))) ∧
    (s.aon.inReset = false → s.hub.resetting = false → s.aon.islandsOff = false → s.cores.length = 81 →
      ∃ u, exec .hubReset s = .next u ∧ u.hub.resetting = true ∧ u.hub.fwActivate = false ∧ u.hub.mem = {} ∧
        u.hub.chans = List.replicate 32 {} ∧ u.cores[80]? = some Core.hubReset ∧ u.hub.log = s.hub.log ∧
        u.hub.jobs.map (fun j => j.id) = s.hub.jobs.map (fun j => j.id) ∧ (∀ j ∈ u.hub.jobs, j.cause = 3 ∧ j.releaseAt.isSome = true) ∧
        (∀ (n : Nat) (y : LodeSlot), n < 16 → u.hub.slots[n]? = some y → y = {}) ∧
        (∀ n : Nat, n < 80 → u.cores[n]? = s.cores[n]?)) ∧
    (s.hub.resetting = true → s.reserving ≠ [] → exec .hubResetComplete s = .next s) ∧
    (s.hub.resetting = true → s.reserving = [] → s.cores.length = 81 → ∃ u, exec .hubResetComplete s = .next u ∧
      u.hub.resetting = false ∧ u.hub.jobs = [] ∧ u.hub.abandoned = [] ∧ (u.core .hub).halted = false ∧
      (s.hub.fwActivate = true → u.aon.devstate = .ready) ∧
      (s.hub.abandoned = [] → s.hub.jobs = [] → s.hub.log = [] → s.hub.halted = false → s.aon.islandsOff = false →
        ∃ e ∈ u.hub.log, e.kind = 1 ∧ e.a = 4)) ∧
    (s.aon.inReset = false → s.aon.islandsOff = false → s.cores.length = 81 → s.hub.log = [] → s.hub.halted = false →
      ∃ (u : State) (y : Geode), exec (.geodeReset g) s = .next u ∧ u.geodes[g.val]? = some y ∧ y.inReset = true ∧
        y.mem = {} ∧ y.pool = [] ∧ y.retired = x.retired ∧ y.eclipsed = x.eclipsed ∧ y.faulted = x.faulted ∧
        u.cores[72 + g.val]? = some Core.supReset ∧
        (∀ k : Nat, k < 9 → u.cores[9 * g.val + k]? =
          some { Core.signalReset with beacons := (s.coreAt (9 * g.val + k)).beacons }) ∧
        (∀ (k : Nat) (y : Pos), s.poss[k]? = some y → ∃ z : Pos, u.poss[k]? = some z ∧ z.mod = y.mod ∧ z.record = y.record) ∧
        ∃ e ∈ u.hub.log, e.kind = 0x0B ∧ e.geode = byteOf g.val) ∧
    (x.inReset = false → exec (.geodeResetComplete g) s = .next s) ∧
    (x.inReset = true → exec (.geodeResetComplete g) s =
      .next ((s.onGeode g.val (fun y => { y with inReset := false, pool := allPages })).onCore (.sup g)
        (fun c => { c with halted := false })))

/-- R143, R426, R450, R463, R466, R468, R469, R487, R511, R519: halts, temperature and lost references. -/
def Obligations.FaultsAndTemperature : Prop :=
  ∀ (s : State) (g : Fin 8) (p : Fin 32) (x : Geode) (y : Pos) (tj : BitVec 16), s.geodes[g.val]? = some x →
    s.poss[p.val]? = some y → s.cores.length = 81 →
    let fault : BitVec 14 → State → Prop := fun cause u =>
      u.aon.devstate = .fault ∧ u.aon.faultrec = 0x2000 + cause ∧ u.aon.ppsHigh = false ∧ ∀ z ∈ u.poss, z.mrst = true
    (x.supHalted = false → exec (.supvHalt g) s = .next s) ∧
    (x.supHalted = true → s.hubUp = true → s.hub.log = [] → ∃ (u : State) (z : Geode), exec (.supvHalt g) s = .next u ∧
      u.geodes[g.val]? = some z ∧ z.supHalted = false ∧
      z.faulted = (x.faulted || (match x.lastHalt with | some t => decide (secNow s.aon < t + 10) | none => false)) ∧
      (∃ e ∈ u.hub.log, e.kind = 0x0A ∧ e.a = u32 (haltCode (s.core (.sup g)))) ∧
      (∀ j ∈ u.hub.jobs, g.val ∈ j.geodes → g.val ∉ j.done → j.releaseAt.isSome = true ∧ (j.cause = 2 ∨ j.cause = 3)) ∧
      (∀ (n : Nat) (sl : LodeSlot), n < 16 → u.hub.slots[n]? = some sl → sl.pages.any (fun q => q.1 == g.val) = false)) ∧
    ((s.coreAt 80).stop = none → exec .hubHalt s = .next s) ∧
    ((s.coreAt 80).stop ≠ none → s.hub.halted = false → s.aon.inReset = false →
      ∃ u, exec .hubHalt s = .next u ∧ fault 1 u ∧ u.hub.halted = true) ∧
    (∃ u, exec (.tempRefresh tj) s = .next u ∧ u.aon.tj = tj ∧
      u.aon.tripHold = (s.aon.tripHold && decide (1120 ≤ tj.toInt)) ∧
      (tj.toInt < 1184 → u.aon.talarm = false) ∧
      (1184 ≤ tj.toInt → s.aon.talarm = true ∨ tj.toInt < 1216 ∨ s.aon.tj.toInt < 1216 → u.aon.talarm = s.aon.talarm) ∧
      (s.aon.talarm = false → 1216 ≤ s.aon.tj.toInt → 1216 ≤ tj.toInt → u.aon.talarm = true ∧
        linePending (u.core .hub) 52 = true ∧
        (s.hub.log = [] → s.hub.halted = false → s.aon.islandsOff = false →
          ∃ e ∈ u.hub.log, e.kind = 4 ∧ e.a = tj.setWidth 32))) ∧
    (∃ u, exec .thermalTrip s = .next u ∧ u.aon.tripHold = true ∧ u.aon.thermtrip = true ∧ Out.thermtrip true ∈ u.out ∧
      (s.aon.inReset = false → fault 2 u ∧ u.aon.islandsOff = true)) ∧
    (s.aon.inReset = true → exec .timerefLoss s = .next s) ∧
    (s.aon.inReset = false → ∃ u, exec .timerefLoss s = .next u ∧ fault 3 u) ∧
    (s.aon.noLaneRef = true → exec .refclkFault s = .next s) ∧
    (s.aon.noLaneRef = false → s.hub.log = [] → s.hub.halted = false → s.aon.islandsOff = false →
      ∃ u, exec .refclkFault s = .next u ∧ u.aon.noLaneRef = true ∧
        u.poss[p.val]? = some { y with lstate := 6 } ∧ ∃ e ∈ u.hub.log, e.kind = 8) ∧
    (s.aon.noLaneRef = false → exec .laneReferenceRestored s = .next s) ∧
    (s.aon.noLaneRef = true → ∃ u, exec .laneReferenceRestored s = .next u ∧ u.aon.noLaneRef = false ∧
      u.poss[p.val]? = some { y with lstate := s.laneCode p.val })

/-- R444, R454, R505–R507: PPS edges are accepted, counted and lock device time, IRIG-B frames discipline it or count
as errors, and PPS_OUT rises once in a whole second. -/
def Obligations.TimeInputs : Prop :=
  ∀ (s : State) (err : Int) (v : Bool) (sec : BitVec 42), s.aon.inReset = false →
    let a := s.aon
    let near : Nat → Prop := fun r => 10000 * r ≤ 10001 * 12089258196146292 ∧ 9999 * 12089258196146292 ≤ 10000 * r + 10000
    let accepted : Nat → State → Prop := fun n u =>
      u.aon.ppsEdges = a.ppsEdges + BitVec.ofNat 32 n ∧ u.aon.lastEdge = some a.time ∧ u.aon.outEdges = 0 ∧
        u.aon.goodEdges = (if err.natAbs ≤ 50 then a.goodEdges + 1 else 0) ∧
        u.aon.timeSet = a.timeSet.map (fun t => { t with armed := true }) ∧ u.aon.time = a.time ∧
        (a.source ≠ 1 → u.aon.rate = a.rate) ∧ (a.source = 1 → near u.aon.rate)
    (a.locked = false →
      ((∀ t, a.lastEdge = some t → 9 * 2 ^ 80 ≤ 10 * (a.time - t).toNat) → ∃ u, exec (.ppsEdge err) s = .next u ∧ accepted 1 u ∧
        (u.aon.locked = true ↔ a.source ≠ 0 ∧ err.natAbs ≤ 50 ∧ 7 ≤ a.goodEdges)) ∧
      (∀ t, a.lastEdge = some t → 10 * (a.time - t).toNat < 9 * 2 ^ 80 → exec (.ppsEdge err) s = .next (s.hubLine 53))) ∧
    (a.locked = true →
      (err.natAbs ≤ 10000 → ∃ u, exec (.ppsEdge err) s = .next u ∧ accepted 1 u ∧ u.aon.locked = true) ∧
      (10000 < err.natAbs →
        let n := if 0 < a.outEdges ∧ (err - a.outErr).natAbs ≤ 1000 then a.outEdges + 1 else 1
        (n < 8 → exec (.ppsEdge err) s = .next ((s.hubLine 53).onAon (fun b => { b with outEdges := n, outErr := err }))) ∧
        (8 ≤ n → ∃ u, exec (.ppsEdge err) s = .next u ∧ accepted 8 u ∧ u.aon.locked = false))) ∧
    (∀ t, a.lastEdge = some t →
      (3 * 2 ^ 80 ≤ (a.time - t).toNat →
        exec .ppsLockTimeout s = .next (s.onAon (fun b => { b with locked := false, goodEdges := 0 }))) ∧
      ((a.time - t).toNat < 3 * 2 ^ 80 → exec .ppsLockTimeout s = .next s)) ∧
    (a.source ≠ 2 → exec (.irigBFrame v sec) s =
      .next (if v then (s.hubLine 53).onAon (fun b => { b with irigSec := some sec }) else s.hubLine 53)) ∧
    (a.source = 2 →
      (v = true → (sec + a.irigOff).toNat = a.time.toNat / 2 ^ 80 → ∃ u, exec (.irigBFrame v sec) s = .next u ∧
        near u.aon.rate ∧ u.aon.irigErr = a.irigErr ∧ u.aon.irigSec = some sec) ∧
      (v = false ∨ (sec + a.irigOff).toNat ≠ a.time.toNat / 2 ^ 80 → ∃ u, exec (.irigBFrame v sec) s = .next u ∧
        u.aon.rate = a.rate ∧ u.aon.irigErr = ctrAdd 16 a.irigErr 1)) ∧
    (let now := BitVec.ofNat 42 (a.time.toNat / 2 ^ 80)
     (a.stage = 0 ∨ a.devstate = .fault ∨ a.ppsOut = some now → exec .ppsOutPulse s = .next s) ∧
     (a.stage ≠ 0 → a.devstate ≠ .fault → a.ppsOut ≠ some now → exec .ppsOutPulse s =
       .next ((s.onAon (fun b => { b with ppsOut := some now, ppsHigh := true })).emit (.ppsOut true))))

/-! ### The bench monitor and JTAG -/

/-- R477–R488: a byte at the UART is echoed and joins the line, and a line that ends names the command that runs; each
command of the monitor has its effect and is answered with its lines, OK or E nn, and the prompt, while the monitor
takes commands from its port, and does nothing otherwise. Texts and layouts of lines are the model's (log entry 81).
R489: the JTAG instructions come into force; BYPASS delays TDI by one bit that captures 0, IDCODE gives 1, the
manufacturer, part number 0x3214 and version 1, and a scan of the boundary register keeps what comes in. -/
def Obligations.MonitorAndJtag : Prop :=
  (
    ∀ (s : State) (p : Port) (r : CoreRef) (c : Core) (b : Byte) (e : Bool) (g : Fin 8) (k : Fin 9),
      s.cores[coreIdx r]? = some c → s.mon.buf = [] →
      let t : State := s.monClear p
      let row : Instr → MonCmd → MonAns → Prop := fun op cmd a =>
        (s.monTakes p cmd = false → exec op s = .next s) ∧ (s.monTakes p cmd = true → exec op s = .next (a.send p))
      let gives : State → List (List Byte) → MonAns := fun u ls => { st := u, lines := ls }
      let err : Nat → MonAns := fun n => { st := t, code := n }
      let whole : Sys2Proof.Target := ⟨r, none⟩
      (s.mon.open_ = false → exec (.uartByteReceived b e) s =
        .next (s.onHub (fun h => { h with uartEarly := ctrAdd 16 h.uartEarly 1 }))) ∧
      (s.mon.open_ = true → s.monBusy = false →
        (32 ≤ b.toNat → b.toNat ≤ 126 → s.mon.line.length < 128 → ∃ u, exec (.uartByteReceived b false) s = .next u ∧
          u.out = .uart [b] :: s.out ∧ u.mon.line = s.mon.line ++ [b] ∧ u.mon.buf = []) ∧
        (32 ≤ b.toNat → b.toNat ≤ 126 → 128 ≤ s.mon.line.length → ∃ u, exec (.uartByteReceived b false) s = .next u ∧
          u.mon.tooLong = true ∧ u.mon.line = s.mon.line) ∧
        (∃ u, exec (.uartByteReceived b true) s = .next u ∧ u.mon.tooLong = true ∧ u.out = s.out) ∧
        (∀ i, s.mon.lode = none → s.mon.tooLong = false → s.mon.badByte = false →
          commandOf (tokensOf s.mon.line) = .cmd i → ∃ u, exec (.uartByteReceived 13 false) s = .next u ∧
            u.out = .uart [13] :: s.out ∧ u.mon.ready = some i ∧ u.mon.line = [])) ∧
      row (.ver p) .ver (gives t [t.bannerText]) ∧
      row (.state p) .state (gives t [t.stateLine]) ∧
      (∀ (x : Space) (n : Nat) (vs : List Nat), let h := spaceShape x
        row (.mr p x n) (.mr x n)
          (if n = 0 ∨ 256 < n ∨ spaceFits x n = false then err 2
           else if t.spaceOff x then err 5
           else
             let q := t.spaceReads x h.2.2.1 h.1 n
             { st := q.1, lines := linesOf8 (q.2.1.map (fun v => hexNum h.2.2.2.1 v)), code := if q.2.2 then 7 else 0 }) ∧
        row (.mw p x vs) (.mw x vs)
          (if vs = [] ∨ 16 < vs.length ∨ spaceFits x vs.length = false ∨ ∃ v ∈ vs, 2 ^ h.2.2.2.2 ≤ v then err 2
           else if t.spaceOff x then err 5
           else { st := t.spaceWrites x h.2.2.1 h.1 vs })) ∧
      (t.targetOff r = false →
        (∀ (n : Fin 16) (v : BitVec 1792) (th : Thread), r = .sig g k → c.kind = .signal → c.threads[2]? = some th →
          (c.isHalted = true → c.stop = none →
            row (.reg p whole (some 2) (.a n) none) (.reg whole (some 2) (.a n) none)
              (gives t [hexNum 6 (smGet th.a n.val).toNat]) ∧
            (v.toNat < 2 ^ 24 → row (.reg p whole (some 2) (.a n) (some v)) (.reg whole (some 2) (.a n) (some v))
              (gives (t.onCore r (fun d => onThread d 2 (fun y => { y with a := smPut y.a n.val (BitVec.ofNat 24 v.toNat) }))) [])) ∧
            (2 ^ 24 ≤ v.toNat → row (.reg p whole (some 2) (.a n) (some v)) (.reg whole (some 2) (.a n) (some v)) (err 2)) ∧
            (v.toNat < 2 ^ 448 → row (.reg p whole (some 1) (.v n) (some v)) (.reg whole (some 1) (.v n) (some v))
              (gives (t.onCore r (fun d => onThread d 1 (fun y => { y with v := (List.range 32).foldl (fun m k =>
                smPut m (32 * n.val + k) (BitVec.ofNat 14 (v.toNat / 2 ^ (14 * k)))) y.v }))) []))) ∧
          (c.isHalted = false → c.stop = none →
            row (.reg p whole (some 2) (.a n) none) (.reg whole (some 2) (.a n) none) (err 4))) ∧
        row (.halt p whole) (.halt whole) (gives (t.onCore r (fun d => if d.held then d else haltCore d)) []) ∧
        (c.isHalted = false → row (.monitorRun p whole) (.run whole) (gives t [])) ∧
        (c.isHalted = true → c.stop ≠ none → row (.monitorRun p whole) (.run whole) (gives (t.onCore r runCore) [])) ∧
        (∀ n, 1 ≤ n → n ≤ 1024 → row (.step p whole n) (.step whole n) (gives (t.stepCore r n) [])) ∧
        (∀ (i : Fin 2) (a : Option IAddr), row (.brk p whole i a) (.brk whole i a)
          (gives (t.onCore r (fun d => if i = 0 then { d with brk0 := a } else { d with brk1 := a })) [])) ∧
        row (.attn p whole) (.attn whole) (gives (t.raise r (match r with | .hub => 54 | _ => 31)) [])) ∧
      (t.targetOff r = true → row (.halt p whole) (.halt whole) (err 5) ∧ row (.attn p whole) (.attn whole) (err 5)) ∧
      (∀ (i : Fin 16) (m : Byte) (bs : List Byte),
        (s.monTakes p (.lode i m bs) = false → exec (.lode p i m bs) s = .next s) ∧
        (p = .jtag → s.monTakes p (.lode i m bs) = true → s.lodeStatus i.val = 0 → exec (.lode p i m bs) s =
          .next (((s.sayLine .jtag (ascii "=")).onSlot i.val (fun y =>
            { monSlot .jtag m bs.length bs with pages := y.pages })).placeImages i.val)) ∧
        (p = .jtag → s.monTakes p (.lode i m bs) = true → s.lodeStatus i.val ≠ 0 → exec (.lode p i m bs) s =
          .next (({ st := s, code := 6, extra := statusText (s.lodeStatus i.val) } : MonAns).send .jtag)) ∧
        (p = .uart → s.monTakes p (.lode i m bs) = true → (s.slotOf i.val).monitor = some .uart →
          (s.slotOf i.val).bytes.length < (s.slotOf i.val).len → exec (.lode p i m bs) s =
            .next ((t.onSlot i.val (fun y => { monSlot .uart m bs.length bs with pages := y.pages })).placeImages i.val))) ∧
      (∀ (q : Option U32) (n : Option Nat), row (.log p q n) (.log q n)
        (if n.getD 16 = 0 ∨ 4096 < n.getD 16 then err 2
         else gives t ((t.logPick q (n.getD 16)).map (fun y => hexBytes (logBytes y))))) ∧
      (∀ i : Fin 10, s.aon.islandsOff = false →
        row (.ctr p i true) (.ctr i true) (gives t ((t.liveBlock i.val).map (fun v => hexNum 16 v))) ∧
        row (.ctr p i false) (.ctr i false)
          (gives (t.snapBlock i.val).2 ((values8 ((t.snapBlock i.val).1.drop 4)).map (fun v => hexNum 16 v)))) ∧
      (∀ w : Word, row (.fuse p b none) (.fuse b none) (gives t [hexNum 4 (t.fuseWord b.toNat).toNat]) ∧
        (∃ u : State, u.fuseWord b.toNat = w ∧ (∀ j, j ≠ b.toNat → u.fuseWord j = s.fuseWord j) ∧ u.cores = s.cores ∧
          u.hub = s.hub ∧ row (.fuse p b (some w)) (.fuse b (some w)) (gives u []))) ∧
      row (.faultrec p false) (.faultrec false) (gives t [hexNum 4 s.aon.faultrec.toNat]) ∧
      row (.faultrec p true) (.faultrec true)
        (gives (t.onAon (fun a => { a with faultrec := a.faultrec &&& 0x1FFF })) []) ∧
      (s.monTakes p .resetDev = true → exec (.resetDev p) s = .next (((gives t []).send p).deviceReset 2)) ∧
      (s.aon.islandsOff = false → row (.resetHub p) .resetHub (gives (t.beginHubReset false) [])) ∧
      (t.targetOff (.sup g) = false → row (.resetG p g) (.resetG g) (gives (t.beginGeodeReset g.val) [])) ∧
      (t.targetOff (.sig g k) = false → row (.resetC p g k) (.resetC g k) (gives (t.coreReset g.val k.val) []))) ∧
  (
    ∀ (s : State) (bits : List Bool),
      (∃ u, exec (.bypass bits) s = .next u ∧ u.jtag.ir = .bypass ∧
        u.out = .tdo ((false :: bits).take bits.length) :: s.out ∧ u.cores = s.cores ∧ u.hub = s.hub) ∧
      (∃ u w, exec .idcode s = .next u ∧ u.jtag = { s.jtag with ir := .idcode } ∧ u.out = .tdo w :: s.out ∧ w.length = 32 ∧
        (∀ n : Nat, n < 32 → w[n]? = some (Nat.testBit (2 ^ 28 + 0x3214 * 2 ^ 12 + Config.jedec.toNat * 2 + 1) n)) ∧
        u.cores = s.cores ∧ u.hub = s.hub) ∧
      (∀ op ir, (op = Instr.samplePreload bits ∧ ir = JtagIr.sample) ∨ (op = Instr.extest bits ∧ ir = JtagIr.extest) →
        ∃ u w, exec op s = .next u ∧ u.jtag = { s.jtag with ir := ir, boundary := bits } ∧ u.out = .tdo w :: s.out ∧
          w.length = bits.length ∧ u.cores = s.cores ∧ u.hub = s.hub) ∧
      exec .debug s = .next { s with jtag := { s.jtag with ir := .debug } })

/-! ### Resets of a core, landings, frames -/

/-- R85: after a core reset, by the monitor's RESET C, by a geode reset or by a device reset, every direction counter
is 1, every entry of every return stack is 0x0000 with pointer 0, and STAT.PB is 1 at every level. -/
def Obligations.CoreResetPrediction : Prop :=
  ∀ (s : State) (p : Port) (g : Fin 8) (k : Fin 9) (c : Core), s.cores[coreIdx (.sig g k)]? = some c →
    let asReset : State → Prop := fun u => ∃ d : Core, u.cores[coreIdx (.sig g k)]? = some d ∧ d.kind = .signal ∧
      d.threads.length = 4 ∧ (∀ n, n < 1024 → dirCtr d n = 1) ∧
      ∀ t ∈ d.threads, (∀ n, n < 8 → smGet t.rstk n = 0) ∧ t.rsp = 0 ∧ bitOf t.stat 11 = true
    (s.monTakes p (.resetC g k) = true → s.targetOff (.sig g k) = false →
      ∃ u, exec (.resetC p g k) s = .next u ∧ asReset u) ∧
    (s.aon.inReset = false → s.aon.islandsOff = false → ∃ u, exec (.geodeReset g) s = .next u ∧ asReset u) ∧
    (s.aon.inReset = false → ∃ u, exec .perstAsserted s = .next u ∧ asReset u)

/-- R151: the edge results of the ALU operations, row by row; a flag that a row does not name stays. -/
def Obligations.AluEdgeResults : Prop :=
  ∀ (s : State) (i : Site) (k : Nat) (c : Core) (t : Thread) (f : R3), f.b = 0 →
    let a := t.rd f.y.toNat; let b := t.rd f.z.toNat
    let word : Instr → Word → List (FlagId × Bool) → Prop := fun op r fl => Quiet s i op k c t →
      exec op s = .next (landing s i k (dTo t f.x.toNat r 1 :: flagsTo fl 1))
    let pair : Instr → DWord → List (FlagId × Bool) → Prop := fun op r fl => Quiet s i op k c t →
      exec op s = .next (landing s i k (pairTo t f.x.toNat r 1 ++ flagsTo fl 1))
    let nzcv : Bool → Bool → Bool → Bool → List (FlagId × Bool) := fun n z y v => [(.n, n), (.z, z), (.c, y), (.v, v)]
    let nzv : Bool → Bool → Bool → List (FlagId × Bool) := fun n z v => [(.n, n), (.z, z), (.v, v)]
    (a.toInt = 8191 → b = 1 → word (.add i (.reg f)) (if t.sat then 0x1FFF else 0x2000) (nzcv true false false true)) ∧
    (a = 0x2000 → b = 0x2000 → word (.add i (.reg f)) (if t.sat then 0x2000 else 0) (nzcv false true true true)) ∧
    (a.toInt = -1 → b = 1 → word (.add i (.reg f)) 0 (nzcv false true true false)) ∧
    (a = 0x2000 → b = 1 → word (.sub i (.reg f)) (if t.sat then 0x2000 else 0x1FFF) (nzcv false false true true)) ∧
    (a = 0 → b = 1 → word (.sub i (.reg f)) 0x3FFF (nzcv true false false false)) ∧
    (a = 0 → b = 0 → word (.sub i (.reg f)) 0 (nzcv false true true false)) ∧
    (f.z = 0 →
      (a = 0x2000 → word (.neg i f) (if t.sat then 0x1FFF else 0x2000) (nzcv true false false true)) ∧
      (a = 0 → word (.neg i f) 0 (nzcv false true true false)) ∧
      (a = 0x2000 → word (.abs i f) (if t.sat then 0x1FFF else 0x2000) (nzv true false true))) ∧
    (a = 0x2000 → b = 0x1FFF → word (.min i f) 0x2000 (nzv true false false)) ∧
    (a = 0x2000 → b = 0x1FFF → word (.minu i f) 0x1FFF (nzv false false false)) ∧
    (a = 0x2AAA → b = 0x1555 → word (.and i f) 0 (nzv false true false)) ∧
    (f.x.toNat % 2 = 0 → f.y.toNat % 2 = 0 → f.z.toNat % 2 = 0 → t.rdd f.y.toNat = 0x7FFFFFF → t.rdd f.z.toNat = 1 →
      pair (.addD i f) (if t.sat then 0x7FFFFFF else 0x8000000) (nzcv true false false true))

/-- R65: a result that is due is in its register when a bundle issues, the one of the later bundle where two are due
for one register, and the bundle reads it; one not due stays on its way. -/
def Obligations.ResultsLand : Prop :=
  ∀ (s : State) (i : Site) (k : Nat) (c : Core) (t : Thread) (f : R3) (q n m : Nat) (v w : Word), f.b = 0 →
    let with_ : (Thread → Thread) → State := fun h => s.onCore i.core (fun d => onThread d k h)
    let op : Instr := .add i (.reg f)
    let landed : State := with_ (fun u => { u with d := smPut u.d q w })
    Quiet s i op k c t →
    exec op (with_ (fun u => { u with flight := u.flight ++ [⟨t.adv, n, .d q w⟩] })) = exec op landed ∧
    (n < m → exec op (with_ (fun u => { u with flight := u.flight ++ [⟨t.adv, n, .d q v⟩, ⟨t.adv, m, .d q w⟩] })) = exec op landed ∧
      exec op (with_ (fun u => { u with flight := u.flight ++ [⟨t.adv, m, .d q w⟩, ⟨t.adv, n, .d q v⟩] })) = exec op landed)

/-- R103, R249, R258, R273, R471: an operation of a signal core reaches nothing but its core, the requests of its
geode, the supervisor's line for it and the error log; it writes no instruction memory. -/
def Obligations.CoreOperationFrame : Prop :=
  ∀ (op : Instr) (i : Site) (g : Fin 8) (k : Fin 9) (s u : State), siteOf op = some i → i.core = .sig g k →
    exec op s = .next u →
    u.quads = s.quads ∧ u.poss = s.poss ∧ u.fns = s.fns ∧ u.aon = s.aon ∧ u.link = s.link ∧ u.mon = s.mon ∧
    u.jtag = s.jtag ∧ u.out = s.out ∧ u.pending = s.pending ∧ s.free ≤ u.free ∧
    { u.hub with log := s.hub.log, logSeq := s.hub.logSeq } = s.hub ∧
    (∀ n : Nat, n ≠ 9 * g.val + k.val → n ≠ 72 + g.val → u.cores[n]? = s.cores[n]?) ∧
    (∀ d : Core, s.cores[72 + g.val]? = some d → ∃ e : Core, u.cores[72 + g.val]? = some e ∧ e.x = d.x ∧ e.y = d.y ∧
      e.imem = d.imem ∧ e.run = d.run) ∧
    (∀ d : Core, s.cores[9 * g.val + k.val]? = some d → ∃ e : Core, u.cores[9 * g.val + k.val]? = some e ∧
      e.imem.cells = d.imem.cells ∧ e.kind = d.kind ∧ e.snap = d.snap ∧ e.beacons = d.beacons) ∧
    (∀ n : Nat, n ≠ g.val → u.geodes[n]? = s.geodes[n]?) ∧
    (∀ x : Geode, s.geodes[g.val]? = some x → ∃ y : Geode, u.geodes[g.val]? = some y ∧ y.mem = x.mem ∧ y.pool = x.pool ∧
      y.master = x.master ∧ y.bst = x.bst ∧ x.reqs <+: y.reqs)

/-! ### The block as a whole -/

/-- The block takes its commands first in, first out; on an empty queue it idles (the model's choice, log entry 2). -/
def Obligations.StepRunsFront : Prop :=
  (∀ (c : Instr) (s : State) (rest : List Instr), s.pending = c :: rest → step s = exec c { s with pending := rest }) ∧
  (∀ s : State, s.pending = [] → step s = .next s)

/-- R222–R230, R240: reading a written long operation gives it back, with every operand at every value. -/
def Obligations.LongOperationsRoundTrip : Prop :=
  ∀ (op : Instr) (i : Site), siteOf op = some i → op.wellFormed = true → i.rsv = false → i.short = false →
    ∃ w, encodeLong op = some w ∧ w < 2 ^ 26 ∧ decodeLong i w = some op

/-- R22, R356, R424: every step keeps the parts of the device: 81 cores, 8 geodes, 8 quads, 32 positions, 8 functions.
-/
def Obligations.StepKeepsShape : Prop :=
  ∀ s u : State, s.shape = true → step s = .next u → u.shape = true

/-- R245: every step keeps every memory in its canonical form. -/
def Obligations.StepKeepsMemories : Prop :=
  ∀ s u : State, s.memWf = true → step s = .next u → u.memWf = true

/-- R22, R245, R356, R424: the device after reset has its parts, and its memories are in canonical form. -/
def Obligations.ResetInvariants : Prop :=
 State.reset.shape = true ∧ State.reset.memWf = true
end

