-- ==== Sys2Proof/Laws/SMap.lean ====
section
/-! SUPPORT. The laws of the sparse arrays: read after write, other indices unchanged, the canonical form kept; and
of `modAt`. -/

namespace Sys2Proof.Laws
open Sys2Proof Sys2Proof.Machine

variable {w : Nat} {α : Type}

/-! ### modAt -/

@[simp] theorem modAt_length (l : List α) (i : Nat) (f : α → α) : (modAt l i f).length = l.length := by
  induction l generalizing i with
  | nil => rfl
  | cons x xs ih => cases i <;> simp [modAt, ih]

theorem modAt_get (l : List α) (i j : Nat) (f : α → α) :
    (modAt l i f)[j]? = if i = j then l[j]?.map f else l[j]? := by
  induction l generalizing i j with
  | nil => simp [modAt]
  | cons x xs ih => cases i <;> cases j <;> simp [modAt, ih]

@[simp] theorem modAt_get_self (l : List α) (i : Nat) (f : α → α) : (modAt l i f)[i]? = l[i]?.map f := by
  simp [modAt_get]

theorem modAt_get_ne (l : List α) (i j : Nat) (f : α → α) (h : i ≠ j) : (modAt l i f)[j]? = l[j]? := by
  simp [modAt_get, h]

@[simp] theorem modAt_id (l : List α) (i : Nat) : modAt l i (fun x => x) = l := by
  induction l generalizing i with
  | nil => rfl
  | cons x xs ih => cases i <;> simp [modAt, ih]

@[simp] theorem modAt_modAt (l : List α) (i : Nat) (f g : α → α) : modAt (modAt l i f) i g = modAt l i (fun x => g (f x)) := by
  induction l generalizing i with
  | nil => rfl
  | cons x xs ih => cases i <;> simp [modAt, ih]

/-- Only the element at the index matters to what the change is. -/
theorem modAt_congr (l : List α) (i : Nat) (f g : α → α) (h : ∀ x, l[i]? = some x → f x = g x) :
    modAt l i f = modAt l i g := by
  induction l generalizing i with
  | nil => rfl
  | cons x xs ih =>
    cases i with
    | zero => simp [modAt, h x]
    | succ n => simp [modAt, ih n (fun y hy => h y (by simpa using hy))]

/-- A change that keeps the element it meets keeps the list. -/
theorem modAt_same (l : List α) (i : Nat) (f : α → α) (h : ∀ x, l[i]? = some x → f x = x) : modAt l i f = l := by
  rw [modAt_congr l i f (fun x => x) h, modAt_id]

/-! ### Reading and writing -/

@[simp] theorem smGet_nil (i : Nat) : smGet ([] : SMap w) i = 0#w := rfl

/-- An index at or below every entry's lower bound reads 0. -/
theorem smGet_above (m : SMap w) (i k : Nat) (h : smAbove k m = true) (hi : i ≤ k) : smGet m i = 0#w := by
  induction m with
  | nil => rfl
  | cons e m ih =>
    obtain ⟨j, v⟩ := e
    simp only [smAbove, List.all_cons, Bool.and_eq_true, decide_eq_true_eq] at h
    simp only [smGet]
    rw [if_neg (by omega)]
    exact ih h.2

theorem smAbove_mono (m : SMap w) (i k : Nat) (h : smAbove k m = true) (hi : i ≤ k) : smAbove i m = true := by
  simp only [smAbove, List.all_eq_true, decide_eq_true_eq] at h ⊢
  exact fun e he => Nat.lt_of_le_of_lt hi (h e he)

theorem smPut_above (m : SMap w) (i k : Nat) (x : BitVec w) (h : smAbove k m = true) (hk : k < i) :
    smAbove k (smPut m i x) = true := by
  induction m with
  | nil => simp only [smPut]; split <;> simp [smAbove, hk]
  | cons e m ih =>
    obtain ⟨j, v⟩ := e
    have h' := h
    simp only [smAbove, List.all_cons, Bool.and_eq_true, decide_eq_true_eq] at h
    simp only [smPut]
    split
    · split
      · exact h'
      · simp only [smAbove, List.all_cons, Bool.and_eq_true, decide_eq_true_eq]; exact ⟨hk, h⟩
    · split
      · split
        · exact h.2
        · simp only [smAbove, List.all_cons, Bool.and_eq_true, decide_eq_true_eq]; exact ⟨hk, h.2⟩
      · simp only [smAbove, List.all_cons, Bool.and_eq_true, decide_eq_true_eq]; exact ⟨h.1, ih h.2⟩

/-- A write keeps the canonical form. -/
theorem smPut_wf (m : SMap w) (i : Nat) (x : BitVec w) (h : smWf m = true) : smWf (smPut m i x) = true := by
  induction m with
  | nil => simp only [smPut]; split <;> simp_all [smWf, smAbove]
  | cons e m ih =>
    obtain ⟨j, v⟩ := e
    have h' := h
    simp only [smWf, Bool.and_eq_true] at h
    obtain ⟨⟨hv, ha⟩, hm⟩ := h
    simp only [smPut]
    split
    · rename_i hij
      split
      · exact h'
      · simp only [smWf, Bool.and_eq_true, smAbove, List.all_cons, decide_eq_true_eq]
        exact ⟨⟨by simpa using ‹_›, hij, smAbove_mono m i j ha (by omega)⟩, ⟨hv, ha⟩, hm⟩
    · split
      · rename_i hij
        subst hij
        split
        · exact hm
        · simp only [smWf, Bool.and_eq_true]
          exact ⟨⟨by simpa using ‹_›, ha⟩, hm⟩
      · simp only [smWf, Bool.and_eq_true]
        exact ⟨⟨hv, smPut_above m i j x ha (by omega)⟩, ih hm⟩

/-- In canonical form, reading index j after a write of x at i gives x at i and the old value elsewhere. -/
theorem smGet_smPut (m : SMap w) (i j : Nat) (x : BitVec w) (h : smWf m = true) :
    smGet (smPut m i x) j = if j = i then x else smGet m j := by
  induction m with
  | nil => simp only [smPut]; split <;> simp_all [smGet]
  | cons e m ih =>
    obtain ⟨k, v⟩ := e
    simp only [smWf, Bool.and_eq_true] at h
    obtain ⟨⟨hv, ha⟩, hm⟩ := h
    simp only [smPut]
    split
    · rename_i hik
      split
      · rename_i hx
        by_cases hj : j = i
        · subst hj
          simp only [smGet, if_pos]
          rw [if_neg (by omega), hx, smGet_above m j k ha (by omega)]
        · simp [hj]
      · simp [smGet]
    · split
      · rename_i hik
        subst hik
        split
        · rename_i hx
          by_cases hj : j = i
          · subst hj; simp [hx, smGet_above m j j ha (Nat.le_refl _)]
          · simp [smGet, hj]
        · by_cases hj : j = i <;> simp [smGet, hj]
      · rename_i hik
        by_cases hj : j = k
        · subst hj; simp only [smGet, if_pos]; rw [if_neg (by omega)]
        · simp only [smGet, if_neg hj]; exact ih hm

theorem smGet_smPut_self (m : SMap w) (i : Nat) (x : BitVec w) (h : smWf m = true) : smGet (smPut m i x) i = x := by
  simp [smGet_smPut m i i x h]

/-- Another index reads as before, in canonical form or not. -/
theorem smGet_smPut_ne (m : SMap w) (i j : Nat) (x : BitVec w) (h : smWf m = true) (hj : j ≠ i) :
    smGet (smPut m i x) j = smGet m j := by
  simp [smGet_smPut m i j x h, hj]

theorem smPutList_wf (m : SMap w) (i : Nat) (xs : List (BitVec w)) (h : smWf m = true) :
    smWf (smPutList m i xs) = true := by
  induction xs generalizing m i with
  | nil => exact h
  | cons x xs ih => exact ih _ _ (smPut_wf m i x h)

theorem smPutAll_wf (m : SMap w) (ps : List (Nat × BitVec w)) (h : smWf m = true) : smWf (smPutAll m ps) = true := by
  unfold smPutAll
  induction ps generalizing m with
  | nil => exact h
  | cons p ps ih => exact ih _ (smPut_wf m p.1 p.2 h)

theorem filter_above (m : SMap w) (p : Nat × BitVec w → Bool) (k : Nat) (h : smAbove k m = true) :
    smAbove k (m.filter p) = true := by
  simp only [smAbove, List.all_eq_true, decide_eq_true_eq] at h ⊢
  exact fun e he => h e (List.mem_of_mem_filter he)

theorem filter_wf (m : SMap w) (p : Nat × BitVec w → Bool) (h : smWf m = true) : smWf (m.filter p) = true := by
  induction m with
  | nil => rfl
  | cons e m ih =>
    obtain ⟨k, v⟩ := e
    simp only [smWf, Bool.and_eq_true] at h
    simp only [List.filter_cons]
    split
    · simp only [smWf, Bool.and_eq_true]
      exact ⟨⟨h.1.1, filter_above m p k h.1.2⟩, ih h.2⟩
    · exact ih h.2

theorem smClear_wf (m : SMap w) (i n : Nat) (h : smWf m = true) : smWf (smClear m i n) = true := filter_wf m _ h

end Sys2Proof.Laws
end

