-- ==== Sys2Proof/Laws/State.lean ====
section
/-! SUPPORT. One lemma per field and update of `State`, each true by rfl: a later proof unfolds no record update. -/

namespace Sys2Proof.Machine
open Sys2Proof

/-! ### State.onCoreAt -/

@[simp] theorem State.onCoreAt_cores (s : State) (n : Nat) (f : Core → Core) : (s.onCoreAt n f).cores = modAt s.cores n f := rfl
@[simp] theorem State.onCoreAt_geodes (s : State) (n : Nat) (f : Core → Core) : (s.onCoreAt n f).geodes = s.geodes := rfl
@[simp] theorem State.onCoreAt_quads (s : State) (n : Nat) (f : Core → Core) : (s.onCoreAt n f).quads = s.quads := rfl
@[simp] theorem State.onCoreAt_poss (s : State) (n : Nat) (f : Core → Core) : (s.onCoreAt n f).poss = s.poss := rfl
@[simp] theorem State.onCoreAt_hub (s : State) (n : Nat) (f : Core → Core) : (s.onCoreAt n f).hub = s.hub := rfl
@[simp] theorem State.onCoreAt_fns (s : State) (n : Nat) (f : Core → Core) : (s.onCoreAt n f).fns = s.fns := rfl
@[simp] theorem State.onCoreAt_aon (s : State) (n : Nat) (f : Core → Core) : (s.onCoreAt n f).aon = s.aon := rfl
@[simp] theorem State.onCoreAt_link (s : State) (n : Nat) (f : Core → Core) : (s.onCoreAt n f).link = s.link := rfl
@[simp] theorem State.onCoreAt_mon (s : State) (n : Nat) (f : Core → Core) : (s.onCoreAt n f).mon = s.mon := rfl
@[simp] theorem State.onCoreAt_jtag (s : State) (n : Nat) (f : Core → Core) : (s.onCoreAt n f).jtag = s.jtag := rfl
@[simp] theorem State.onCoreAt_out (s : State) (n : Nat) (f : Core → Core) : (s.onCoreAt n f).out = s.out := rfl
@[simp] theorem State.onCoreAt_free (s : State) (n : Nat) (f : Core → Core) : (s.onCoreAt n f).free = s.free := rfl
@[simp] theorem State.onCoreAt_pending (s : State) (n : Nat) (f : Core → Core) : (s.onCoreAt n f).pending = s.pending := rfl

/-! ### State.onCore -/

@[simp] theorem State.onCore_cores (s : State) (r : CoreRef) (f : Core → Core) : (s.onCore r f).cores = modAt s.cores (coreIdx r) f := rfl
@[simp] theorem State.onCore_geodes (s : State) (r : CoreRef) (f : Core → Core) : (s.onCore r f).geodes = s.geodes := rfl
@[simp] theorem State.onCore_quads (s : State) (r : CoreRef) (f : Core → Core) : (s.onCore r f).quads = s.quads := rfl
@[simp] theorem State.onCore_poss (s : State) (r : CoreRef) (f : Core → Core) : (s.onCore r f).poss = s.poss := rfl
@[simp] theorem State.onCore_hub (s : State) (r : CoreRef) (f : Core → Core) : (s.onCore r f).hub = s.hub := rfl
@[simp] theorem State.onCore_fns (s : State) (r : CoreRef) (f : Core → Core) : (s.onCore r f).fns = s.fns := rfl
@[simp] theorem State.onCore_aon (s : State) (r : CoreRef) (f : Core → Core) : (s.onCore r f).aon = s.aon := rfl
@[simp] theorem State.onCore_link (s : State) (r : CoreRef) (f : Core → Core) : (s.onCore r f).link = s.link := rfl
@[simp] theorem State.onCore_mon (s : State) (r : CoreRef) (f : Core → Core) : (s.onCore r f).mon = s.mon := rfl
@[simp] theorem State.onCore_jtag (s : State) (r : CoreRef) (f : Core → Core) : (s.onCore r f).jtag = s.jtag := rfl
@[simp] theorem State.onCore_out (s : State) (r : CoreRef) (f : Core → Core) : (s.onCore r f).out = s.out := rfl
@[simp] theorem State.onCore_free (s : State) (r : CoreRef) (f : Core → Core) : (s.onCore r f).free = s.free := rfl
@[simp] theorem State.onCore_pending (s : State) (r : CoreRef) (f : Core → Core) : (s.onCore r f).pending = s.pending := rfl

/-! ### State.onGeode -/

@[simp] theorem State.onGeode_cores (s : State) (g : Nat) (f : Geode → Geode) : (s.onGeode g f).cores = s.cores := rfl
@[simp] theorem State.onGeode_geodes (s : State) (g : Nat) (f : Geode → Geode) : (s.onGeode g f).geodes = modAt s.geodes g f := rfl
@[simp] theorem State.onGeode_quads (s : State) (g : Nat) (f : Geode → Geode) : (s.onGeode g f).quads = s.quads := rfl
@[simp] theorem State.onGeode_poss (s : State) (g : Nat) (f : Geode → Geode) : (s.onGeode g f).poss = s.poss := rfl
@[simp] theorem State.onGeode_hub (s : State) (g : Nat) (f : Geode → Geode) : (s.onGeode g f).hub = s.hub := rfl
@[simp] theorem State.onGeode_fns (s : State) (g : Nat) (f : Geode → Geode) : (s.onGeode g f).fns = s.fns := rfl
@[simp] theorem State.onGeode_aon (s : State) (g : Nat) (f : Geode → Geode) : (s.onGeode g f).aon = s.aon := rfl
@[simp] theorem State.onGeode_link (s : State) (g : Nat) (f : Geode → Geode) : (s.onGeode g f).link = s.link := rfl
@[simp] theorem State.onGeode_mon (s : State) (g : Nat) (f : Geode → Geode) : (s.onGeode g f).mon = s.mon := rfl
@[simp] theorem State.onGeode_jtag (s : State) (g : Nat) (f : Geode → Geode) : (s.onGeode g f).jtag = s.jtag := rfl
@[simp] theorem State.onGeode_out (s : State) (g : Nat) (f : Geode → Geode) : (s.onGeode g f).out = s.out := rfl
@[simp] theorem State.onGeode_free (s : State) (g : Nat) (f : Geode → Geode) : (s.onGeode g f).free = s.free := rfl
@[simp] theorem State.onGeode_pending (s : State) (g : Nat) (f : Geode → Geode) : (s.onGeode g f).pending = s.pending := rfl

/-! ### State.onPos -/

@[simp] theorem State.onPos_cores (s : State) (p : Nat) (f : Pos → Pos) : (s.onPos p f).cores = s.cores := rfl
@[simp] theorem State.onPos_geodes (s : State) (p : Nat) (f : Pos → Pos) : (s.onPos p f).geodes = s.geodes := rfl
@[simp] theorem State.onPos_quads (s : State) (p : Nat) (f : Pos → Pos) : (s.onPos p f).quads = s.quads := rfl
@[simp] theorem State.onPos_poss (s : State) (p : Nat) (f : Pos → Pos) : (s.onPos p f).poss = modAt s.poss p f := rfl
@[simp] theorem State.onPos_hub (s : State) (p : Nat) (f : Pos → Pos) : (s.onPos p f).hub = s.hub := rfl
@[simp] theorem State.onPos_fns (s : State) (p : Nat) (f : Pos → Pos) : (s.onPos p f).fns = s.fns := rfl
@[simp] theorem State.onPos_aon (s : State) (p : Nat) (f : Pos → Pos) : (s.onPos p f).aon = s.aon := rfl
@[simp] theorem State.onPos_link (s : State) (p : Nat) (f : Pos → Pos) : (s.onPos p f).link = s.link := rfl
@[simp] theorem State.onPos_mon (s : State) (p : Nat) (f : Pos → Pos) : (s.onPos p f).mon = s.mon := rfl
@[simp] theorem State.onPos_jtag (s : State) (p : Nat) (f : Pos → Pos) : (s.onPos p f).jtag = s.jtag := rfl
@[simp] theorem State.onPos_out (s : State) (p : Nat) (f : Pos → Pos) : (s.onPos p f).out = s.out := rfl
@[simp] theorem State.onPos_free (s : State) (p : Nat) (f : Pos → Pos) : (s.onPos p f).free = s.free := rfl
@[simp] theorem State.onPos_pending (s : State) (p : Nat) (f : Pos → Pos) : (s.onPos p f).pending = s.pending := rfl

/-! ### State.onQuad -/

@[simp] theorem State.onQuad_cores (s : State) (q : Nat) (f : Quad → Quad) : (s.onQuad q f).cores = s.cores := rfl
@[simp] theorem State.onQuad_geodes (s : State) (q : Nat) (f : Quad → Quad) : (s.onQuad q f).geodes = s.geodes := rfl
@[simp] theorem State.onQuad_quads (s : State) (q : Nat) (f : Quad → Quad) : (s.onQuad q f).quads = modAt s.quads q f := rfl
@[simp] theorem State.onQuad_poss (s : State) (q : Nat) (f : Quad → Quad) : (s.onQuad q f).poss = s.poss := rfl
@[simp] theorem State.onQuad_hub (s : State) (q : Nat) (f : Quad → Quad) : (s.onQuad q f).hub = s.hub := rfl
@[simp] theorem State.onQuad_fns (s : State) (q : Nat) (f : Quad → Quad) : (s.onQuad q f).fns = s.fns := rfl
@[simp] theorem State.onQuad_aon (s : State) (q : Nat) (f : Quad → Quad) : (s.onQuad q f).aon = s.aon := rfl
@[simp] theorem State.onQuad_link (s : State) (q : Nat) (f : Quad → Quad) : (s.onQuad q f).link = s.link := rfl
@[simp] theorem State.onQuad_mon (s : State) (q : Nat) (f : Quad → Quad) : (s.onQuad q f).mon = s.mon := rfl
@[simp] theorem State.onQuad_jtag (s : State) (q : Nat) (f : Quad → Quad) : (s.onQuad q f).jtag = s.jtag := rfl
@[simp] theorem State.onQuad_out (s : State) (q : Nat) (f : Quad → Quad) : (s.onQuad q f).out = s.out := rfl
@[simp] theorem State.onQuad_free (s : State) (q : Nat) (f : Quad → Quad) : (s.onQuad q f).free = s.free := rfl
@[simp] theorem State.onQuad_pending (s : State) (q : Nat) (f : Quad → Quad) : (s.onQuad q f).pending = s.pending := rfl

/-! ### State.onFn -/

@[simp] theorem State.onFn_cores (s : State) (n : Nat) (f : Fn → Fn) : (s.onFn n f).cores = s.cores := rfl
@[simp] theorem State.onFn_geodes (s : State) (n : Nat) (f : Fn → Fn) : (s.onFn n f).geodes = s.geodes := rfl
@[simp] theorem State.onFn_quads (s : State) (n : Nat) (f : Fn → Fn) : (s.onFn n f).quads = s.quads := rfl
@[simp] theorem State.onFn_poss (s : State) (n : Nat) (f : Fn → Fn) : (s.onFn n f).poss = s.poss := rfl
@[simp] theorem State.onFn_hub (s : State) (n : Nat) (f : Fn → Fn) : (s.onFn n f).hub = s.hub := rfl
@[simp] theorem State.onFn_fns (s : State) (n : Nat) (f : Fn → Fn) : (s.onFn n f).fns = modAt s.fns n f := rfl
@[simp] theorem State.onFn_aon (s : State) (n : Nat) (f : Fn → Fn) : (s.onFn n f).aon = s.aon := rfl
@[simp] theorem State.onFn_link (s : State) (n : Nat) (f : Fn → Fn) : (s.onFn n f).link = s.link := rfl
@[simp] theorem State.onFn_mon (s : State) (n : Nat) (f : Fn → Fn) : (s.onFn n f).mon = s.mon := rfl
@[simp] theorem State.onFn_jtag (s : State) (n : Nat) (f : Fn → Fn) : (s.onFn n f).jtag = s.jtag := rfl
@[simp] theorem State.onFn_out (s : State) (n : Nat) (f : Fn → Fn) : (s.onFn n f).out = s.out := rfl
@[simp] theorem State.onFn_free (s : State) (n : Nat) (f : Fn → Fn) : (s.onFn n f).free = s.free := rfl
@[simp] theorem State.onFn_pending (s : State) (n : Nat) (f : Fn → Fn) : (s.onFn n f).pending = s.pending := rfl

/-! ### State.onHub -/

@[simp] theorem State.onHub_cores (s : State) (f : Hub → Hub) : (s.onHub f).cores = s.cores := rfl
@[simp] theorem State.onHub_geodes (s : State) (f : Hub → Hub) : (s.onHub f).geodes = s.geodes := rfl
@[simp] theorem State.onHub_quads (s : State) (f : Hub → Hub) : (s.onHub f).quads = s.quads := rfl
@[simp] theorem State.onHub_poss (s : State) (f : Hub → Hub) : (s.onHub f).poss = s.poss := rfl
@[simp] theorem State.onHub_hub (s : State) (f : Hub → Hub) : (s.onHub f).hub = f s.hub := rfl
@[simp] theorem State.onHub_fns (s : State) (f : Hub → Hub) : (s.onHub f).fns = s.fns := rfl
@[simp] theorem State.onHub_aon (s : State) (f : Hub → Hub) : (s.onHub f).aon = s.aon := rfl
@[simp] theorem State.onHub_link (s : State) (f : Hub → Hub) : (s.onHub f).link = s.link := rfl
@[simp] theorem State.onHub_mon (s : State) (f : Hub → Hub) : (s.onHub f).mon = s.mon := rfl
@[simp] theorem State.onHub_jtag (s : State) (f : Hub → Hub) : (s.onHub f).jtag = s.jtag := rfl
@[simp] theorem State.onHub_out (s : State) (f : Hub → Hub) : (s.onHub f).out = s.out := rfl
@[simp] theorem State.onHub_free (s : State) (f : Hub → Hub) : (s.onHub f).free = s.free := rfl
@[simp] theorem State.onHub_pending (s : State) (f : Hub → Hub) : (s.onHub f).pending = s.pending := rfl

/-! ### State.onAon -/

@[simp] theorem State.onAon_cores (s : State) (f : Aon → Aon) : (s.onAon f).cores = s.cores := rfl
@[simp] theorem State.onAon_geodes (s : State) (f : Aon → Aon) : (s.onAon f).geodes = s.geodes := rfl
@[simp] theorem State.onAon_quads (s : State) (f : Aon → Aon) : (s.onAon f).quads = s.quads := rfl
@[simp] theorem State.onAon_poss (s : State) (f : Aon → Aon) : (s.onAon f).poss = s.poss := rfl
@[simp] theorem State.onAon_hub (s : State) (f : Aon → Aon) : (s.onAon f).hub = s.hub := rfl
@[simp] theorem State.onAon_fns (s : State) (f : Aon → Aon) : (s.onAon f).fns = s.fns := rfl
@[simp] theorem State.onAon_aon (s : State) (f : Aon → Aon) : (s.onAon f).aon = f s.aon := rfl
@[simp] theorem State.onAon_link (s : State) (f : Aon → Aon) : (s.onAon f).link = s.link := rfl
@[simp] theorem State.onAon_mon (s : State) (f : Aon → Aon) : (s.onAon f).mon = s.mon := rfl
@[simp] theorem State.onAon_jtag (s : State) (f : Aon → Aon) : (s.onAon f).jtag = s.jtag := rfl
@[simp] theorem State.onAon_out (s : State) (f : Aon → Aon) : (s.onAon f).out = s.out := rfl
@[simp] theorem State.onAon_free (s : State) (f : Aon → Aon) : (s.onAon f).free = s.free := rfl
@[simp] theorem State.onAon_pending (s : State) (f : Aon → Aon) : (s.onAon f).pending = s.pending := rfl

/-! ### State.onLink -/

@[simp] theorem State.onLink_cores (s : State) (f : Link → Link) : (s.onLink f).cores = s.cores := rfl
@[simp] theorem State.onLink_geodes (s : State) (f : Link → Link) : (s.onLink f).geodes = s.geodes := rfl
@[simp] theorem State.onLink_quads (s : State) (f : Link → Link) : (s.onLink f).quads = s.quads := rfl
@[simp] theorem State.onLink_poss (s : State) (f : Link → Link) : (s.onLink f).poss = s.poss := rfl
@[simp] theorem State.onLink_hub (s : State) (f : Link → Link) : (s.onLink f).hub = s.hub := rfl
@[simp] theorem State.onLink_fns (s : State) (f : Link → Link) : (s.onLink f).fns = s.fns := rfl
@[simp] theorem State.onLink_aon (s : State) (f : Link → Link) : (s.onLink f).aon = s.aon := rfl
@[simp] theorem State.onLink_link (s : State) (f : Link → Link) : (s.onLink f).link = f s.link := rfl
@[simp] theorem State.onLink_mon (s : State) (f : Link → Link) : (s.onLink f).mon = s.mon := rfl
@[simp] theorem State.onLink_jtag (s : State) (f : Link → Link) : (s.onLink f).jtag = s.jtag := rfl
@[simp] theorem State.onLink_out (s : State) (f : Link → Link) : (s.onLink f).out = s.out := rfl
@[simp] theorem State.onLink_free (s : State) (f : Link → Link) : (s.onLink f).free = s.free := rfl
@[simp] theorem State.onLink_pending (s : State) (f : Link → Link) : (s.onLink f).pending = s.pending := rfl

/-! ### State.onMon -/

@[simp] theorem State.onMon_cores (s : State) (f : Mon → Mon) : (s.onMon f).cores = s.cores := rfl
@[simp] theorem State.onMon_geodes (s : State) (f : Mon → Mon) : (s.onMon f).geodes = s.geodes := rfl
@[simp] theorem State.onMon_quads (s : State) (f : Mon → Mon) : (s.onMon f).quads = s.quads := rfl
@[simp] theorem State.onMon_poss (s : State) (f : Mon → Mon) : (s.onMon f).poss = s.poss := rfl
@[simp] theorem State.onMon_hub (s : State) (f : Mon → Mon) : (s.onMon f).hub = s.hub := rfl
@[simp] theorem State.onMon_fns (s : State) (f : Mon → Mon) : (s.onMon f).fns = s.fns := rfl
@[simp] theorem State.onMon_aon (s : State) (f : Mon → Mon) : (s.onMon f).aon = s.aon := rfl
@[simp] theorem State.onMon_link (s : State) (f : Mon → Mon) : (s.onMon f).link = s.link := rfl
@[simp] theorem State.onMon_mon (s : State) (f : Mon → Mon) : (s.onMon f).mon = f s.mon := rfl
@[simp] theorem State.onMon_jtag (s : State) (f : Mon → Mon) : (s.onMon f).jtag = s.jtag := rfl
@[simp] theorem State.onMon_out (s : State) (f : Mon → Mon) : (s.onMon f).out = s.out := rfl
@[simp] theorem State.onMon_free (s : State) (f : Mon → Mon) : (s.onMon f).free = s.free := rfl
@[simp] theorem State.onMon_pending (s : State) (f : Mon → Mon) : (s.onMon f).pending = s.pending := rfl

/-! ### State.emit -/

@[simp] theorem State.emit_cores (s : State) (o : Out) : (s.emit o).cores = s.cores := rfl
@[simp] theorem State.emit_geodes (s : State) (o : Out) : (s.emit o).geodes = s.geodes := rfl
@[simp] theorem State.emit_quads (s : State) (o : Out) : (s.emit o).quads = s.quads := rfl
@[simp] theorem State.emit_poss (s : State) (o : Out) : (s.emit o).poss = s.poss := rfl
@[simp] theorem State.emit_hub (s : State) (o : Out) : (s.emit o).hub = s.hub := rfl
@[simp] theorem State.emit_fns (s : State) (o : Out) : (s.emit o).fns = s.fns := rfl
@[simp] theorem State.emit_aon (s : State) (o : Out) : (s.emit o).aon = s.aon := rfl
@[simp] theorem State.emit_link (s : State) (o : Out) : (s.emit o).link = s.link := rfl
@[simp] theorem State.emit_mon (s : State) (o : Out) : (s.emit o).mon = s.mon := rfl
@[simp] theorem State.emit_jtag (s : State) (o : Out) : (s.emit o).jtag = s.jtag := rfl
@[simp] theorem State.emit_out (s : State) (o : Out) : (s.emit o).out = o :: s.out := rfl
@[simp] theorem State.emit_free (s : State) (o : Out) : (s.emit o).free = s.free := rfl
@[simp] theorem State.emit_pending (s : State) (o : Out) : (s.emit o).pending = s.pending := rfl

/-! ### The next free value -/

@[simp] theorem State.fresh_cores (s : State) : s.fresh.2.cores = s.cores := rfl
@[simp] theorem State.fresh_geodes (s : State) : s.fresh.2.geodes = s.geodes := rfl
@[simp] theorem State.fresh_quads (s : State) : s.fresh.2.quads = s.quads := rfl
@[simp] theorem State.fresh_poss (s : State) : s.fresh.2.poss = s.poss := rfl
@[simp] theorem State.fresh_hub (s : State) : s.fresh.2.hub = s.hub := rfl
@[simp] theorem State.fresh_fns (s : State) : s.fresh.2.fns = s.fns := rfl
@[simp] theorem State.fresh_aon (s : State) : s.fresh.2.aon = s.aon := rfl
@[simp] theorem State.fresh_link (s : State) : s.fresh.2.link = s.link := rfl
@[simp] theorem State.fresh_mon (s : State) : s.fresh.2.mon = s.mon := rfl
@[simp] theorem State.fresh_jtag (s : State) : s.fresh.2.jtag = s.jtag := rfl
@[simp] theorem State.fresh_out (s : State) : s.fresh.2.out = s.out := rfl
@[simp] theorem State.fresh_free (s : State) : s.fresh.2.free = s.free + 1 := rfl
@[simp] theorem State.fresh_pending (s : State) : s.fresh.2.pending = s.pending := rfl
@[simp] theorem State.fresh_value (s : State) : s.fresh.1 = Config.freeValue s.free := rfl

end Sys2Proof.Machine
end

