-- ==== Sys2Proof/Laws/Issue.lean ====
section
/-! SUPPORT. What the issue of one operation does on a core that stands ready (`Quiet`): said once for the shared
operation `issueOp`, so that a claim about an operation needs its answer alone. -/

namespace Sys2Proof.Laws
open Sys2Proof Sys2Proof.Machine

/-! ### Changes of one thread -/

@[simp] theorem onThread_onThread (c : Core) (k : Nat) (f g : Thread → Thread) :
    onThread (onThread c k f) k g = onThread c k (fun t => g (f t)) := by
  simp [onThread]

theorem onThread_same (c : Core) (k : Nat) (f : Thread → Thread) (h : ∀ t, c.threads[k]? = some t → f t = t) :
    onThread c k f = c := by
  simp [onThread, modAt_same _ _ _ h]

theorem onThread_congr (c : Core) (k : Nat) (f g : Thread → Thread) (h : ∀ t, c.threads[k]? = some t → f t = g t) :
    onThread c k f = onThread c k g := by
  simp [onThread, modAt_congr _ _ _ _ h]

/-! ### Landings that are not due -/

/-- Nothing lands where nothing is due. -/
theorem landUpTo_none (c : Core) (k n : Nat) (t : Thread) (ht : c.threads[k]? = some t)
    (h : ∀ p ∈ t.flight, n < p.due) : landUpTo c k n = c := by
  have hlim : landLimit c t n ≤ n := by
    unfold landLimit
    generalize t.flight.filter _ = l
    have : ∀ m, l.foldl (fun m p => Nat.min m p.due) m ≤ m := by
      induction l with
      | nil => intro m; exact Nat.le_refl _
      | cons p l ih => intro m; exact Nat.le_trans (ih _) (Nat.min_le_left _ _)
    exact this n
  have hf : ∀ p ∈ t.flight, (decide (p.due ≤ landLimit c t n) && p.w.ready c t) = false := by
    intro p hp
    have h1 : ¬ p.due ≤ landLimit c t n := by have := h p hp; omega
    simp [h1]
  have h1 : t.flight.filter (fun p => decide (p.due ≤ landLimit c t n) && p.w.ready c t) = [] := by
    rw [List.filter_eq_nil_iff]; intro p hp; simp [hf p hp]
  unfold landUpTo
  simp only [ht]
  rw [h1]
  simp only [sortPend, List.foldl_nil, landAll, List.splitBy]
  unfold setLevel
  rw [modAt_same]
  intro u hu
  rw [ht] at hu
  cases hu
  have h2 : t.flight.filter (fun p => !(decide (p.due ≤ landLimit c t n) && p.w.ready c t)) = t.flight := by
    rw [List.filter_eq_self]; intro p hp; simp [hf p hp]
  simp only [h2]

theorem loadMissing_none (c : Core) (t : Thread) (n : Nat) (h : ∀ p ∈ t.flight, n < p.due) :
    loadMissing c t n = false := by
  unfold loadMissing
  rw [List.any_eq_false]
  intro p hp
  have : ¬ p.due ≤ n := by have := h p hp; omega
  simp [this]

/-! ### One operation alone in its bundle -/

theorem slotUse_one (o : OpOut) (k : SlotK) : slotUse [o] k ≤ 1 := by
  unfold slotUse
  exact Nat.le_trans (List.length_filter_le _ _) (by simp)

theorem statClash_one (o : OpOut) : statClash [o] = false := by
  unfold statClash
  simp only [List.any_cons, List.any_nil, Bool.or_false]
  cases o.writes.contains (.sys 0) <;> simp

theorem filter_one_le {α : Type} (x : α) (p : α → Bool) : ([x].filter p).length ≤ 1 :=
  Nat.le_trans (List.length_filter_le _ _) (by simp)

/-- A single operation's bundle is badly composed only where it is a REP that is not one syllable, or lies outside
instruction memory, or is confined. -/
theorem badBundle_one (t : Thread) (pc : IAddr) (size : Nat) (o : OpOut) (hp : t.past = false)
    (hr : pc.toNat + size ≤ 0x4000) (hd : t.dslot = none) (hrep : t.rep = none) (h0 : t.loop0.act = false)
    (h1 : t.loop1.act = false) (hs : o.isRep = true → size = 1) : badBundle t pc size true [o] = false := by
  have hx : ∀ k, decide (1 < slotUse [o] k) = false := fun k => by have := slotUse_one o k; simp; omega
  have hy : ∀ k, decide (2 < slotUse [o] k) = false := fun k => by have := slotUse_one o k; simp; omega
  have hz : ∀ p : OpOut → Bool, decide (1 < ([o].filter p).length) = false := fun p => by
    have := filter_one_le o p; simp only [decide_eq_false_iff_not]; omega
  have hc : writeClash [o] = false := by simp [writeClash]
  have hq : (o.isRep && (decide (1 < [o].length) || size != 1)) = false := by
    by_cases h : o.isRep
    · simp [h, hs h]
    · simp [h]
  have hroom : ¬ (0x4000 < pc.toNat + size) := by omega
  unfold badBundle
  simp only [hx, hy, hz, hc, statClash_one, hp, hd, hrep, isTail, LoopLvl.hit, h0, h1, Option.isSome_none, Bool.false_and,
    Bool.or_false, Bool.not_true, decide_eq_false hroom, List.any_cons, List.any_nil, hq]

theorem roomStall_none (o : Outside) (c : Core) (k : Nat) (as : List Act) (hw : o.waiting = 0) (hs : c.sb = [])
    (hl : c.lateReqs = []) : roomStall o c k as = none := by
  unfold roomStall
  simp only [hw, hs, hl, List.length_nil, List.any_nil, Bool.false_eq_true, false_or]
  split
  · rename_i h; omega
  · split
    · rename_i h; omega
    · rfl

/-- Without errors in the memories and tables nothing is corrected. -/
theorem eccClean_none (c : Core) (pc size : Nat) (touch : List (EccMem × Nat)) (hi : c.imem.corr = [])
    (hx : c.x.corr = []) (hy : c.y.corr = []) (ht : c.tblE = {} ∧ c.udtE = {}) (he : c.eccCorr < 2 ^ 16) :
    eccClean c pc size touch = c := by
  have h1 : (List.range size).filter (fun k => c.imem.corr.contains (pc + k)) = [] := by simp [hi]
  have h2 : touch.filter (fun p => (c.marks p.1).corr.contains p.2) = [] := by
    rw [List.filter_eq_nil_iff]
    intro p _
    cases h : p.1 <;> simp [Core.marks, hx, hy, ht.1, ht.2]
  unfold eccClean
  simp only [h1, h2, List.foldl_nil, List.length_nil, Nat.add_zero, ctrAdd]
  have : c.eccCorr.min (2 ^ 16 - 1) = c.eccCorr := Nat.min_eq_left (by omega)
  rw [this]

theorem eccBad_none (c : Core) (pc size : Nat) (touch : List (EccMem × Nat)) (hi : c.imem.unc = [])
    (hx : c.x.unc = []) (hy : c.y.unc = []) (ht : c.tblE = {} ∧ c.udtE = {}) : eccBad c pc size touch = none := by
  have h1 : (List.range size).find? (fun k => c.imem.unc.contains (pc + k)) = none := by simp [hi]
  have h2 : touch.find? (fun p => (c.marks p.1).unc.contains p.2) = none := by
    rw [List.find?_eq_none]
    intro p _
    cases h : p.1 <;> simp [Core.marks, hx, hy, ht.1, ht.2]
  unfold eccBad
  simp only [h1, h2, Option.map_none]

/-- What a bundle sends leaves the core at once where it is no more than eight requests and four entries. -/
theorem keepLate_same (k : Nat) (r : Issued) (hs : r.core.sb.length ≤ 4) (hr : r.reqs.length + r.greqs.length ≤ 8) :
    keepLate k r = r := by
  have h4 : ¬ 4 < r.core.sb.length := by omega
  simp [keepLate, h4, hr]

@[simp] theorem spend_threads (c : Core) (n : Nat) : (c.spend n).threads = c.threads := rfl
theorem spend_onThread (c : Core) (k n : Nat) (f : Thread → Thread) :
    (onThread c k f).spend n = onThread (c.spend n) k f := rfl

/-- The claim of the F state costs nothing where the level has it. -/
theorem claimF_ready (c : Core) (k : Nat) (t : Thread) (ht : c.threads[k]? = some t) (h : FReady c k t) :
    claimF c k = some c := by
  unfold claimF
  cases hk : c.kind with
  | signal =>
    obtain ⟨h1, h2, h3⟩ := h hk
    simp [ht, h1, fOwned, h2, h3]
  | supervisor => rfl
  | hub => rfl

/-- A whole bundle of one operation issues where nothing holds it: `d` is its core, `t` its thread. -/
theorem issueBundle_one (o : Outside) (d : Core) (k : Nat) (t : Thread) (i : Site) (op : Instr) (f : IssueCtx → OpOut)
    (x : IssueCtx) (hx : x = { c := d, tid := k, t := t, pc := t.pc, size := i.syl.toNat + 1 })
    (hasm : d.asm = [op]) (hm : opMeaning op = some (i, f)) (hl : i.fin = .last) (hrsv : i.rsv = false)
    (hform : i.short = true → shortForm op = true) (hb : breakHere d t.pc = false) (ht : d.threads[k]? = some t)
    (hdue : ∀ p ∈ t.flight, t.adv < p.due) (hd1 : d.divu = none) (hd2 : d.fdivu = none) (hsl : t.dslot = none)
    (hbad : badBundle t t.pc (i.syl.toNat + 1) true [f x] = false) (hexc : (f x).excs = [])
    (hvec : (f x).vec = true → d.vpow = true) (hfu : (f x).fuse = true → FReady d k t)
    (hw : o.waiting = 0) (hsb : d.sb = []) (hlt : d.lateReqs = []) (htb : d.tblE = {} ∧ d.udtE = {}) (hi : d.imem.corr = [] ∧ d.imem.unc = [])
    (hxm : d.x.corr = [] ∧ d.x.unc = []) (hym : d.y.corr = [] ∧ d.y.unc = []) (he : d.eccCorr < 2 ^ 16) :
    issueBundle o d k t = commit o d k t (i.syl.toNat + 1) [f x] := by
  have hland : landUpTo d k t.adv = d := landUpTo_none _ _ _ _ ht hdue
  have hout : opOut x op = f x := by
    have hunit : withUnit op (f x) = f x := by simp [withUnit, hexc]
    have hlegal : (i.rsv || (i.short && !shortForm op)) = false := by
      by_cases hs : i.short = true
      · simp [hrsv, hs, hform hs]
      · simp [hrsv, hs]
    simp only [opOut, hm, hlegal, Bool.false_eq_true, if_false, hunit]
  have hsize : asmSize d = i.syl.toNat + 1 := by simp [asmSize, hasm, hm]
  have hended : bundleEnded d = true := by
    simp only [bundleEnded, hasm, List.getLast?_singleton, Option.bind_some, hm, Option.map_some, hl]
    rfl
  have houts : bundleOuts d d k t t.pc = [f x] := by
    simp only [bundleOuts, hasm, hsize, ← hx, List.map_cons, List.map_nil, hout]
  have hnone : bundleExc d t t.pc [f x] = none := by
    simp [bundleExc, hsize, hended, hbad, hexc, firstExc]
  have hget : d.threads.getD k t = t := by simp [List.getD, ht]
  have hv : (([f x] : List OpOut).any (fun p => p.vec) && !d.vpow) = false := by
    by_cases h : (f x).vec = true
    · simp [hvec h]
    · simp [h]
  have hcl : (if ([f x] : List OpOut).any (fun p => p.fuse) = true then claimF d k else some d) = some d := by
    by_cases h : (f x).fuse = true
    · simp only [List.any_cons, h, List.any_nil, Bool.or_false, if_true]
      exact claimF_ready _ k t ht (hfu h)
    · simp [h]
  have hstall : bundleStall o d k [f x] = none := by
    simp only [bundleStall, hd1, hd2, interlocked, Bool.false_eq_true, if_false, hv,
      roomStall_none _ _ _ _ hw hsb hlt, Option.map_none]
  have hann : isAnnulled t = false := by simp [isAnnulled, hsl]
  unfold issueBundle
  simp only [hb, hland, hget, loadMissing_none d t t.adv hdue, hann, Bool.false_eq_true, if_false, houts, hnone,
    hstall, eccBad_none _ _ _ _ hi.2 hxm.2 hym.2 htb, hcl, eccClean_none _ _ _ _ hi.1 hxm.1 hym.1 htb he, hsize]

/-- The core that has taken the operation issues it: everything that could hold the bundle is ruled out. -/
theorem tryIssue_quiet {s : State} {i : Site} {op : Instr} {k : Nat} {c : Core} {t : Thread}
    {f : IssueCtx → OpOut} (h : Quiet s i op k c t) (hm : opMeaning op = some (i, f))
    (hexc : (f (viewOf i op k c t)).excs = [])
    (hvec : (f (viewOf i op k c t)).vec = true → c.vpow = true)
    (hf : (f (viewOf i op k c t)).fuse = true → FReady c k t)
    (hrep : (f (viewOf i op k c t)).isRep = true → i.syl = 0) :
    tryIssue (s.outside i.core) { c with asm := [op] } =
      commit (s.outside i.core) { c with asm := [op] } k t (i.syl.toNat + 1) [f (viewOf i op k c t)] := by
  have hbad : badBundle t t.pc (i.syl.toNat + 1) true [f (viewOf i op k c t)] = false :=
    badBundle_one t t.pc _ _ h.past (by have := h.room; omega) h.dslot h.rep h.loop0 h.loop1
      (fun hr => by simp [hrep hr])
  have hb := issueBundle_one (s.outside i.core) { c with asm := [op] } k t i op f (viewOf i op k c t) rfl rfl hm
    h.last h.bits h.form h.brk h.thread h.due h.divu h.fdivu h.dslot hbad hexc hvec hf h.waiting h.sb h.late
    h.tables h.imem h.xmem h.ymem h.ecc
  rw [← hb]
  unfold tryIssue
  simp only [h.run, h.thread, h.micro, List.isEmpty_cons, Bool.false_eq_true, if_false]

/-! ### The effects of a bundle that transfers no control -/

/-- The parts of a core that the effects of operations change beside the thread's results on their way. -/
def withParts (c : Core) (x y : EMem 14) (sb : List SbEntry) (n : Nat) (du fd : Option UnitPend) : Core :=
  { c with x := x, y := y, sb := sb, nextId := n, divu := du, fdivu := fd }

theorem flow_none (d : Core) (k : Nat) (t u : Thread) (a : IAddr) (size : Nat) (hs : t.dslot = none)
    (hu : d.threads[k]? = some u) (h1 : u.dslot = none) (h2 : u.rep = none) (h3 : u.loop0.act = false)
    (h4 : u.loop1.act = false) :
    flow d k t a size none = (onThread d k (fun w => goSeq w (a.toNat + size)), 0, 0) := by
  have ht : tailCommit u a = (u, none, 0) := by simp [tailCommit, loopsPass, LoopLvl.hit, h3, h4]
  have hf : flowOn u a (a.toNat + size) = (goSeq u (a.toNat + size), 0) := by simp [flowOn, h2, ht, h1, goOn]
  have hd : onThread d k (fun _ => goSeq u (a.toNat + size)) = onThread d k (fun w => goSeq w (a.toNat + size)) :=
    onThread_congr _ _ _ _ (fun w hw => by rw [hu] at hw; cases hw; rfl)
  have hsr : slotRedirect d k t = d := by simp only [slotRedirect, hs]
  unfold flow
  simp only [hsr, hu, hf, hd, Nat.add_zero]

theorem microRun_none (o : Outside) (k : Nat) (r : Issued) (u : Thread) (hu : r.core.threads[k]? = some u)
    (h : u.micro = none) : microRun o k 8 r = r := by
  simp [microRun, microOne, hu, h]

theorem afterBundle_stays (c : Core) (k : Nat) (u : Thread) (hu : c.threads[k]? = some u)
    (hr : readyLevel c k = true) (h1 : u.trapDue = none) (h2 : u.stopReq = false) : afterBundle c k = c := by
  simp only [afterBundle, hu, h1, h2, Option.isSome_none, Bool.or_false, hr]
  split <;> simp

theorem countStep_none (c : Core) (h : c.stepLeft = none) : countStep c = c := by simp [countStep, h]

/-- Whether a level is ready does not depend on what a plain bundle changes. -/
theorem readyLevel_plain (c d : Core) (k : Nat) (f : Thread → Thread) (hk : d.kind = c.kind)
    (ht : d.threads = modAt c.threads k f) (h0 : d.l0st = c.l0st) (h1 : d.l0w = c.l0w) (h2 : d.l1st = c.l1st)
    (h3 : d.l1w = c.l1w) (h4 : d.l2act = c.l2act) (h5 : d.l3act = c.l3act) (h6 : d.evpend = c.evpend)
    (h7 : d.evcfg = c.evcfg) (hs : ∀ t, (f t).tstate = t.tstate) (hh : ∀ t, (f t).held = t.held) :
    readyLevel d k = readyLevel c k := by
  have hl : lineFor d 2 = lineFor c 2 := by
    simp only [lineFor, linePending, lineOn, lineTarget, evCfg, hk, h6, h7]
  cases hc : c.kind <;>
    simp only [readyLevel, hk, hc, h0, h1, h2, h3, h4, h5, hl, ht, modAt_get_self] <;>
    cases c.threads[k]? <;> simp [hs, hh]

/-- A bundle of one operation whose effects write registers and the parts of `withParts` alone. -/
theorem commit_plain {s : State} {i : Site} {op : Instr} {k : Nat} {c : Core} {t : Thread} {f : IssueCtx → OpOut}
    (h : Quiet s i op k c t) (o : Outside) (ws : List (RegW × Nat)) (x y : EMem 14) (sb : List SbEntry) (n : Nat)
    (du fd : Option UnitPend) (reqs greqs : List MemReq) (pages : List PageReq)
    (hctl : ctlOf [f (viewOf i op k c t)] = none)
    (hmic : ∀ a ∈ (f (viewOf i op k c t)).acts, ∀ is, a ≠ .micros is)
    (hlat : ∀ w ∈ ws, 1 ≤ w.2) (hfar : farRows (f (viewOf i op k c t)).acts = 0 ∨ (f (viewOf i op k c t)).vec = false)
    (hroom : sb.length ≤ 4 ∧ reqs.length + greqs.length ≤ 8)
    (hr : ∀ d : Core, d.x = c.x → d.y = c.y → d.sb = c.sb → d.nextId = c.nextId → d.divu = c.divu →
      d.fdivu = c.fdivu → applyActs o k t.adv t.seq false { core := d } (f (viewOf i op k c t)).acts =
      { core := onThread (withParts d x y sb n du fd) k (fun u => { u with flight := u.flight ++ pends t ws })
        reqs := reqs, greqs := greqs, pages := pages }) :
    commit o { c with asm := [op] } k t (i.syl.toNat + 1) [f (viewOf i op k c t)] =
      { core := onThread (nextCore (withParts c x y sb n du fd)) k (nextThread (i.syl.toNat + 1) ws)
        reqs := reqs, greqs := greqs, pages := pages } := by
  have hcnt : ctrAdd 48 c.issued 1 = c.issued + 1 := Nat.min_eq_left (by have := h.issued; omega)
  have hdue : ∀ p ∈ t.flight ++ pends t ws, t.adv < p.due := by
    intro p hp
    rcases List.mem_append.1 hp with hp | hp
    · exact h.due p hp
    · simp only [pends, List.mem_map] at hp
      obtain ⟨w, hw, rfl⟩ := hp
      have := hlat w hw
      show t.adv < t.adv + w.2
      omega
  have hrows : bundleRows [f (viewOf i op k c t)] = 0 := by
    rcases hfar with h0 | h0
    · cases hv : (f (viewOf i op k c t)).vec <;> simp [bundleRows, hv, h0]
    · simp [bundleRows, h0]
  unfold commit
  simp only [List.flatMap_cons, List.flatMap_nil, List.append_nil, hctl, doCtl, hrows, countFar, if_true,
    Core.leaveRd]
  rw [List.findSome?_eq_none_iff.2 (fun a ha => by
    split
    · exact absurd rfl (hmic _ ha _)
    · rfl)]
  rw [hr]
  rotate_left
  · rfl
  · rfl
  · rfl
  · rfl
  · rfl
  · rfl
  simp only [Option.map_none]
  generalize hd : onThread (withParts (onThread
      ({ c with asm := [], stall := none, fresh := false, brkPass := false, issued := ctrAdd 48 c.issued 1 } : Core) k
      (fun u => ({ u with seq := u.seq + 1 } : Thread))) x y sb n du fd) k
      (fun u => ({ u with flight := u.flight ++ pends t ws } : Thread)) = d
  have hdt : d.threads = modAt c.threads k (fun u => { u with seq := u.seq + 1, flight := u.flight ++ pends t ws }) := by
    subst hd; simp [onThread, withParts]
  have hdk : d.threads[k]? = some { t with seq := t.seq + 1, flight := t.flight ++ pends t ws } := by
    rw [hdt]; simp [h.thread]
  rw [flow_none d k t _ t.pc _ h.dslot hdk h.dslot h.rep h.loop0 h.loop1]
  simp only [onThread_onThread, Nat.add_zero]
  generalize hg : (fun u : Thread =>
      ({ goSeq u (t.pc.toNat + (i.syl.toNat + 1)) with adv := t.adv + 1, micro := none } : Thread)) = g
  generalize he : Core.spend (onThread d k g) 1 = e
  have heq : e = onThread (nextCore (withParts c x y sb n du fd)) k (nextThread (i.syl.toNat + 1) ws) := by
    subst he; subst hd; subst hg
    simp only [spend_onThread, onThread, withParts, nextCore, Core.leaveRd, Core.spend, modAt_modAt, hcnt]
    congr 1
    apply modAt_congr
    intro u hu
    rw [h.thread] at hu
    cases hu
    simp [nextThread, goSeq, h.micro]
  have het : e.threads[k]? = some (nextThread (i.syl.toNat + 1) ws t) := by
    rw [heq]; simp [onThread, nextCore, Core.leaveRd, withParts, h.thread]
  have hready : readyLevel e k = true := by
    rw [heq, readyLevel_plain c _ k (nextThread (i.syl.toNat + 1) ws)] <;> first | exact h.ready | intros; rfl
  have hland : landUpTo e k t.adv = e := landUpTo_none _ _ _ _ het hdue
  have hmn : (nextThread (i.syl.toNat + 1) ws t).micro = none := h.micro
  simp only [hland]
  rw [microRun_none o k _ _ het hmn]
  rw [keepLate_same k _ (by subst heq; exact hroom.1) hroom.2]
  simp only
  rw [afterBundle_stays e k _ het hready h.trap h.stop, countStep_none e (by rw [heq]; exact h.steps), heq]

/-! ### What the device sees of it -/

theorem core_of {s : State} {r : CoreRef} {c : Core} (h : s.cores[coreIdx r]? = some c) : s.core r = c := by
  simp [State.core, State.coreAt, List.getD, h]

/-- No counter comes to its limit where none changes but `issued`, below its limit. -/
theorem counterFull_plain (c d : Core) (h : d.issued + 1 < 2 ^ 48) (h1 : d.flushed = c.flushed)
    (h2 : d.vwakes = c.vwakes) (h3 : d.offAcc = c.offAcc) (h4 : d.offStall = c.offStall) :
    counterFull c d = false := by
  have hn : atMax d.issued = false := by simp only [atMax, beq_eq_false_iff_ne, ne_eq]; omega
  simp [counterFull, hn, h1, h2, h3, h4]

/-- No context faults where the threads keep their states. -/
theorem newFault_plain (c d : Core) (k : Nat) (f : Thread → Thread) (h : d.threads = modAt c.threads k f)
    (hf : ∀ t, (f t).tstate = t.tstate) : newFault c d = none := by
  unfold newFault
  rw [List.find?_eq_none]
  intro j _
  rw [h, modAt_get]
  by_cases hj : k = j
  · subst hj
    cases hc : c.threads[k]? with
    | none => simp
    | some u => simp only [if_true, Option.map_some, hf]; simp
  · rw [if_neg hj]
    cases hc : c.threads[j]? with
    | none => simp
    | some u => simp

theorem takes_live {c : Core} (h : takes c = true) : c.stop = none ∧ c.live = true := by
  simp only [takes, Bool.and_eq_true] at h
  have hl := h.1.1.1
  simp only [Core.live, Bool.and_eq_true, Option.isNone_iff_eq_none] at hl
  exact ⟨hl.2, h.1.1.1⟩

/-- A core whose counters stay below their limits, that raises no attention, does not stop and faults no context,
raises nothing outside it. -/
theorem settle_plain (s : State) (r : CoreRef) (c d : Core) (h : s.core r = d) (hc : counterFull c d = false)
    (ha : d.attn = c.attn) (hs : d.stop = c.stop) (hl : c.stop = none) (hn : newFault c d = none) :
    s.settle r c = s := by
  subst h
  cases r with
  | sig g m => simp only [State.settle, hc, ha]; simp
  | sup g => simp only [State.settle, hs, hl]; simp
  | hub => simp only [State.settle, hs, hl, hn]; simp

/-- What the device keeps of a plain bundle's issue: the core, and its requests. -/
theorem take_plain {s : State} {i : Site} {op : Instr} {k : Nat} {c : Core} {t : Thread} (h : Quiet s i op k c t)
    (ws : List (RegW × Nat)) (x y : EMem 14) (sb : List SbEntry) (n : Nat) (du fd : Option UnitPend)
    (reqs greqs : List MemReq) (pages : List PageReq) (hub : i.core = .hub → greqs = []) :
    s.take i.core { core := onThread (nextCore (withParts c x y sb n du fd)) k (nextThread (i.syl.toNat + 1) ws)
                    reqs := reqs, greqs := greqs, pages := pages } =
      withRequests (issuedWith s i k ws (fun c => withParts c x y sb n du fd)) i.core reqs greqs pages := by
  generalize hd : onThread (nextCore (withParts c x y sb n du fd)) k (nextThread (i.syl.toNat + 1) ws) = d
  have hm : d.markOut = [] := by subst hd; exact h.marks
  have hi : d.issued = c.issued + 1 := by subst hd; rfl
  have hiss : d.issued + 1 < 2 ^ 48 := by have := h.issued; omega
  have h1 : d.flushed = c.flushed := by subst hd; rfl
  have h2 : d.vwakes = c.vwakes := by subst hd; rfl
  have h3 : d.offAcc = c.offAcc := by subst hd; rfl
  have h4 : d.offStall = c.offStall := by subst hd; rfl
  have h5 : d.attn = c.attn := by subst hd; rfl
  have h6 : d.stop = c.stop := by subst hd; rfl
  have h7 : d.threads = modAt c.threads k (nextThread (i.syl.toNat + 1) ws) := by subst hd; rfl
  have hdm : ({ d with markOut := [] } : Core) = d := by rw [← hm]
  have hs1 : ({ s.onCore i.core (fun _ => d) with free := s.free + 0 } : State) =
      issuedWith s i k ws (fun c => withParts c x y sb n du fd) := by
    show State.onCore s i.core (fun _ => d) = _
    unfold issuedWith State.onCore State.onCoreAt
    congr 1
    apply modAt_congr
    intro e he
    rw [h.core] at he
    cases he
    exact hd.symm
  have hcore : ∀ u : State, u.cores = (s.onCore i.core (fun _ => d)).cores → u.core i.core = d := by
    intro u hu
    apply core_of
    rw [hu]
    simp [h.core]
  have hcs : (issuedWith s i k ws (fun c => withParts c x y sb n du fd)).cores =
      (s.onCore i.core (fun _ => d)).cores := by rw [← hs1]
  unfold State.take
  simp only [core_of h.core, hdm, hm, List.map_nil, List.append_nil, Bool.or_false]
  rw [hs1]
  have hset : ∀ u : State, u.cores = (s.onCore i.core (fun _ => d)).cores → u.settle i.core c = u := fun u hu =>
    settle_plain u i.core c d (hcore u hu) (counterFull_plain c d hiss h1 h2 h3 h4) h5 h6 (takes_live h.takes).1
      (newFault_plain c d k _ h7 (fun _ => rfl))
  have hecc : ∀ u : State, u.eccLog i.core none = u := fun u => by simp [State.eccLog]
  rw [hecc]
  unfold withRequests
  cases hg : coreGeode i.core with
  | some g => exact hset _ hcs
  | none =>
    have hh : i.core = .hub := by cases hr : i.core <;> simp_all [coreGeode]
    rw [hub hh]
    exact hset _ hcs

/-- THE LAW OF ISSUE. On a core that stands ready, an operation whose answer raises nothing, and whose effects write
registers and the parts of `withParts` alone, leaves exactly those effects. -/
theorem issueOp_plain {s : State} {i : Site} {op : Instr} {k : Nat} {c : Core} {t : Thread} {f : IssueCtx → OpOut}
    (h : Quiet s i op k c t) (hm : opMeaning op = some (i, f)) (x : IssueCtx) (hx : x = viewOf i op k c t)
    (hexc : (f x).excs = [])
    (hvec : (f x).vec = true → c.vpow = true)
    (hf : (f x).fuse = true → FReady c k t)
    (hrep : (f x).isRep = true → i.syl = 0)
    (hfar : farRows (f x).acts = 0 ∨ (f x).vec = false)
    (ws : List (RegW × Nat)) (xm ym : EMem 14) (sb : List SbEntry) (n : Nat)
    (du fd : Option UnitPend) (reqs greqs : List MemReq) (pages : List PageReq)
    (hctl : ctlOf [f x] = none)
    (hmic : ∀ a ∈ (f x).acts, ∀ is, a ≠ .micros is)
    (hlat : ∀ w ∈ ws, 1 ≤ w.2)
    (hroom : sb.length ≤ 4 ∧ reqs.length + greqs.length ≤ 8)
    (hr : ∀ d : Core, d.x = c.x → d.y = c.y → d.sb = c.sb → d.nextId = c.nextId → d.divu = c.divu →
      d.fdivu = c.fdivu → applyActs (s.outside i.core) k t.adv t.seq false { core := d } (f x).acts =
      { core := onThread (withParts d xm ym sb n du fd) k (fun u => { u with flight := u.flight ++ pends t ws })
        reqs := reqs, greqs := greqs, pages := pages })
    (hub : i.core = .hub → greqs = []) :
    issueOp i op s =
      withRequests (issuedWith s i k ws (fun c => withParts c xm ym sb n du fd)) i.core reqs greqs pages := by
  subst hx
  have ht := tryIssue_quiet h hm hexc hvec hf hrep
  have hc := commit_plain h (s.outside i.core) ws xm ym sb n du fd reqs greqs pages hctl hmic hlat hfar hroom hr
  have hasm : ({ c with asm := c.ghost ++ c.asm ++ [op], ghost := [] } : Core) = { c with asm := [op] } := by
    rw [h.asm, h.ghost]; simp [h.ghost]
  unfold issueOp offer
  simp only [core_of h.core, h.takes, if_true, Bool.not_true, Bool.false_eq_true, if_false, h.last]
  rw [hasm, ht, hc, take_plain h ws xm ym sb n du fd reqs greqs pages hub]

/-! ### Register writes and X/Y stores -/

/-- The effects of register writes. -/
def wrActs (ws : List (RegW × Nat)) : List Act := ws.map (fun w => .wr w.1 w.2)

/-- The effects of stores to X and Y memory. -/
def stActs (ms : List (Bool × Nat × Word)) : List Act := ms.map (fun m => .store m.1 m.2.1 m.2.2)

theorem fold_wr (o : Outside) (k adv seq : Nat) (r : Issued) (t : Thread) (ws : List (RegW × Nat))
    (ha : t.adv = adv) (hs : t.seq = seq) :
    (wrActs ws).foldl (applyAct o k adv seq false) r =
      { r with core := onThread r.core k (fun u => { u with flight := u.flight ++ pends t ws }) } := by
  subst ha hs
  induction ws generalizing r with
  | nil => simp [wrActs, pends, onThread_same]
  | cons w ws ih =>
    simp only [wrActs, List.map_cons, List.foldl_cons] at ih ⊢
    rw [ih]
    simp only [applyAct, addPend, onThread_onThread, pends, List.map_cons, List.append_assoc, List.singleton_append,
      Bool.false_eq_true, if_false]

theorem withStores_cons (m : Bool × Nat × Word) (ms : List (Bool × Nat × Word)) (c : Core) :
    withStores (m :: ms) c = withStores ms
      (if m.1 then { c with y := c.y.write m.2.1 m.2.2 } else { c with x := c.x.write m.2.1 m.2.2 }) := rfl

theorem fold_st (o : Outside) (k adv seq : Nat) (r : Issued) (ms : List (Bool × Nat × Word)) :
    (stActs ms).foldl (applyAct o k adv seq false) r = { r with core := withStores ms r.core } := by
  induction ms generalizing r with
  | nil => rfl
  | cons m ms ih =>
    simp only [stActs, List.map_cons, List.foldl_cons] at ih ⊢
    rw [ih, withStores_cons]
    rfl

/-- Stores change X and Y memory alone. -/
theorem withStores_eq (ms : List (Bool × Nat × Word)) (c : Core) :
    withStores ms c = { c with x := (withStores ms c).x, y := (withStores ms c).y } := by
  induction ms generalizing c with
  | nil => rfl
  | cons m ms ih =>
    rw [withStores_cons, ih]
    split <;> rfl

/-- The memories after stores depend on the memories before them alone. -/
theorem withStores_xy (ms : List (Bool × Nat × Word)) (c d : Core) (hx : d.x = c.x) (hy : d.y = c.y) :
    (withStores ms d).x = (withStores ms c).x ∧ (withStores ms d).y = (withStores ms c).y := by
  induction ms generalizing c d with
  | nil => exact ⟨hx, hy⟩
  | cons m ms ih =>
    rw [withStores_cons, withStores_cons]
    apply ih <;> split <;> simp [hx, hy]

/-- Effects of rank 0 keep their order. -/
theorem ordered_rank0 (as : List Act) (h : ∀ a ∈ as, actRank a = 0) : ordered as = as := by
  have h0 : as.filter (fun a => actRank a == 0) = as := by
    rw [List.filter_eq_self]; intro a ha; simp [h a ha]
  have hn : ∀ n, as.filter (fun a => actRank a == n + 1) = [] := by
    intro n; rw [List.filter_eq_nil_iff]; intro a ha; simp [h a ha]
  show ([0, 1, 2, 3] : List Nat).flatMap _ = as
  simp only [List.flatMap_cons, List.flatMap_nil, List.append_nil, h0, hn 0, hn 1, hn 2]

/-- Stores to X and Y memory and register writes. -/
theorem issueOp_writes {s : State} {i : Site} {op : Instr} {k : Nat} {c : Core} {t : Thread} {f : IssueCtx → OpOut}
    (h : Quiet s i op k c t) (hm : opMeaning op = some (i, f)) (ms : List (Bool × Nat × Word))
    (ws : List (RegW × Nat)) (hlat : ∀ w ∈ ws, 1 ≤ w.2) (x : IssueCtx) (hx : x = viewOf i op k c t)
    (hacts : (f x).acts = stActs ms ++ wrActs ws)
    (hexc : (f x).excs = [])
    (hvec : (f x).vec = true → c.vpow = true)
    (hf : (f x).fuse = true → FReady c k t)
    (hrep : (f x).isRep = true → i.syl = 0) :
    issueOp i op s = issuedWith s i k ws (withStores ms) := by
  have hkind : ∀ a ∈ (f x).acts, (∃ m : Bool × Nat × Word, a = .store m.1 m.2.1 m.2.2) ∨
      ∃ w : RegW × Nat, a = .wr w.1 w.2 := by
    intro a ha
    rw [hacts] at ha
    rcases List.mem_append.1 ha with ha | ha
    · obtain ⟨m, _, rfl⟩ := List.mem_map.1 ha; exact .inl ⟨m, rfl⟩
    · obtain ⟨w, _, rfl⟩ := List.mem_map.1 ha; exact .inr ⟨w, rfl⟩
  have hfar : farRows (f x).acts = 0 := by
    unfold farRows
    have hz : ∀ a ∈ (f x).acts, (match a with
        | .load offs (.v _) => ((rowsOf (fun (p : Nat × Bool × Nat) => p.2) offs).filter (fun r => !r.1)).length - 1
        | .load offs (.kept _) => ((rowsOf (fun (p : Nat × Bool × Nat) => p.2) offs).filter (fun r => !r.1)).length - 1
        | .put _ ws => ((rowsOf (fun (p : Bool × Nat × Word) => (p.1, p.2.1)) ws).filter (fun r => !r.1)).length - 1
        | _ => 0) = 0 := by
      intro a ha
      rcases hkind a ha with ⟨m, rfl⟩ | ⟨w, rfl⟩ <;> rfl
    exact List.sum_eq_zero (fun n hn => by
      obtain ⟨a, ha, rfl⟩ := List.mem_map.1 hn
      exact hz a ha)
  rw [issueOp_plain h hm x hx hexc hvec hf hrep (.inl hfar) ws (withStores ms c).x (withStores ms c).y c.sb c.nextId c.divu
    c.fdivu [] [] []]
  · have hself : issuedWith s i k ws (fun c' => withParts c' (withStores ms c).x (withStores ms c).y c.sb c.nextId
        c.divu c.fdivu) = issuedWith s i k ws (withStores ms) := by
      unfold issuedWith State.onCore State.onCoreAt
      congr 1
      apply modAt_congr
      intro e he
      rw [h.core] at he
      cases he
      rw [withStores_eq ms c]
      rfl
    rw [hself]
    unfold withRequests
    cases i.core with
    | sig g m => simp [coreGeode, State.onGeode]
    | sup g => simp [coreGeode, State.onGeode]
    | hub => simp [coreGeode, State.serveHub]
  · unfold ctlOf
    rw [List.findSome?_eq_none_iff]
    intro a ha
    simp only [List.flatMap_cons, List.flatMap_nil, List.append_nil] at ha
    rcases hkind a ha with ⟨m, rfl⟩ | ⟨w, rfl⟩ <;> rfl
  · intro a ha is
    rcases hkind a ha with ⟨m, rfl⟩ | ⟨w, rfl⟩ <;> simp
  · exact hlat
  · simp [h.sb]
  · intro d h1 h2 h3 h4 h5 h6
    unfold applyActs
    rw [ordered_rank0 _ (fun a ha => by rcases hkind a ha with ⟨m, rfl⟩ | ⟨w, rfl⟩ <;> rfl), hacts,
      List.foldl_append, fold_st, fold_wr _ _ _ _ _ t ws rfl rfl]
    have hxy := withStores_xy ms c d h1 h2
    have : withStores ms d = withParts d (withStores ms c).x (withStores ms c).y c.sb c.nextId c.divu c.fdivu := by
      rw [withStores_eq ms d, hxy.1, hxy.2]
      unfold withParts
      rw [← h3, ← h4, ← h5, ← h6]
    rw [this]
  · intro _; rfl

/-- Register writes alone: the bundle lands its writes, each after its latency, and nothing else changes. -/
theorem issueOp_landing {s : State} {i : Site} {op : Instr} {k : Nat} {c : Core} {t : Thread} {f : IssueCtx → OpOut}
    (h : Quiet s i op k c t) (hm : opMeaning op = some (i, f)) (ws : List (RegW × Nat)) (hlat : ∀ w ∈ ws, 1 ≤ w.2)
    (x : IssueCtx) (hx : x = viewOf i op k c t)
    (hacts : (f x).acts = wrActs ws)
    (hexc : (f x).excs = [])
    (hvec : (f x).vec = true → c.vpow = true)
    (hf : (f x).fuse = true → FReady c k t)
    (hrep : (f x).isRep = true → i.syl = 0) :
    issueOp i op s = landing s i k ws :=
  issueOp_writes h hm [] ws hlat x hx hacts hexc hvec hf hrep

/-- An operation whose answer writes registers alone completes with those writes. -/
theorem completes_of_answer {op : Site → Instr} {g : Site → IssueCtx → OpOut} {P : Core → Nat → Thread → Prop}
    {ws : Core → Nat → Thread → List (RegW × Nat)} (hm : ∀ i, opMeaning (op i) = some (i, g i))
    (hx : ∀ i s, exec (op i) s = .next (issueOp i (op i) s))
    (hlat : ∀ c k t, ∀ w ∈ ws c k t, 1 ≤ w.2)
    (h : ∀ (i : Site) (k : Nat) (c : Core) (t : Thread) (x : IssueCtx), P c k t → c.threads[k]? = some t →
      x = viewOf i (op i) k c t → (g i x).acts = wrActs (ws c k t) ∧ (g i x).excs = [] ∧
      ((g i x).vec = true → c.vpow = true) ∧ ((g i x).fuse = true → FReady c k t) ∧
      ((g i x).isRep = true → i.syl = 0)) : Completes op P ws := by
  intro s i k c t hq hp
  obtain ⟨h1, h2, h3, h4, h5⟩ := h i k c t _ hp hq.thread rfl
  rw [hx, issueOp_landing hq (hm i) (ws c k t) (hlat c k t) _ rfl h1 h2 h3 h4 h5]

theorem fit_flag (sat : Bool) (x : Int) (w : Nat) : (fit sat x w).2 = !fits x w := by
  unfold fit
  cases fits x w <;> cases sat <;> simp

end Sys2Proof.Laws
end

