-- ==== Sys2Proof/Laws/Memory.lean ====
section
/-! SUPPORT. Every memory operation keeps the canonical form, and what a memory reads as after one. -/

namespace Sys2Proof.Laws
open Sys2Proof Sys2Proof.Machine

variable {w : Nat}

/-! ### Writes, corrections, page zeroing -/

theorem write_wf (m : EMem w) (a : Nat) (v : BitVec w) (h : Memory.wf m = true) : Memory.wf (m.write a v) = true :=
  smPut_wf m.cells a v h

/-- The word written is the word read; every other word is as before. -/
theorem write_read (m : EMem w) (a b : Nat) (v : BitVec w) (h : Memory.wf m = true) :
    smGet (m.write a v).cells b = if b = a then v else smGet m.cells b := smGet_smPut m.cells a b v h

theorem writeList_wf (m : EMem w) (a : Nat) (vs : List (BitVec w)) (h : Memory.wf m = true) :
    Memory.wf (m.writeList a vs) = true := by
  induction vs generalizing m a with
  | nil => exact h
  | cons v vs ih => exact ih _ _ (write_wf m a v h)

/-- Words outside the run that a list of writes covers are as before. -/
theorem writeList_read_outside (m : EMem w) (a b : Nat) (vs : List (BitVec w)) (h : Memory.wf m = true)
    (hb : b < a ∨ a + vs.length ≤ b) : smGet (m.writeList a vs).cells b = smGet m.cells b := by
  induction vs generalizing m a with
  | nil => rfl
  | cons v vs ih =>
    simp only [List.length_cons] at hb
    simp only [EMem.writeList]
    rw [ih _ _ (write_wf m a v h) (by omega), write_read m a b v h, if_neg (by omega)]

@[simp] theorem corrected_cells (m : EMem w) (a : Nat) : (m.corrected a).cells = m.cells := rfl

theorem corrected_wf (m : EMem w) (a : Nat) (h : Memory.wf m = true) : Memory.wf (m.corrected a) = true := h

theorem foldl_corrected_wf (as : List Nat) (m : EMem w) (h : Memory.wf m = true) :
    Memory.wf (as.foldl EMem.corrected m) = true := by
  induction as generalizing m with
  | nil => exact h
  | cons a as ih => exact ih _ h

theorem scrubWord_wf (m : EMem w) (a : Nat) (h : Memory.wf m = true) : Memory.wf (scrubWord m a).1 = true := h

theorem zeroPage_wf (m : EMem 14) (k : Nat) (h : Memory.wf m = true) : Memory.wf (zeroPage m k) = true :=
  smClear_wf m.cells _ _ h

/-! ### Images -/

theorem foldr_image (w base : Nat) (ps : List (Nat × Nat)) (hp : ps.Pairwise (fun p q => p.1 < q.1)) :
    let m : SMap w := ps.foldr (fun p m => let v := BitVec.ofNat w p.2; if v = 0 then m else (base + p.1, v) :: m) []
    smWf m = true ∧ (∀ e ∈ m, ∃ p ∈ ps, e.1 = base + p.1) := by
  induction ps with
  | nil => exact ⟨rfl, by simp⟩
  | cons p ps ih =>
    rw [List.pairwise_cons] at hp
    obtain ⟨h1, h2⟩ := ih hp.2
    simp only [List.foldr_cons]
    split
    · exact ⟨h1, fun e he => (h2 e he).imp fun q hq => ⟨List.mem_cons_of_mem _ hq.1, hq.2⟩⟩
    · rename_i hv
      refine ⟨?_, ?_⟩
      · simp only [smWf, Bool.and_eq_true]
        refine ⟨⟨by simpa using hv, ?_⟩, h1⟩
        simp only [smAbove, List.all_eq_true, decide_eq_true_eq]
        intro e he
        obtain ⟨q, hq, e1⟩ := h2 e he
        have := hp.1 q hq
        omega
      · intro e he
        rcases List.mem_cons.1 he with rfl | he
        · exact ⟨p, List.mem_cons_self .., rfl⟩
        · obtain ⟨q, hq, e1⟩ := h2 e he
          exact ⟨q, List.mem_cons_of_mem _ hq, e1⟩

theorem pairwise_zip_range (us : List Nat) (n k : Nat) :
    (((List.range' k n).zip us)).Pairwise (fun p q => p.1 < q.1) := by
  induction n generalizing k us with
  | zero => simp
  | succ n ih =>
    cases us with
    | nil => simp
    | cons u us =>
      simp only [List.range'_succ, List.zip_cons_cons, List.pairwise_cons]
      refine ⟨fun p hp => ?_, ih us (k + 1)⟩
      have := List.of_mem_zip hp
      have h2 := List.mem_range'_1.1 this.1
      omega

/-- An image is in canonical form and lies inside the words it covers. -/
theorem smOf_image (w base : Nat) (us : List Nat) :
    smWf (smOf base us : SMap w) = true ∧ ∀ e ∈ (smOf base us : SMap w), base ≤ e.1 ∧ e.1 < base + us.length := by
  have hp := pairwise_zip_range us us.length 0
  rw [← List.range_eq_range'] at hp
  obtain ⟨h1, h2⟩ := foldr_image w base _ hp
  refine ⟨h1, fun e he => ?_⟩
  obtain ⟨p, hp1, hp2⟩ := h2 e he
  have h3 := List.mem_range.1 (List.of_mem_zip hp1).1
  omega

theorem append_wf (a b : SMap w) (k : Nat) (ha : smWf a = true) (hb : smWf b = true) (h1 : ∀ e ∈ a, e.1 < k)
    (h2 : ∀ e ∈ b, k ≤ e.1) : smWf (a ++ b) = true := by
  induction a with
  | nil => exact hb
  | cons e a ih =>
    obtain ⟨j, v⟩ := e
    simp only [smWf, Bool.and_eq_true] at ha
    simp only [List.cons_append, smWf, Bool.and_eq_true]
    refine ⟨⟨ha.1.1, ?_⟩, ih ha.2 (fun e he => h1 e (List.mem_cons_of_mem _ he))⟩
    have hj := h1 (j, v) (List.mem_cons_self ..)
    have ha' := ha.1.2
    simp only [smAbove, List.all_eq_true, decide_eq_true_eq] at ha' ⊢
    intro e he
    rcases List.mem_append.1 he with he | he
    · exact ha' e he
    · have := h2 e he; omega

theorem loadImem_wf (m : EMem 28) (us : List Nat) (h : Memory.wf m = true) : Memory.wf (loadImem m us) = true := by
  obtain ⟨h1, h2⟩ := smOf_image 28 0 us
  refine append_wf _ _ us.length h1 (filter_wf m.cells _ h) (fun e he => by have := h2 e he; omega) ?_
  intro e he
  simpa using (List.mem_filter.1 he).2

/-! ### Reset -/

/-- Every memory of the machine after reset is in canonical form. -/
theorem reset_memWf : State.reset.memWf = true := by decide

end Sys2Proof.Laws
end

