-- ==== Sys2Proof/Laws/Parts.lean ====
section
/-! SUPPORT. Reading a part of the device after a part has been changed. -/

namespace Sys2Proof.Machine
open Sys2Proof Sys2Proof.Laws

theorem getD_modAt {α : Type} (l : List α) (i : Nat) (f : α → α) (d x : α) (h : l[i]? = some x) :
    (modAt l i f).getD i d = f x := by
  simp [List.getD, h]

theorem getD_modAt_ne {α : Type} (l : List α) (i j : Nat) (f : α → α) (d : α) (h : i ≠ j) :
    (modAt l i f).getD j d = l.getD j d := by
  simp [List.getD, modAt_get_ne _ _ _ _ h]

theorem core_onCore {s : State} {r : CoreRef} {c : Core} (f : Core → Core) (h : s.cores[coreIdx r]? = some c) :
    (s.onCore r f).core r = f c := getD_modAt _ _ _ _ _ h

theorem core_get {s : State} {r : CoreRef} {c : Core} (h : s.cores[coreIdx r]? = some c) : s.core r = c := by
  simp [State.core, State.coreAt, List.getD, h]

theorem geode_get {s : State} {g : Nat} {x : Geode} (h : s.geodes[g]? = some x) : s.geode g = x := by
  simp [State.geode, List.getD, h]

theorem geode_onGeode {s : State} {g : Nat} {x : Geode} (f : Geode → Geode) (h : s.geodes[g]? = some x) :
    (s.onGeode g f).geode g = f x := getD_modAt _ _ _ _ _ h

theorem pos_get {s : State} {p : Nat} {x : Pos} (h : s.poss[p]? = some x) : s.pos p = x := by
  simp [State.pos, List.getD, h]

theorem pos_onPos {s : State} {p : Nat} {x : Pos} (f : Pos → Pos) (h : s.poss[p]? = some x) :
    (s.onPos p f).pos p = f x := getD_modAt _ _ _ _ _ h

theorem quad_get {s : State} {q : Nat} {x : Quad} (h : s.quads[q]? = some x) : s.quad q = x := by
  simp [State.quad, List.getD, h]

theorem quad_onQuad {s : State} {q : Nat} {x : Quad} (f : Quad → Quad) (h : s.quads[q]? = some x) :
    (s.onQuad q f).quad q = f x := getD_modAt _ _ _ _ _ h

theorem fn_get {s : State} {n : Nat} {x : Fn} (h : s.fns[n]? = some x) : s.fn n = x := by
  simp [State.fn, List.getD, h]

theorem fn_onFn {s : State} {n : Nat} {x : Fn} (f : Fn → Fn) (h : s.fns[n]? = some x) :
    (s.onFn n f).fn n = f x := getD_modAt _ _ _ _ _ h

theorem onCore_congr {s : State} {r : CoreRef} {c : Core} {f g : Core → Core} (h : s.cores[coreIdx r]? = some c)
    (e : f c = g c) : s.onCore r f = s.onCore r g := by
  have : modAt s.cores (coreIdx r) f = modAt s.cores (coreIdx r) g :=
    modAt_congr _ _ _ _ (fun x hx => by rw [h] at hx; cases hx; exact e)
  simp [State.onCore, State.onCoreAt, this]

theorem onGeode_congr {s : State} {g : Nat} {x : Geode} {f h : Geode → Geode} (e : s.geodes[g]? = some x)
    (q : f x = h x) : s.onGeode g f = s.onGeode g h := by
  have : modAt s.geodes g f = modAt s.geodes g h :=
    modAt_congr _ _ _ _ (fun y hy => by rw [e] at hy; cases hy; exact q)
  simp [State.onGeode, this]

theorem threadAt_get {s : State} {r : CoreRef} {c : Core} {k : Nat} (h : s.cores[coreIdx r]? = some c) :
    s.threadAt r k = c.threads[k]? := by simp [State.threadAt, h]

theorem threadAt_onCore {s : State} {r : CoreRef} {c : Core} {k : Nat} (f : Core → Core)
    (h : s.cores[coreIdx r]? = some c) : (s.onCore r f).threadAt r k = (f c).threads[k]? := by
  simp [State.threadAt, h]

end Sys2Proof.Machine
end

