-- ==== Sys2Proof/Laws/PerInstr.lean ====
section
/-! SUPPORT. What well-formedness gives, said of each row: its bundle ends where R59 lets one end, it is short only where a
short form exists (R232), its amount and start fields fit its row (R150, R190, R227, R228) and its operands are ones that
can come. -/

namespace Sys2Proof.Laws.Sited
open Sys2Proof

/-- What a well-formed command satisfies. -/
def Statement (c : Instr) : Prop :=
  c.wellFormed = true →
    (∀ x, siteOf c = some x → x.ok = true ∧ (x.short = true → hasShort c = true)) ∧ formOk c = true ∧ operandsOk c = true

theorem of_wellFormed (c : Instr) : Statement c := by
  intro h
  simp only [Instr.wellFormed, Bool.and_eq_true] at h
  refine ⟨fun x hx => ?_, h.1.2, h.2⟩
  have h1 := h.1.1
  rw [hx] at h1
  simp only [Bool.and_eq_true, Bool.or_eq_true, Bool.not_eq_true'] at h1
  exact ⟨h1.1, fun hs => h1.2.resolve_left (by simp [hs])⟩

theorem ld (i : Site) (f : AMF) : Statement (.ld i f) := of_wellFormed _
theorem ldD (i : Site) (f : AMF) : Statement (.ldD i f) := of_wellFormed _
theorem st (i : Site) (f : AMF) : Statement (.st i f) := of_wellFormed _
theorem stD (i : Site) (f : AMF) : Statement (.stD i f) := of_wellFormed _
theorem vld (i : Site) (f : AMF) : Statement (.vld i f) := of_wellFormed _
theorem vst (i : Site) (f : AMF) : Statement (.vst i f) := of_wellFormed _
theorem vlds (i : Site) (f : AMF) : Statement (.vlds i f) := of_wellFormed _
theorem vsts (i : Site) (f : AMF) : Statement (.vsts i f) := of_wellFormed _
theorem vldx (i : Site) (f : AXF) : Statement (.vldx i f) := of_wellFormed _
theorem vstx (i : Site) (f : AXF) : Statement (.vstx i f) := of_wellFormed _
theorem aadd (i : Site) (f : AMF) : Statement (.aadd i f) := of_wellFormed _
theorem aaddi (i : Site) (slot : ASlot) (an : BitVec 4) (imm : BitVec 12) : Statement (.aaddi i slot an imm) := of_wellFormed _
theorem amv (i : Site) (slot : ASlot) (rd : BitVec 6) (rs : BitVec 6) : Statement (.amv i slot rd rs) := of_wellFormed _
theorem amovl (i : Site) (slot : ASlot) (r : BitVec 6) (imm : BitVec 12) : Statement (.amovl i slot r imm) := of_wellFormed _
theorem amovh (i : Site) (slot : ASlot) (r : BitVec 6) (imm : BitVec 12) : Statement (.amovh i slot r imm) := of_wellFormed _
theorem palloc (i : Site) (f : AMF) : Statement (.palloc i f) := of_wellFormed _
theorem pfree (i : Site) (f : AMF) : Statement (.pfree i f) := of_wellFormed _
theorem add (i : Site) (f : AluF) : Statement (.add i f) := of_wellFormed _
theorem adc (i : Site) (f : R3) : Statement (.adc i f) := of_wellFormed _
theorem sub (i : Site) (f : AluF) : Statement (.sub i f) := of_wellFormed _
theorem sbc (i : Site) (f : R3) : Statement (.sbc i f) := of_wellFormed _
theorem cmp (i : Site) (f : CmpF) : Statement (.cmp i f) := of_wellFormed _
theorem neg (i : Site) (f : R3) : Statement (.neg i f) := of_wellFormed _
theorem abs (i : Site) (f : R3) : Statement (.abs i f) := of_wellFormed _
theorem min (i : Site) (f : R3) : Statement (.min i f) := of_wellFormed _
theorem max (i : Site) (f : R3) : Statement (.max i f) := of_wellFormed _
theorem minu (i : Site) (f : R3) : Statement (.minu i f) := of_wellFormed _
theorem maxu (i : Site) (f : R3) : Statement (.maxu i f) := of_wellFormed _
theorem and (i : Site) (f : R3) : Statement (.and i f) := of_wellFormed _
theorem or (i : Site) (f : R3) : Statement (.or i f) := of_wellFormed _
theorem xor (i : Site) (f : R3) : Statement (.xor i f) := of_wellFormed _
theorem andn (i : Site) (f : R3) : Statement (.andn i f) := of_wellFormed _
theorem not (i : Site) (f : R3) : Statement (.not i f) := of_wellFormed _
theorem mov (i : Site) (f : R3) : Statement (.mov i f) := of_wellFormed _
theorem movi (i : Site) (x : BitVec 5) (imm : Word) : Statement (.movi i x imm) := of_wellFormed _
theorem addD (i : Site) (f : R3) : Statement (.addD i f) := of_wellFormed _
theorem adcD (i : Site) (f : R3) : Statement (.adcD i f) := of_wellFormed _
theorem subD (i : Site) (f : R3) : Statement (.subD i f) := of_wellFormed _
theorem sbcD (i : Site) (f : R3) : Statement (.sbcD i f) := of_wellFormed _
theorem cmpD (i : Site) (f : R3) : Statement (.cmpD i f) := of_wellFormed _
theorem negD (i : Site) (f : R3) : Statement (.negD i f) := of_wellFormed _
theorem movD (i : Site) (f : R3) : Statement (.movD i f) := of_wellFormed _
theorem mvad (i : Site) (f : R3) : Statement (.mvad i f) := of_wellFormed _
theorem lsh (i : Site) (f : R3) : Statement (.lsh i f) := of_wellFormed _
theorem ash (i : Site) (f : R3) : Statement (.ash i f) := of_wellFormed _
theorem lsl (i : Site) (f : RI6) : Statement (.lsl i f) := of_wellFormed _
theorem lsr (i : Site) (f : RI6) : Statement (.lsr i f) := of_wellFormed _
theorem asl (i : Site) (f : RI6) : Statement (.asl i f) := of_wellFormed _
theorem asr (i : Site) (f : RI6) : Statement (.asr i f) := of_wellFormed _
theorem lshD (i : Site) (f : R3) : Statement (.lshD i f) := of_wellFormed _
theorem ashD (i : Site) (f : R3) : Statement (.ashD i f) := of_wellFormed _
theorem mpy (i : Site) (f : R3) : Statement (.mpy i f) := of_wellFormed _
theorem mac (i : Site) (f : R3) : Statement (.mac i f) := of_wellFormed _
theorem msu (i : Site) (f : R3) : Statement (.msu i f) := of_wellFormed _
theorem cmpy (i : Site) (f : R3) : Statement (.cmpy i f) := of_wellFormed _
theorem cmac (i : Site) (f : R3) : Statement (.cmac i f) := of_wellFormed _
theorem cmacj (i : Site) (f : R3) : Statement (.cmacj i f) := of_wellFormed _
theorem adda (i : Site) (f : R3) : Statement (.adda i f) := of_wellFormed _
theorem suba (i : Site) (f : R3) : Statement (.suba i f) := of_wellFormed _
theorem nega (i : Site) (f : R3) : Statement (.nega i f) := of_wellFormed _
theorem asha (i : Site) (f : RI6) : Statement (.asha i f) := of_wellFormed _
theorem clra (i : Site) (f : R3) : Statement (.clra i f) := of_wellFormed _
theorem mvp (i : Site) (f : R3) : Statement (.mvp i f) := of_wellFormed _
theorem mulf (i : Site) (f : R3) : Statement (.mulf i f) := of_wellFormed _
theorem mulD (i : Site) (f : R3) : Statement (.mulD i f) := of_wellFormed _
theorem mvr (i : Site) (f : R3) : Statement (.mvr i f) := of_wellFormed _
theorem mvi (i : Site) (f : R3) : Statement (.mvi i f) := of_wellFormed _
theorem expd (i : Site) (f : R3) : Statement (.expd i f) := of_wellFormed _
theorem expdS (i : Site) (f : R3) : Statement (.expdS i f) := of_wellFormed _
theorem div (i : Site) (f : R3) : Statement (.div i f) := of_wellFormed _
theorem divu (i : Site) (f : R3) : Statement (.divu i f) := of_wellFormed _
theorem dadd (i : Site) (f : R3) : Statement (.dadd i f) := of_wellFormed _
theorem dsub (i : Site) (f : R3) : Statement (.dsub i f) := of_wellFormed _
theorem daj (i : Site) (f : R3) : Statement (.daj i f) := of_wellFormed _
theorem mvs (i : Site) (x : BitVec 5) (sys : BitVec 8) (dir : Bool) : Statement (.mvs i x sys dir) := of_wellFormed _
theorem tget (i : Site) (f : R3) : Statement (.tget i f) := of_wellFormed _
theorem vadd (i : Site) (f : R3) : Statement (.vadd i f) := of_wellFormed _
theorem vsub (i : Site) (f : R3) : Statement (.vsub i f) := of_wellFormed _
theorem vadds (i : Site) (f : R3) : Statement (.vadds i f) := of_wellFormed _
theorem vsubs (i : Site) (f : R3) : Statement (.vsubs i f) := of_wellFormed _
theorem vaddh (i : Site) (f : R3) : Statement (.vaddh i f) := of_wellFormed _
theorem vsubh (i : Site) (f : R3) : Statement (.vsubh i f) := of_wellFormed _
theorem vneg (i : Site) (f : R3) : Statement (.vneg i f) := of_wellFormed _
theorem vabs (i : Site) (f : R3) : Statement (.vabs i f) := of_wellFormed _
theorem vmin (i : Site) (f : R3) : Statement (.vmin i f) := of_wellFormed _
theorem vmax (i : Site) (f : R3) : Statement (.vmax i f) := of_wellFormed _
theorem vand (i : Site) (f : R3) : Statement (.vand i f) := of_wellFormed _
theorem vor (i : Site) (f : R3) : Statement (.vor i f) := of_wellFormed _
theorem vxor (i : Site) (f : R3) : Statement (.vxor i f) := of_wellFormed _
theorem vandn (i : Site) (f : R3) : Statement (.vandn i f) := of_wellFormed _
theorem vlsh (i : Site) (f : R3) : Statement (.vlsh i f) := of_wellFormed _
theorem vash (i : Site) (f : R3) : Statement (.vash i f) := of_wellFormed _
theorem vlsl (i : Site) (f : RI6) : Statement (.vlsl i f) := of_wellFormed _
theorem vlsr (i : Site) (f : RI6) : Statement (.vlsr i f) := of_wellFormed _
theorem vasl (i : Site) (f : RI6) : Statement (.vasl i f) := of_wellFormed _
theorem vasr (i : Site) (f : RI6) : Statement (.vasr i f) := of_wellFormed _
theorem vmulf (i : Site) (f : R3) : Statement (.vmulf i f) := of_wellFormed _
theorem vcmulf (i : Site) (f : R3) : Statement (.vcmulf i f) := of_wellFormed _
theorem vcmuljf (i : Site) (f : R3) : Statement (.vcmuljf i f) := of_wellFormed _
theorem vconj (i : Site) (f : R3) : Statement (.vconj i f) := of_wellFormed _
theorem vmulj (i : Site) (f : R3) : Statement (.vmulj i f) := of_wellFormed _
theorem vswri (i : Site) (f : R3) : Statement (.vswri i f) := of_wellFormed _
theorem vmov (i : Site) (f : R3) : Statement (.vmov i f) := of_wellFormed _
theorem vbcast (i : Site) (f : R3) : Statement (.vbcast i f) := of_wellFormed _
theorem vbcastc (i : Site) (f : R3) : Statement (.vbcastc i f) := of_wellFormed _
theorem vperm (i : Site) (f : R3) : Statement (.vperm i f) := of_wellFormed _
theorem vslide (i : Site) (vd : BitVec 4) (vs : BitVec 4) (vt : BitVec 4) (u : BitVec 5) : Statement (.vslide i vd vs vt u) := of_wellFormed _
theorem vzip (i : Site) (f : R3) : Statement (.vzip i f) := of_wellFormed _
theorem vunz (i : Site) (f : R3) : Statement (.vunz i f) := of_wellFormed _
theorem vext (i : Site) (f : RI5) : Statement (.vext i f) := of_wellFormed _
theorem vins (i : Site) (f : RI5) : Statement (.vins i f) := of_wellFormed _
theorem vmpy (i : Site) (f : R3) : Statement (.vmpy i f) := of_wellFormed _
theorem vmac (i : Site) (f : R3) : Statement (.vmac i f) := of_wellFormed _
theorem vmsu (i : Site) (f : R3) : Statement (.vmsu i f) := of_wellFormed _
theorem vmacs (i : Site) (f : R3) : Statement (.vmacs i f) := of_wellFormed _
theorem vmpyp (i : Site) (f : R3) : Statement (.vmpyp i f) := of_wellFormed _
theorem vmacp (i : Site) (f : R3) : Statement (.vmacp i f) := of_wellFormed _
theorem vcmpy (i : Site) (f : R3) : Statement (.vcmpy i f) := of_wellFormed _
theorem vcmac (i : Site) (f : R3) : Statement (.vcmac i f) := of_wellFormed _
theorem vcmacj (i : Site) (f : R3) : Statement (.vcmacj i f) := of_wellFormed _
theorem vcmacs (i : Site) (f : R3) : Statement (.vcmacs i f) := of_wellFormed _
theorem vclra (i : Site) (f : R3) : Statement (.vclra i f) := of_wellFormed _
theorem vmvr (i : Site) (f : R3) : Statement (.vmvr i f) := of_wellFormed _
theorem vmvi (i : Site) (f : R3) : Statement (.vmvi i f) := of_wellFormed _
theorem vexpd (i : Site) (f : R3) : Statement (.vexpd i f) := of_wellFormed _
theorem vexpdS (i : Site) (f : R3) : Statement (.vexpdS i f) := of_wellFormed _
theorem vmaxi (i : Site) (f : R3) : Statement (.vmaxi i f) := of_wellFormed _
theorem vmini (i : Site) (f : R3) : Statement (.vmini i f) := of_wellFormed _
theorem vmaxir (i : Site) (f : R3) : Statement (.vmaxir i f) := of_wellFormed _
theorem vminir (i : Site) (f : R3) : Statement (.vminir i f) := of_wellFormed _
theorem vmaxirS (i : Site) (f : R3) : Statement (.vmaxirS i f) := of_wellFormed _
theorem vminirS (i : Site) (f : R3) : Statement (.vminirS i f) := of_wellFormed _
theorem vmaxia (i : Site) (f : R3) : Statement (.vmaxia i f) := of_wellFormed _
theorem vminia (i : Site) (f : R3) : Statement (.vminia i f) := of_wellFormed _
theorem vmaxiaS (i : Site) (f : R3) : Statement (.vmaxiaS i f) := of_wellFormed _
theorem vminiaS (i : Site) (f : R3) : Statement (.vminiaS i f) := of_wellFormed _
theorem setvl (i : Site) (f : R3) : Statement (.setvl i f) := of_wellFormed _
theorem setvlImmediate (i : Site) (f : RI6) : Statement (.setvlImmediate i f) := of_wellFormed _
theorem fadd (i : Site) (f : R3) : Statement (.fadd i f) := of_wellFormed _
theorem fsub (i : Site) (f : R3) : Statement (.fsub i f) := of_wellFormed _
theorem fmul (i : Site) (f : R3) : Statement (.fmul i f) := of_wellFormed _
theorem fma (i : Site) (f : R3) : Statement (.fma i f) := of_wellFormed _
theorem fdiv (i : Site) (f : R3) : Statement (.fdiv i f) := of_wellFormed _
theorem fsqrt (i : Site) (f : R3) : Statement (.fsqrt i f) := of_wellFormed _
theorem fmin (i : Site) (f : R3) : Statement (.fmin i f) := of_wellFormed _
theorem fmax (i : Site) (f : R3) : Statement (.fmax i f) := of_wellFormed _
theorem fcmp (i : Site) (f : R3) : Statement (.fcmp i f) := of_wellFormed _
theorem fcmpe (i : Site) (f : R3) : Statement (.fcmpe i f) := of_wellFormed _
theorem fcvtFD (i : Site) (f : RI5) : Statement (.fcvtFD i f) := of_wellFormed _
theorem fcvtFDD (i : Site) (f : RI5) : Statement (.fcvtFDD i f) := of_wellFormed _
theorem fcvtDF (i : Site) (f : RI5) : Statement (.fcvtDF i f) := of_wellFormed _
theorem fcvtDDF (i : Site) (f : RI5) : Statement (.fcvtDDF i f) := of_wellFormed _
theorem fmov (i : Site) (f : R3) : Statement (.fmov i f) := of_wellFormed _
theorem fneg (i : Site) (f : R3) : Statement (.fneg i f) := of_wellFormed _
theorem fabs (i : Site) (f : R3) : Statement (.fabs i f) := of_wellFormed _
theorem fmvf (i : Site) (f : R3) : Statement (.fmvf i f) := of_wellFormed _
theorem fmvd (i : Site) (f : R3) : Statement (.fmvd i f) := of_wellFormed _
theorem fkind (i : Site) (f : R3) : Statement (.fkind i f) := of_wellFormed _
theorem fbar (i : Site) : Statement (.fbar i) := of_wellFormed _
theorem nop (i : Site) : Statement (.nop i) := of_wellFormed _
theorem bCc (i : Site) (cc : BitVec 4) (a : Bool) (disp : BitVec 12) : Statement (.bCc i cc a disp) := of_wellFormed _
theorem bra (i : Site) (a : Bool) (disp : IAddr) : Statement (.bra i a disp) := of_wellFormed _
theorem call (i : Site) (a : Bool) (disp : IAddr) : Statement (.call i a disp) := of_wellFormed _
theorem callo (i : Site) (a : Bool) (disp : IAddr) : Statement (.callo i a disp) := of_wellFormed _
theorem jmp (i : Site) (a : Bool) (an : BitVec 4) : Statement (.jmp i a an) := of_wellFormed _
theorem callAn (i : Site) (a : Bool) (an : BitVec 4) : Statement (.callAn i a an) := of_wellFormed _
theorem calloAn (i : Site) (a : Bool) (an : BitVec 4) : Statement (.calloAn i a an) := of_wellFormed _
theorem ret (i : Site) (a : Bool) : Statement (.ret i a) := of_wellFormed _
theorem reto (i : Site) (a : Bool) : Statement (.reto i a) := of_wellFormed _
theorem rte (i : Site) : Statement (.rte i) := of_wellFormed _
theorem loop (i : Site) (f : LoopF) : Statement (.loop i f) := of_wellFormed _
theorem rep (i : Site) (f : RepF) : Statement (.rep i f) := of_wellFormed _
theorem barp (i : Site) (b : Bool) : Statement (.barp i b) := of_wellFormed _
theorem flushp (i : Site) : Statement (.flushp i) := of_wellFormed _
theorem signal (i : Site) (c : BitVec 6) : Statement (.signal i c) := of_wellFormed _
theorem waite (i : Site) : Statement (.waite i) := of_wellFormed _
theorem tstart (i : Site) (ds : BitVec 5) (c : BitVec 6) : Statement (.tstart i ds c) := of_wellFormed _
theorem tresume (i : Site) (c : BitVec 6) : Statement (.tresume i c) := of_wellFormed _
theorem tstop (i : Site) (c : BitVec 6) : Statement (.tstop i c) := of_wellFormed _
theorem tset (i : Site) (f : R3) : Statement (.tset i f) := of_wellFormed _
theorem userDecodeOperation (i : Site) (uidx : BitVec 4) (p0 : BitVec 5) (p1 : BitVec 5) (p2 : BitVec 5) (p3 : BitVec 4) : Statement (.userDecodeOperation i uidx p0 p1 p2 p3) := of_wellFormed _
theorem divideResultLands (c : CoreRef) : Statement (.divideResultLands c) := of_wellFormed _
theorem divideSquareRootLands (c : CoreRef) : Statement (.divideSquareRootLands c) := of_wellFormed _
theorem sharedLoadDataArrival (c : CoreRef) : Statement (.sharedLoadDataArrival c) := of_wellFormed _
theorem eventDispatch (g : Fin 8) (c : Fin 9) : Statement (.eventDispatch g c) := of_wellFormed _
theorem contextDispatch (c : CoreRef) : Statement (.contextDispatch c) := of_wellFormed _
theorem coreTimerExpiry (c : CoreRef) : Statement (.coreTimerExpiry c) := of_wellFormed _
theorem l0WindowOpen (g : Fin 8) (c : Fin 9) : Statement (.l0WindowOpen g c) := of_wellFormed _
theorem l0WindowClose (g : Fin 8) (c : Fin 9) : Statement (.l0WindowClose g c) := of_wellFormed _
theorem vectorUnitPowerDown (c : CoreRef) : Statement (.vectorUnitPowerDown c) := of_wellFormed _
theorem vectorUnitWake (c : CoreRef) : Statement (.vectorUnitWake c) := of_wellFormed _
theorem lazyFSequence (g : Fin 8) (c : Fin 9) : Statement (.lazyFSequence g c) := of_wellFormed _
theorem f28TrapTaken (c : CoreRef) : Statement (.f28TrapTaken c) := of_wellFormed _
theorem bankRequestServed (g : Fin 8) (w : Serve) : Statement (.bankRequestServed g w) := of_wellFormed _
theorem storeBufferDrain (c : CoreRef) : Statement (.storeBufferDrain c) := of_wellFormed _
theorem pageRequestDecided (g : Fin 8) : Statement (.pageRequestDecided g) := of_wellFormed _
theorem drainMarkerArrival (g : Fin 8) : Statement (.drainMarkerArrival g) := of_wellFormed _
theorem pageZeroingComplete (g : Fin 8) : Statement (.pageZeroingComplete g) := of_wellFormed _
theorem scrubStep (p : ScrubPlace) : Statement (.scrubStep p) := of_wellFormed _
theorem coreControlPortWrite (g : Fin 8) (c : Fin 9) (w : PortWrite) : Statement (.coreControlPortWrite g c w) := of_wellFormed _
theorem udtHeaderWrite (g : Fin 8) (c : Fin 9) (idx : BitVec 4) (header : Word) : Statement (.udtHeaderWrite g c idx header) := of_wellFormed _
theorem registerWrite (p : RegPlace) : Statement (.registerWrite p) := of_wellFormed _
theorem timerefTick : Statement (.timerefTick) := of_wellFormed _
theorem beaconEmit : Statement (.beaconEmit) := of_wellFormed _
theorem beaconArrivalGeode (g : Fin 8) : Statement (.beaconArrivalGeode g) := of_wellFormed _
theorem beaconEventCoreArrival (g : Fin 8) (c : Fin 9) : Statement (.beaconEventCoreArrival g c) := of_wellFormed _
theorem beaconArrivalHub : Statement (.beaconArrivalHub) := of_wellFormed _
theorem hubMailboxMessage (g : Fin 8) (m : MailMsg) : Statement (.hubMailboxMessage g m) := of_wellFormed _
theorem watchdogMiss (g : Fin 8) (c : Fin 9) : Statement (.watchdogMiss g c) := of_wellFormed _
theorem coreAttention (g : Fin 8) (c : Fin 9) : Statement (.coreAttention g c) := of_wellFormed _
theorem spareImageCopyComplete (g : Fin 8) : Statement (.spareImageCopyComplete g) := of_wellFormed _
theorem coreSelfTestComplete (g : Fin 8) (c : Fin 9) (pass : Bool) : Statement (.coreSelfTestComplete g c pass) := of_wellFormed _
theorem supvHalt (g : Fin 8) : Statement (.supvHalt g) := of_wellFormed _
theorem hubHalt : Statement (.hubHalt) := of_wellFormed _
theorem start (e : Eng) (n : Fin 32) : Statement (.start e n) := of_wellFormed _
theorem disable (e : Eng) (n : Fin 32) : Statement (.disable e n) := of_wellFormed _
theorem dmaCommandReserved (e : Eng) (n : Fin 32) (cmd : BitVec 3) : Statement (.dmaCommandReserved e n cmd) := of_wellFormed _
theorem cqheadWrite (e : Eng) (n : Fin 32) (v : Word) : Statement (.cqheadWrite e n v) := of_wellFormed _
theorem dmaInstructionFetch (e : Eng) (n : Fin 32) : Statement (.dmaInstructionFetch e n) := of_wellFormed _
theorem move (e : Eng) (n : Fin 32) : Statement (.move e n) := of_wellFormed _
theorem drainBeat (e : Eng) (n : Fin 32) : Statement (.drainBeat e n) := of_wellFormed _
theorem dmaLoop (e : Eng) (n : Fin 32) : Statement (.dmaLoop e n) := of_wellFormed _
theorem endl (e : Eng) (n : Fin 32) : Statement (.endl e n) := of_wellFormed _
theorem dmaWait (e : Eng) (n : Fin 32) : Statement (.dmaWait e n) := of_wellFormed _
theorem dmaSignal (e : Eng) (n : Fin 32) : Statement (.dmaSignal e n) := of_wellFormed _
theorem dmaRec (e : Eng) (n : Fin 32) : Statement (.dmaRec e n) := of_wellFormed _
theorem dmaHalt (e : Eng) (n : Fin 32) : Statement (.dmaHalt e n) := of_wellFormed _
theorem recordBeat (e : Eng) (n : Fin 32) : Statement (.recordBeat e n) := of_wellFormed _
theorem hostReadCompletion (n : Fin 32) (r : Completion) : Statement (.hostReadCompletion n r) := of_wellFormed _
theorem completionTimeout (n : Fin 32) : Statement (.completionTimeout n) := of_wellFormed _
theorem commandFetch (fn : Fin 8) (r : FetchResult) : Statement (.commandFetch fn r) := of_wellFormed _
theorem hostNop (h : CmdHdr) : Statement (.hostNop h) := of_wellFormed _
theorem identify (h : CmdHdr) : Statement (.identify h) := of_wellFormed _
theorem status (h : CmdHdr) : Statement (.status h) := of_wellFormed _
theorem lodeChunk (h : CmdHdr) (slot : Fin 16) (first : Bool) (last : Bool) (mask : Byte) (off : U32) (len : U32) (bytes : List Byte) : Statement (.lodeChunk h slot first last mask off len bytes) := of_wellFormed _
theorem lodeVerification (slot : Fin 16) : Statement (.lodeVerification slot) := of_wellFormed _
theorem lodeUnload (h : CmdHdr) (slot : Fin 16) : Statement (.lodeUnload h slot) := of_wellFormed _
theorem lodeQuery (h : CmdHdr) (slot : Fin 16) : Statement (.lodeQuery h slot) := of_wellFormed _
theorem signPolicy (h : CmdHdr) (op : Byte) (arg : Byte) (key : List Byte) : Statement (.signPolicy h op arg key) := of_wellFormed _
theorem jobStart (h : CmdHdr) (slot : Fin 16) (vec : Byte) (openEnded : Bool) (s : U32) (e : U32) (bindings : List Binding) : Statement (.jobStart h slot vec openEnded s e bindings) := of_wellFormed _
theorem jobStop (h : CmdHdr) : Statement (.jobStop h) := of_wellFormed _
theorem jobQuery (h : CmdHdr) : Statement (.jobQuery h) := of_wellFormed _
theorem shareSet (h : CmdHdr) (fn : Fin 8) (geodes : Byte) (posting : U32) (staging : U32) : Statement (.shareSet h fn geodes posting staging) := of_wellFormed _
theorem shareGet (h : CmdHdr) (fn : Fin 8) : Statement (.shareGet h fn) := of_wellFormed _
theorem positionQuery (h : CmdHdr) (pos : Fin 32) : Statement (.positionQuery h pos) := of_wellFormed _
theorem laneConfig (h : CmdHdr) (quad : Fin 8) (qctl : Word) (lcfg : List Word) : Statement (.laneConfig h quad qctl lcfg) := of_wellFormed _
theorem moduleReset (h : CmdHdr) (pos : Fin 32) : Statement (.moduleReset h pos) := of_wellFormed _
theorem calRecordRead (h : CmdHdr) (pos : Fin 32) : Statement (.calRecordRead h pos) := of_wellFormed _
theorem calStatus (h : CmdHdr) : Statement (.calStatus h) := of_wellFormed _
theorem calSolve (h : CmdHdr) (pos : Fin 32) : Statement (.calSolve h pos) := of_wellFormed _
theorem timeGet (h : CmdHdr) : Statement (.timeGet h) := of_wellFormed _
theorem timeSet (h : CmdHdr) (atOnce : Bool) (source : BitVec 2) (n : U32) (sec : U64) (frac : U64) : Statement (.timeSet h atOnce source n sec frac) := of_wellFormed _
theorem timeSetApply : Statement (.timeSetApply) := of_wellFormed _
theorem memRead (h : CmdHdr) (space : Byte) (geode : Byte) (core : Byte) (packing : Byte) (addr : U32) (units : U32) : Statement (.memRead h space geode core packing addr units) := of_wellFormed _
theorem memWrite (h : CmdHdr) (space : Byte) (geode : Byte) (core : Byte) (packing : Byte) (addr : U32) (units : U32) (bytes : List Byte) : Statement (.memWrite h space geode core packing addr units bytes) := of_wellFormed _
theorem duskEnter (h : CmdHdr) : Statement (.duskEnter h) := of_wellFormed _
theorem duskQuiesce : Statement (.duskQuiesce) := of_wellFormed _
theorem powerStatus (h : CmdHdr) : Statement (.powerStatus h) := of_wellFormed _
theorem logRead (h : CmdHdr) (first : U32) (max : U16) : Statement (.logRead h first max) := of_wellFormed _
theorem counterRead (h : CmdHdr) (block : Fin 10) (live : Bool) : Statement (.counterRead h block live) := of_wellFormed _
theorem fwInfo (h : CmdHdr) : Statement (.fwInfo h) := of_wellFormed _
theorem fwChunk (h : CmdHdr) (first : Bool) (last : Bool) (off : U32) (len : U32) (bytes : List Byte) : Statement (.fwChunk h first last off len bytes) := of_wellFormed _
theorem fwActivate (h : CmdHdr) : Statement (.fwActivate h) := of_wellFormed _
theorem resultPosting (job : U16) : Statement (.resultPosting job) := of_wellFormed _
theorem irqModerationTimeout (fn : Fin 8) (vec : Fin 64) : Statement (.irqModerationTimeout fn vec) := of_wellFormed _
theorem crtailDoorbell (fn : Fin 8) (v : U32) : Statement (.crtailDoorbell fn v) := of_wellFormed _
theorem rrheadDoorbell (fn : Fin 8) (v : U32) : Statement (.rrheadDoorbell fn v) := of_wellFormed _
theorem cren (fn : Fin 8) (on : Bool) : Statement (.cren fn on) := of_wellFormed _
theorem rren (fn : Fin 8) (on : Bool) : Statement (.rren fn on) := of_wellFormed _
theorem wake : Statement (.wake) := of_wellFormed _
theorem wakeComplete : Statement (.wakeComplete) := of_wellFormed _
theorem functionLevelReset (fn : Fin 8) : Statement (.functionLevelReset fn) := of_wellFormed _
theorem vfDisable : Statement (.vfDisable) := of_wellFormed _
theorem d3hotEntry (fn : Fin 8) : Statement (.d3hotEntry fn) := of_wellFormed _
theorem d3hotToD0 (fn : Fin 8) : Statement (.d3hotToD0 fn) := of_wellFormed _
theorem linkDown : Statement (.linkDown) := of_wellFormed _
theorem linkRetrain (gen : Nat) (width : Nat) : Statement (.linkRetrain gen width) := of_wellFormed _
theorem pcieError (e : PcieErr) : Statement (.pcieError e) := of_wellFormed _
theorem mpresNChange (pos : Fin 32) (present : Bool) : Statement (.mpresNChange pos present) := of_wellFormed _
theorem assayRecordRead (pos : Fin 32) (r : RecordRead) : Statement (.assayRecordRead pos r) := of_wellFormed _
theorem malertNAsserted (g : Fin 8) (bytes : List (Option Byte)) : Statement (.malertNAsserted g bytes) := of_wellFormed _
theorem trainingWindowOpen (q : Fin 8) : Statement (.trainingWindowOpen q) := of_wellFormed _
theorem laneFramed (pos : Fin 32) (rate : BitVec 2) : Statement (.laneFramed pos rate) := of_wellFormed _
theorem trainingWindowClose (q : Fin 8) : Statement (.trainingWindowClose q) := of_wellFormed _
theorem retryWindowTimer (q : Fin 8) : Statement (.retryWindowTimer q) := of_wellFormed _
theorem earlySignalDetected (pos : Fin 32) : Statement (.earlySignalDetected pos) := of_wellFormed _
theorem dataCodewordReceived (pos : Fin 32) (cw : Codeword) : Statement (.dataCodewordReceived pos cw) := of_wellFormed _
theorem fillCodewordReceived (pos : Fin 32) (tsel : BitVec 4) (tval : BitVec 12) : Statement (.fillCodewordReceived pos tsel tval) := of_wellFormed _
theorem lateBlockDeadline (pos : Fin 32) : Statement (.lateBlockDeadline pos) := of_wellFormed _
theorem timeMarkSend (q : Fin 8) : Statement (.timeMarkSend q) := of_wellFormed _
theorem stimulusCodewordSend (pos : Fin 32) : Statement (.stimulusCodewordSend pos) := of_wellFormed _
theorem controlResendTimeout (pos : Fin 32) : Statement (.controlResendTimeout pos) := of_wellFormed _
theorem laneEclipse (pos : Fin 32) (cause : EclipseCause) : Statement (.laneEclipse pos cause) := of_wellFormed _
theorem dlCodewordReceived (q : Fin 8) (cw : Codeword) : Statement (.dlCodewordReceived q cw) := of_wellFormed _
theorem epochEnd (pos : Fin 32) (r : EpochResult) : Statement (.epochEnd pos r) := of_wellFormed _
theorem shadowBuildComplete (pos : Fin 32) (outOfRange : Bool) : Statement (.shadowBuildComplete pos outOfRange) := of_wellFormed _
theorem injectResendTimeout (pos : Fin 32) : Statement (.injectResendTimeout pos) := of_wellFormed _
theorem positionSolveStart (pos : Fin 32) : Statement (.positionSolveStart pos) := of_wellFormed _
theorem solveComplete (pos : Fin 32) (estimates : Nat) : Statement (.solveComplete pos estimates) := of_wellFormed _
theorem powerUpReset : Statement (.powerUpReset) := of_wellFormed _
theorem perstAsserted : Statement (.perstAsserted) := of_wellFormed _
theorem vinBrownOut : Statement (.vinBrownOut) := of_wellFormed _
theorem resetRelease : Statement (.resetRelease) := of_wellFormed _
theorem geodeSelfTestComplete (g : Fin 8) (pass : Bool) : Statement (.geodeSelfTestComplete g pass) := of_wellFormed _
theorem ready : Statement (.ready) := of_wellFormed _
theorem hubReset : Statement (.hubReset) := of_wellFormed _
theorem hubResetComplete : Statement (.hubResetComplete) := of_wellFormed _
theorem geodeReset (g : Fin 8) : Statement (.geodeReset g) := of_wellFormed _
theorem tempRefresh (tj : BitVec 16) : Statement (.tempRefresh tj) := of_wellFormed _
theorem thermalTrip : Statement (.thermalTrip) := of_wellFormed _
theorem timerefLoss : Statement (.timerefLoss) := of_wellFormed _
theorem refclkFault : Statement (.refclkFault) := of_wellFormed _
theorem ppsEdge (err : Int) : Statement (.ppsEdge err) := of_wellFormed _
theorem ppsLockTimeout : Statement (.ppsLockTimeout) := of_wellFormed _
theorem irigBFrame (valid : Bool) (sec : BitVec 42) : Statement (.irigBFrame valid sec) := of_wellFormed _
theorem ppsOutPulse : Statement (.ppsOutPulse) := of_wellFormed _
theorem uartByteReceived (b : Byte) (framingError : Bool) : Statement (.uartByteReceived b framingError) := of_wellFormed _
theorem ver (p : Port) : Statement (.ver p) := of_wellFormed _
theorem state (p : Port) : Statement (.state p) := of_wellFormed _
theorem mr (p : Port) (a : Space) (n : Nat) : Statement (.mr p a n) := of_wellFormed _
theorem mw (p : Port) (a : Space) (vs : List Nat) : Statement (.mw p a vs) := of_wellFormed _
theorem reg (p : Port) (t : Target) (lvl : Option (Fin 4)) (r : RegName) (v : Option (BitVec 1792)) : Statement (.reg p t lvl r v) := of_wellFormed _
theorem halt (p : Port) (t : Target) : Statement (.halt p t) := of_wellFormed _
theorem monitorRun (p : Port) (t : Target) : Statement (.monitorRun p t) := of_wellFormed _
theorem step (p : Port) (t : Target) (n : Nat) : Statement (.step p t n) := of_wellFormed _
theorem brk (p : Port) (t : Target) (i : Fin 2) (addr : Option IAddr) : Statement (.brk p t i addr) := of_wellFormed _
theorem attn (p : Port) (t : Target) : Statement (.attn p t) := of_wellFormed _
theorem lode (p : Port) (slot : Fin 16) (mask : Byte) (bytes : List Byte) : Statement (.lode p slot mask bytes) := of_wellFormed _
theorem log (p : Port) (seq : Option U32) (n : Option Nat) : Statement (.log p seq n) := of_wellFormed _
theorem ctr (p : Port) (block : Fin 10) (live : Bool) : Statement (.ctr p block live) := of_wellFormed _
theorem fuse (p : Port) (idx : Byte) (v : Option Word) : Statement (.fuse p idx v) := of_wellFormed _
theorem faultrec (p : Port) (clr : Bool) : Statement (.faultrec p clr) := of_wellFormed _
theorem resetDev (p : Port) : Statement (.resetDev p) := of_wellFormed _
theorem resetHub (p : Port) : Statement (.resetHub p) := of_wellFormed _
theorem resetG (p : Port) (g : Fin 8) : Statement (.resetG p g) := of_wellFormed _
theorem resetC (p : Port) (g : Fin 8) (c : Fin 9) : Statement (.resetC p g c) := of_wellFormed _
theorem bypass (bits : List Bool) : Statement (.bypass bits) := of_wellFormed _
theorem idcode : Statement (.idcode) := of_wellFormed _
theorem samplePreload (bits : List Bool) : Statement (.samplePreload bits) := of_wellFormed _
theorem extest (bits : List Bool) : Statement (.extest bits) := of_wellFormed _
theorem debug : Statement (.debug) := of_wellFormed _
theorem flowControlCreditUpdate (credits : CreditGrant) : Statement (.flowControlCreditUpdate credits) := of_wellFormed _
theorem configurationRequest (r : CfgReq) : Statement (.configurationRequest r) := of_wellFormed _
theorem malertNDeasserted (g : Fin 8) : Statement (.malertNDeasserted g) := of_wellFormed _
theorem laneReferenceRestored : Statement (.laneReferenceRestored) := of_wellFormed _
theorem geodeResetComplete (g : Fin 8) : Statement (.geodeResetComplete g) := of_wellFormed _
theorem geodeMailboxMessage (g : Fin 8) (m : GeodeReport) : Statement (.geodeMailboxMessage g m) := of_wellFormed _

end Sys2Proof.Laws.Sited
end

