-- ==== Sys2Proof/Tests/Slice0.lean ====
section
/-! SUPPORT. Tests: an ill-formed term for each check of WellFormed, words of the spec's encodings, the queue, and for
every statement with hypotheses a state and operands that meet them. -/

namespace Sys2Proof.Tests
open Sys2Proof Sys2Proof.Machine

/-! ### Small states -/

/-- A thread whose next bundle stands at 0x10. -/
def thread : Thread :=
  { d := [(0, 0x64), (1, 7), (2, 0x2000), (3, 1)], a := [(0, 0x100), (1, 0x10020), (2, 0x400010), (3, 0x800005)]
    m := [(1, 3)], pc := 0x10, adv := 3, seq := 2, stat := 0x1800, spp := 0x100, splim := 0x200, spbase := 0x80 }

/-- A signal core that runs that thread at level k and owns the F file for it. -/
def sigCore (k : Nat) (t : Thread) : Core :=
  { Core.signalReset with
    threads := (List.replicate 4 ({} : Thread)).set k t, halted := false, run := .lvl k, l0st := k == 0, l1st := k == 1
    l2act := k == 2, l3act := k == 3, vpow := true, fownv := true, fown := k, evpend := 0 }

/-- A supervisor, and the hub's core, that run it in context k. -/
def supCore (k : Nat) (t : Thread) : Core :=
  { Core.supReset with
    threads := (List.replicate 8 ({} : Thread)).set k { t with tstate := .running, pri := 3 }, halted := false
    run := .lvl k, vpow := true }

/-- A device that has started, with one core replaced. -/
def dev (n : Nat) (c : Core) : State :=
  { State.reset with
    cores := State.reset.cores.set n c
    aon := { ({} : Aon) with inReset := false, devstate := .ready, stage := 5 } }

/-- Sites of whole bundles on signal core 0.0 and on supervisor 2. -/
def site : Site := ⟨.sig 0 0, 0, false, .last, false⟩
def siteS : Site := ⟨.sup 2, 0, false, .last, false⟩

/-- That core stands ready for any operation. -/
theorem ready_sig (op : Instr) : Quiet (dev 0 (sigCore 0 thread)) site op 0 (sigCore 0 thread) thread := by
  constructor <;> first | rfl | (intro h; exact absurd h (by decide)) | decide
theorem ready_sig2 (op : Instr) : Quiet (dev 0 (sigCore 2 thread)) site op 2 (sigCore 2 thread) thread := by
  constructor <;> first | rfl | (intro h; exact absurd h (by decide)) | decide
theorem ready_sig3 (op : Instr) : Quiet (dev 0 (sigCore 3 thread)) site op 3 (sigCore 3 thread) thread := by
  constructor <;> first | rfl | (intro h; exact absurd h (by decide)) | decide
theorem ready_sup (op : Instr) : Quiet (dev 74 (supCore 3 thread)) siteS op 3 (supCore 3 thread)
    { thread with tstate := .running, pri := 3 } := by
  constructor <;> first | rfl | (intro h; exact absurd h (by decide)) | decide

/-! ### Terms that WellFormed refuses, one for each check -/

theorem test_site_without_end : (Instr.nop ⟨.sig 0 0, 3, false, .unended, false⟩).wellFormed = false := by decide
theorem test_site_end_at_eight : (Instr.nop ⟨.sig 0 0, 7, false, .unended, false⟩).wellFormed = true := by decide
theorem test_no_short_form : (Instr.adc ⟨.sig 0 0, 0, true, .last, false⟩ ⟨1, 2, 3, 0⟩).wellFormed = false := by decide
theorem test_lsl_negative : (Instr.lsl site ⟨1, 2, 32⟩).wellFormed = false := by decide
theorem test_vasl_negative : (Instr.vasl site ⟨1, 2, 63⟩).wellFormed = false := by decide
theorem test_lsr_positive : (Instr.lsr site ⟨1, 2, 31⟩).wellFormed = false := by decide
theorem test_vasr_positive : (Instr.vasr site ⟨1, 2, 0⟩).wellFormed = false := by decide
theorem test_start_form_b : (Instr.expdS site ⟨0, 2, 0, 0⟩).wellFormed = false := by decide
theorem test_plain_form_b : (Instr.vmaxir site ⟨0, 2, 0, 1⟩).wellFormed = false := by decide
theorem test_context_dispatch_signal : (Instr.contextDispatch (.sig 0 0)).wellFormed = false := by decide
theorem test_channel_16 : (Instr.start (.geode 0) 16).wellFormed = false := by decide
theorem test_reserved_cmd_2 : (Instr.dmaCommandReserved .host 0 2).wellFormed = false := by decide
theorem test_completion_cause_5 : (Instr.hostReadCompletion 0 ⟨0, .failed 5⟩).wellFormed = false := by decide
theorem test_lane_config_three : (Instr.laneConfig ⟨0, 0, 0, false⟩ 0 0 [0, 0, 0]).wellFormed = false := by decide
theorem test_record_short : (Instr.assayRecordRead 0 (.bytes [0])).wellFormed = false := by decide
theorem test_alert_five : (Instr.malertNAsserted 0 [none, none, none, none, none]).wellFormed = false := by decide
theorem test_framed_rate_3 : (Instr.laneFramed 0 3).wellFormed = false := by decide
theorem test_codeword_corrected_16 :
    (Instr.dataCodewordReceived 0 (.decoded 0 16)).wellFormed = false := by decide
theorem test_retrain_gen_6 : (Instr.linkRetrain 6 4).wellFormed = false := by decide
theorem test_retrain_width_3 : (Instr.linkRetrain 5 3).wellFormed = false := by decide
theorem test_edge_far : (Instr.ppsEdge (-500000001)).wellFormed = false := by decide
theorem test_target_context : (Instr.halt .uart ⟨.sig 0 0, some 0⟩).wellFormed = false := by decide
theorem test_target_context_8 : (Instr.attn .jtag ⟨.sup 0, some 8⟩).wellFormed = false := by decide

/-! ### Words of the spec's encodings (R222, R223, R231) -/

/-- R222, the worked bundle at 0x0180: LD D4, (A2)+ in A0. -/
theorem test_decode_ld : decodeLong site 0x0024220 = some (.ld site ⟨.a0, 4, 2, 1, 0⟩) := by decide
/-- The same bundle: MAC AC0, D6, D5. -/
theorem test_decode_mac : decodeLong site 0x14A0314 = some (.mac site ⟨0, 6, 5, 0⟩) := by decide
/-- The same bundle: short ADD D1, D1, D2 and short SIGNAL #5 in syllable 2. -/
theorem test_decode_pair : decodeSyllable (.sig 0 0) 2 0xD815845 =
    [.add ⟨.sig 0 0, 2, true, .more, false⟩ (.reg ⟨1, 1, 2, 0⟩), .signal ⟨.sig 0 0, 2, true, .more, false⟩ 5] := by decide
/-- R241's worked entry: U3 with P0 = 9, P1 = 10, P2 = 11 and P3 = 2. -/
theorem test_decode_user : decodeSyllable (.sig 0 0) 0 0xB1A54B2 =
    [.userDecodeOperation ⟨.sig 0 0, 0, false, .more, false⟩ 3 9 10 11 2] := by decide
/-- R241's worked entry: ASR #1 is the right shift with I = −1. -/
theorem test_decode_asr : decodeLong site 0x132007E = some (.asr site ⟨0, 0, 63⟩) := by decide
/-- R228: VADD V3, V4, V5 is CLS 011, OPC 0x00 with X 3, Y 4, Z 5. -/
theorem test_decode_vadd : decodeLong site 0b0_0_011_000000_00011_00100_00101_00 = some (.vadd site ⟨3, 4, 5, 0⟩) := by decide
/-- R229: FADD F1, F2, F3 is CLS 100, OPC 0x00 with X 1, Y 2, Z 3. -/
theorem test_decode_fadd : decodeLong site 0b0_0_100_000000_00001_00010_00011_00 = some (.fadd site ⟨1, 2, 3, 0⟩) := by decide
/-- R230: BRA with DISP 5 is CLS 101, OPC 0x02. -/
theorem test_decode_bra : decodeLong site 0b0_0_101_000010_0_00_00000000000101 = some (.bra site false 5) := by decide
/-- R230: LOOP #259 with DISP 7 is OPC 0x0D: COUNT − 1 is 01 joined to 00000010. -/
theorem test_decode_loop : decodeLong site 0b0_0_101_001101_00000010_000000111 = some (.loop site (.imm 0x102 7)) := by decide
/-- R231: an opcode that the map leaves undefined has no operation. -/
theorem test_decode_none : decodeLong site 0b0_0_101_111111_00000000000000000 = none := by decide
theorem test_encode_mac : encodeLong (.mac site ⟨0, 6, 5, 0⟩) = some 0x14A0314 := by decide

/-! ### What the statements about operations assume -/

def noOp : R3 := ⟨0, 0, 0, 0⟩
def startOp : R3 := ⟨0, 0, 0, 1⟩

/-- Operands within every range that the statements about words, pairs, accumulators, vectors and F28 name, with B = 0 and
with B = 1. -/
theorem witness_operands : noOp.b = 0 ∧ startOp.b = 1 ∧ (∀ f ∈ [noOp, startOp], f.x = 0 ∧ f.y = 0 ∧ f.z = 0 ∧ f.x.toNat % 2 = 0 ∧
    f.y.toNat % 2 = 0 ∧ f.z.toNat % 2 = 0 ∧ f.x.toNat < 4 ∧ f.y.toNat < 4 ∧ f.z.toNat < 4) ∧
    (⟨0, 0, 32⟩ : RI6).i.toNat ≤ 32 := by decide

/-- The largest operands of those ranges. -/
theorem witness_operands_top : (⟨31, 31, 31, 0⟩ : R3).b = 0 ∧ (⟨30, 30, 30, 0⟩ : R3).x.toNat % 2 = 0 ∧
    (⟨15, 15, 15, 0⟩ : R3).z.toNat < 16 ∧ (⟨6, 7, 3, 1⟩ : R3).x.toNat < 8 ∧ (⟨3, 15, 14, 0⟩ : R3).x.toNat < 4 := by decide

/-- The vector unit is ready at levels L0 and L1 (here L0) and on a supervisor, the F file is at hand, MODE.WIDE is 0. -/
theorem witness_vec_sig : VecReady (sigCore 0 thread) 0 := ⟨fun _ => by decide, rfl⟩
theorem witness_vec_sup : VecReady (supCore 3 thread) 3 := ⟨fun h => absurd h (by decide), rfl⟩
theorem witness_f_sig : FReady (sigCore 2 thread) 2 thread := fun _ => by decide
theorem witness_f_sup : FReady (supCore 3 thread) 3 thread := fun h => absurd h (by decide)
theorem witness_wide : thread.wide = false ∧ ({ thread with mode := 0x3FFF } : Thread).wide = true := by decide

/-- System registers for MVS: STAT and a core-level register at level L3, a double word, FSTAT with the F file. -/
theorem witness_mvs : sysDefined .signal 1 = some false ∧ sysHeld .signal 0 1 = true ∧ sysCoreLevel .signal 0x25 = true ∧
    sysDefined .signal 2 = some false ∧ sysHeld .signal 0 2 = true := by decide
theorem witness_tget : (supCore 3 thread).kind ≠ .signal := by decide

/-- Core-local addresses: the first and last word of X through A0 and of Y through A1. -/
theorem witness_local : amode thread 0 0 0 1 = some (0x100, none, false) ∧ localPlace .a0 0x100 = some (false, 0x100) ∧
    localPlace .a0 (upd thread 0 0x100 1).1 = some (false, 0x101) ∧ amode thread 1 0 0 2 = some (0x10020, none, false) ∧
    localPlace .a1 0x10020 = some (true, 0x20) ∧ localPlace .a1 (upd thread 1 0x10020 1).1 = some (true, 0x21) ∧
    localPlace .a0 0 = some (false, 0) ∧ localPlace .a0 0xFFFF = some (false, 0xFFFF) ∧ localPlace .a0 0x10000 = none ∧
    localPlace .a1 0x10000 = some (true, 0) ∧ localPlace .a1 0x1FFFF = some (true, 0xFFFF) := by decide
def threadV : Thread := { thread with vl := 4 }
theorem witness_local_vector : vecMode threadV ⟨.a0, 1, 0, 1, 0⟩ = some (0x100, some 0x104, false) ∧
    (∀ e ∈ (vecAddrs threadV 0 0 (fun n => n)).1, (localPlace .a0 e.2).isSome = true) ∧
    (∀ e ∈ (vecAddrs threadV 0 0 (fun n => n * 3)).1, (localPlace .a0 e.2).isSome = true) := by decide

/-- A3 points at hub memory; A2 at a page of shared memory that is not mapped. -/
theorem witness_window : coreGeode site.core ≠ none ∧ amode thread 3 0 0 1 = some (0x800005, none, false) ∧
    offsetOf (target (viewOf site (.ld site ⟨.a0, 1, 3, 0, 0⟩) 0 (sigCore 0 thread) thread) false false 0x800005) =
      some (true, 0x800005) ∧
    offsetOf (target (viewOf siteS (.st siteS ⟨.a1, 1, 2, 0, 0⟩) 3 (supCore 3 thread) thread) true true 0x400010) =
      some (false, 16) := by decide

/-- PALLOC and PFREE: A2 points into the page window; a signal core and a supervisor may ask. -/
theorem witness_page_request : 0x400000 ≤ (smGet thread.a 2).toNat ∧ (smGet thread.a 2).toNat < 0x800000 ∧
    (sigCore 0 thread).kind ≠ .hub ∧ (supCore 3 thread).kind ≠ .hub := by decide

/-- Conditions that hold and that do not, for B; STAT.PB clear and set. -/
theorem witness_branch : condition thread 0 = some false ∧ condition thread 1 = some true ∧ condition thread 15 = none ∧
    ({ thread with stat := 0x1000 } : Thread).pb = false ∧ thread.pb = true ∧
    smWf (sigCore 0 thread).dirctr = true := by decide

/-- RES = 2 with room to spill and without, RES = 0 with a spilled block and without. -/
theorem witness_calls : thread.res = 0 ∧ thread.spbase.toNat + 16 ≤ thread.spp.toNat ∧
    ({ thread with res := 2 } : Thread).res = 2 ∧ thread.spp.toNat + 16 ≤ thread.splim.toNat ∧
    ({ thread with res := 1 } : Thread).res ≠ 2 ∧ ({ thread with res := 1 } : Thread).res ≠ 0 ∧
    ({ thread with spp := 0x1F1 } : Thread).splim.toNat < (0x1F1#17).toNat + 16 ∧
    (0x8F : Nat) < thread.spbase.toNat + 16 := by decide

/-- LOOP and REP: nothing on its way, an end behind the loop, counts of 0 and above. -/
theorem witness_loops : thread.flight = [] ∧ site.syl.toNat + 1 ≤ (1#9).toNat ∧ thread.pc.toNat + 0x1FF ≤ 0x3FFF ∧
    (thread.rd 4).toNat = 0 ∧ (thread.rd 1).toNat ≠ 0 ∧ site.syl = 0 ∧ (1023#10).toNat + 1 ≤ 1024 := by
  decide

/-- The same cores with a thread changed stand ready as well. -/
def res2 : Thread := { thread with res := 2 }
theorem ready_res2 (op : Instr) : Quiet (dev 0 (sigCore 0 res2)) site op 0 (sigCore 0 res2) res2 := by
  constructor <;> first | rfl | (intro h; exact absurd h (by decide)) | decide
def full2 : Thread := { thread with res := 2, spp := 0x1F1 }
theorem ready_full2 (op : Instr) : Quiet (dev 0 (sigCore 0 full2)) site op 0 (sigCore 0 full2) full2 := by
  constructor <;> first | rfl | (intro h; exact absurd h (by decide)) | decide
def bare0 : Thread := { thread with spp := 0x8F }
theorem ready_bare0 (op : Instr) : Quiet (dev 0 (sigCore 0 bare0)) site op 0 (sigCore 0 bare0) bare0 := by
  constructor <;> first | rfl | (intro h; exact absurd h (by decide)) | decide

/-- WAITE with no line pending; RTE of level L2, and of level L3 to level L0. -/
theorem witness_waits : lineFor (sigCore 0 thread) 0 = false ∧ lineFor (supCore 3 thread) 3 = false ∧
    thread.xcause.toNat / 1024 % 4 = 0 ∧ bitOf thread.xcause 12 = false ∧ bitOf thread.xcause 13 = false ∧
    (sigCore 3 thread).threads[0]? = some ({} : Thread) := by decide

/-- A supervisor whose context 5 is stopped, and one where it is faulted. -/
def supWith (u : Thread) : Core := { supCore 3 thread with threads := (supCore 3 thread).threads.set 5 u }
theorem ready_with (op : Instr) : Quiet (dev 74 (supWith { tstate := .faulted })) siteS op 3 (supWith { tstate := .faulted })
    { thread with tstate := .running, pri := 3 } := by
  constructor <;> first | rfl | (intro h; exact absurd h (by decide)) | decide
theorem witness_tasks : (supCore 3 thread).kind ≠ .signal ∧ 5 < ctxCount (supCore 3 thread).kind ∧
    ((supCore 3 thread).threads[5]?).map (fun x => x.tstate) = some .stopped ∧
    (supWith { tstate := .faulted }).threads[5]? = some { tstate := .faulted } ∧
    bitOf ({ tstate := .faulted } : Thread).xcause 12 = false ∧ (thread.rd 8).toNat % 64 = 0 ∧
    ({ thread with d := [(8, 5)] } : Thread).rd 8 = 5 := by decide

/-- Entry U3 of the user decode table with one micro-operation, SUB with X, Y, Z from P0, P1, P2 (R241's words). -/
def coreU : Core := { sigCore 0 thread with udt := [(78, 0x2000), (81, 0x410), (82, 0x53)] }
theorem ready_user (op : Instr) : Quiet (dev 0 coreU) site op 0 coreU thread := by
  constructor <;> first | rfl | (intro h; exact absurd h (by decide)) | decide
def subU : Instr := .sub { site with fin := .more } (.reg ⟨9, 10, 11, 0⟩)
theorem witness_user : udtValid coreU.udt 3 = true ∧ udtLen coreU.udt 3 = 1 ∧
    decodeLong { site with short := false, fin := .more, rsv := false } (microWord coreU.udt 3 0 [9, 10, 11, 2]) = some subU := by
  decide
theorem witness_user_out : ∃ j g, opBase subU = some (j, g) ∧ j.rsv = false ∧
    (let o := g (viewOf site (.userDecodeOperation site 3 9 10 11 2) 0 coreU thread)
     o.acts = (dTo thread 9 0 1 :: flagsTo [(.n, false), (.z, true), (.c, true), (.v, false)] 1).map (fun w => .wr w.1 w.2) ∧
       o.excs = [] ∧ o.vec = false ∧ o.fuse = false) := ⟨_, _, rfl, rfl, by decide⟩

/-- Exceptions: B that is not 0, an odd pair, an undefined and a core-level system register, an unmapped page, a reserved
addressing mode, a window block that does not fit. -/
theorem witness_exceptions : startOp.b ≠ 0 ∧ (⟨1, 0, 0, 0⟩ : R3).x.toNat % 2 = 1 ∧ sysDefined .signal 0xFF = none ∧
    sysCoreLevel .signal 0x25 = true ∧ sysDefined .signal 0x25 = some false ∧ amode thread 2 0 0 1 = some (0x400010, none, false) ∧
    target (viewOf site (.ld site ⟨.a0, 1, 2, 0, 0⟩) 0 (sigCore 0 thread) thread) false false 0x400010 = .pageFault ∧
    amode thread 2 5 0 1 = none ∧ res2.res = 2 ∧ full2.splim.toNat < full2.spp.toNat + 16 ∧
    bare0.spp.toNat < bare0.spbase.toNat + 16 ∧ (sigCore 0 thread).threads[3]? = some ({} : Thread) := by decide

/-! ### What the statements about cores, the fabric and memories assume -/

def unitP : UnitPend := ⟨0, 1, 9, [.d 4 7]⟩
/-- A divider and an F divider owe results to the running level, a divider to another; loads have come back; a timer and
the L0 window run; the vector unit wakes; a lazy F switch waits. -/
theorem witness_core_events :
    (∀ c ∈ [{ sigCore 0 thread with divu := some unitP }, { sigCore 0 thread with fdivu := some unitP },
      { sigCore 0 thread with stall := some .lazyF }], c.live = true ∧ c.run = .lvl 0 ∧ c.threads[0]? = some thread) ∧
    ({ sigCore 0 thread with divu := some { unitP with tid := 1 } } : Core).run ≠ .lvl 1 ∧
    (sigCore 0 thread).threads[1]? = some ({} : Thread) ∧
    ({ sigCore 0 thread with inbox := [(0, 3, 1, 9), (1, 3, 2, 8), (0, 3, 0, 7)] } : Core).inbox ≠ [] ∧
    ({ sigCore 0 thread with tmr := 1 } : Core).tmr ≠ 0 ∧ ({ sigCore 0 thread with l0win := 1 } : Core).l0win.toNat % 2 ^ 14 ≠ 0 ∧
    ({ sigCore 0 thread with vwaking := true, vpin := true } : Core).vwaking = true ∧ (sigCore 0 thread).vpin = false := by
  decide

/-- Level L1, and with L0's window closed L1 before L0; a pending line of level L2; a context of higher priority; a trap. -/
def coreL1 : Core := { sigCore 0 thread with l1st := true }
def coreL2 : Core := { coreL1 with evpend := 1, evcfg := [(0, 0x4)], l2vec := 0x55, l0open := true }
def coreCtx : Core := supWith { tstate := .ready, pri := 3 }
def coreTrap : Core := onThread (sigCore 0 thread) 0 (fun t => { t with trapDue := some 5 })
theorem witness_dispatch :
    ([3, 2] ++ (if coreL1.l0open then [0, 1] else [1, 0])).find? (readyLevel coreL1) = some 1 ∧
    ([3, 2] ++ (if coreL2.l0open then [0, 1] else [1, 0])).find? (readyLevel coreL2) = some 2 ∧
    dispatchPoint thread = true ∧ thread.stopReq = false ∧ thread.trapDue = none ∧
    (∀ c ∈ [coreL1, coreL2, coreTrap], c.live = true ∧ c.stall = none ∧ c.fresh = false ∧ c.run = .lvl 0 ∧ c.markOut = []) ∧
    pickCtx { coreCtx with threads := coreCtx.threads.set 3 { thread with tstate := .running, pri := 1 } } = some 5 ∧
    (coreTrap.threads[0]?).bind (fun t => t.trapDue) = some 5 ∧ coreCtx.xctx ≠ 3 := by decide

/-- A request of core 0 to the bank of word 0x20; it is owned by the core's slot, free for all, or goes to the hub. -/
def req0 : MemReq := ⟨1, .core 0, 0, 1, [(0, 0x20), (1, 0x21)]⟩
def bank0 : BitVec 4 := BitVec.ofNat 4 (bankOf 0x20)
def geodeR : Geode := { State.reset.geode 0 with reqs := [req0], greqs := [req0], rr := 12 }
theorem witness_requests :
    (let y := { geodeR with bst := smPut geodeR.bst (16 * 3 + bank0.toNat) 0xF }
     bstAt y.bst (16 * 3 + bank0.toNat) ≠ 0xF ∧ ownedReq y bank0.toNat (bstAt y.bst (16 * 3 + bank0.toNat)).toNat = some req0) ∧
    bstAt geodeR.bst (16 * 3 + bank0.toNat) = 0xF ∧ ownedReq geodeR bank0.toNat ((geodeR.rr + 1 + 0) % 13) = some req0 ∧
    geodeR.mem.corr = [] ∧ State.reset.hub.mem.unc = [] ∧ geodeR.bstE = {} ∧ (sigCore 0 thread).lateReqs = [] ∧
    (sigCore 0 thread).sb = [] ∧ (State.reset.hub.rrG + 1 + 0) % 8 = 0 ∧ State.reset.hubAsks 3 = false := by decide

/-- A store to shared memory, a store to hub memory and SIGNAL markers at the head of a store buffer. -/
theorem witness_stores : (∀ w ∈ [(5, (6 : Word)), (0x1FFFFF, 8)], w.1 < 0x200000) ∧
    (∀ w ∈ [(0x800000, (6 : Word)), (0x87FFFF, 8)], 0x800000 ≤ w.1 ∧ w.1 < 0x880000) ∧
    (State.reset.geode 0).reqs = [] ∧ coreGeode (.sig 0 0) = some 0 ∧ coreGeode .hub = none ∧
    ownerCode geodeR (.core 0) = 0 ∧ (State.reset.geode 0).greqs = [] ∧
    bstAt (smPut (State.reset.geode 0).bst (bankOf 5) 0xF) (bankOf 5) = BitVec.ofNat 4 (ownerCode geodeR (.core 0)) ∧
    bstAt (State.reset.geode 0).bst (bankOf 5) = 0xF ∧ (12 + 1 + 0) % 13 = ownerCode geodeR (.core 0) := by decide
/-- A table that leaves bank 0 no free slot and gives core 0 none. -/
theorem witness_no_slot : ∀ col, col < 16 →
    bstAt ((List.range 16).map (fun k => (16 * k, 0xE#4))) (16 * col + 0) = 1 := by decide

/-- Page requests: an entry that is mapped, one that is not with and without a page in the pool; a marker that arrives;
pages that are owed a marker and one that is not. -/
theorem witness_pages : bitOf (0x2007 : Word) 13 = true ∧ bitOf (0 : Word) 13 = false ∧
    markerArrives { State.reset.geode 0 with markers := [⟨0, 5, 0⟩] } (sigCore 0 thread) ⟨0, 5, 0⟩ = true ∧
    (∀ n ∈ [6, 5], n ∈ [5, 6]) ∧ 8 ∉ [5, 6] ∧ Memory.wf (State.reset.geode 0).mem = true := by decide

/-- Scrubbing: words that no uncorrectable error lies in, one that it does, and the last row but one of shared memory. -/
theorem witness_scrub : (sigCore 0 thread).scrubX ∉ (sigCore 0 thread).x.unc ∧ 65535 ∈ [65535] ∧
    (∀ a ∈ rowWords 0x1FFFC0, a ∉ (State.reset.geode 0).mem.unc) ∧ 0x1FFFC0 + 32 < 0x200000 := by decide

/-- The port: a core that is halted and one that runs; a header with V = 0, a valid entry and one that is refused; the
registers of each range. -/
theorem witness_port : ({ sigCore 0 thread with halted := true } : Core).isHalted = true ∧ (sigCore 0 thread).isHalted = false ∧
    bitOf (0 : Word) 13 = false ∧ udtWhy coreU.udt 3 0x2020 = 0 ∧ udtWhy [] 3 0x2000 ≠ 0 ∧
    (0x200#12).toNat < 0x300 ∧ 0x200 ≤ (0x2FF#12).toNat ∧ (0x1FF#12).toNat < 0x200 ∧ 0x100 ≤ (0x100#12).toNat := by decide

/-! ### What the statements about time, geodes and channels assume -/

/-- A device time in milliseconds, rounded up. -/
def msec (n : Nat) : DTime := BitVec.ofNat 122 (n * 2 ^ 80 / 1000 + 1)
def atStage (n : Nat) (t : DTime) : Aon := { (dev 0 (sigCore 0 thread)).aon with stage := n, time := t }
theorem witness_ticks : State.reset.aon.inReset = true ∧ State.reset.aon.startKind = 1 ∧
    (∀ p ∈ [(0, 15), (1, 30), (2, 40), (3, 80), (4, 100)], let a := atStage p.1 (msec p.2)
      a.inReset = false ∧ a.ppsHigh = false ∧ a.stage = p.1 ∧
        p.2 * 2 ^ 80 ≤ 1000 * ((a.time + BitVec.ofNat 122 a.rate).toNat - a.started.toNat)) ∧
    (let a := atStage 5 (msec 5100); 2 ^ 80 ≤ 10 * ((a.time + BitVec.ofNat 122 a.rate).toNat % 2 ^ 80)) := by decide

/-- Beacon 3 is not due at time 0 and is due after 1 ms. -/
theorem witness_beacons : (now56 (atStage 5 0) : Int) < beaconTime (dev 0 (sigCore 0 thread)).aon 3 ∧
    (beaconTime (dev 0 (sigCore 0 thread)).aon 3 ≤ (now56 (atStage 5 (msec 1)) : Int)) ∧
    (dev 0 (sigCore 0 thread)).jobOn 0 = none ∧ (dev 0 (sigCore 0 thread)).hub.jobs = [] ∧
    (∀ f ∈ (dev 0 (sigCore 0 thread)).fns, f.flr = false) := by decide

/-- A job that runs on geode 1, fit for the statements that need one. -/
def bindL : Binding := ⟨0, 0, 0x80, 4, 0, 0, 0, 5, 1, 0, 0, 0⟩
def job5 : Job :=
  { id := 5, fn := 3, slot := 2, vec := 4, geodes := [1], state := .running, openEnd := true, start := 79, first := 80, last := 0
    bindings := [bindL], k := 4, yf := 2, bp := 16, kiw := 8, ds := 3 }
def mailM : MailMsg := .lode 2 0 79
def geodeJ : State :=
  (((dev 9 { sigCore 0 thread with svc := true, attn := true, checkpointDue := true }).onHub (fun h =>
    { h with jobs := [job5], mail := [(2, mailM), (1, mailM), (1, .release 2 90)] })).onGeode 1 (fun x =>
    { x with lodeSlot := some 2 })).onCoreAt 73 (fun d => { d with halted := false })
/-- The message at the front of geode 1's, a core that owes its checkpoint and asks for attention, with the spare at hand
before the first frame and behind it, and with a slot lost. -/
theorem witness_mailboxes : (geodeJ.coreAt 73).isHalted = false ∧ geodeJ.jobOn 1 = some job5 ∧
    geodeJ.hub.mail.find? (fun e => e.1 == 1) = some (1, mailM) ∧ geodeJ.hub.halted = false ∧ geodeJ.aon.islandsOff = false ∧
    geodeJ.hub.log.length < 4095 ∧ (geodeJ.coreAt 9).svc = true ∧ (geodeJ.coreAt 9).stop = none ∧
    (geodeJ.coreAt 9).checkpointDue = true ∧ (geodeJ.coreAt 9).attn = true ∧ (geodeJ.coreAt 9).l3act = false ∧
    (geodeJ.geode 1).lodeSlot.isSome = true ∧ (geodeJ.geode 1).role.contains 0 = true ∧ (geodeJ.geode 1).lost = [] ∧
    (geodeJ.geode 1).spare.isSome = true ∧ (∀ sp, (geodeJ.geode 1).spare = some sp → sp < 9) ∧
    (geodeJ.geode 1).eclipse = none ∧ atOrAfter ((geodeJ.geode 1).beacon.getD 0) job5.first = false ∧
    atOrAfter (80 : U32) job5.first = true ∧ atOrAfter (79 : U32) job5.first = false ∧ job5.releaseAt = none := by
  decide
def geodeE : Geode :=
  { geodeJ.geode 1 with eclipse := some ⟨0, 0, 3, false, none, 4⟩, spare := some 8, eclipsed := [0], retired := [1] }
theorem witness_spare : geodeE.eclipse = some ⟨0, 0, 3, false, none, 4⟩ ∧ geodeE.spare = some 8 ∧ (8 : Nat) < 9 ∧
    geodeE.eclipse.map (fun e => e.copied) = some false ∧ 0 ∈ geodeE.eclipsed ∧ (geodeJ.geode 1).spare ≠ some 0 ∧
    0 ∉ geodeE.retired ∧ (sigCore 0 thread).held = false := by decide

/-- The command words of a CCB that START takes, and one that it refuses. -/
def ccb : List Word := [1, 0, 0x400, 0, 4, 0, 100, 0x1000, 0, 4, 1, 0, 0, 0, 0, 0, 0, 0, 0, 0, 0, 0, 0, 0]
def chanR : Chan := { ({} : Chan) with state := .running, cqlen := 4, cqbase := 0x2000, pbase := 0x400, plen := 8, budget := 100 }
theorem witness_dma_commands : startOk (.geode 0) ccb = true ∧ startOk .host ccb = true ∧
    startOk (.geode 0) (ccb.set 17 1) = false ∧ chBusy chanR = true ∧ chBusy {} = false ∧ chanOk (.geode 0) 15 = true ∧
    chanOk .host 31 = true ∧ (1 : Word).toNat % 8 = 1 ∧ (2 : Word).toNat % 8 = 2 ∧ (7 : Word).toNat % 8 = (7#3).toNat ∧
    chanR.reads = [] ∧ ({ chanR with reads := [⟨32, 0, none⟩] } : Chan).reads ≠ [] ∧ (dev 0 (sigCore 0 thread)).hub.mem.unc = [] ∧
    queueFull { chanR with state := .blocked, cqhead := 1, cqtail := 0 } = true ∧
    queueFull { chanR with state := .blocked, cqhead := 0, cqtail := 0 } = false := by decide

/-- Channel 5 of geode 0 with an instruction: it has the beat that the instruction takes. -/
def withChan (c : Chan) : State := (dev 0 (sigCore 0 thread)).onGeode 0 (fun x => { x with chans := modAt x.chans 5 (fun _ => c) })
def dmaOp (o a : Nat) : DWord := BitVec.ofNat 28 (o * 2 ^ 24 + a)
theorem witness_dma_wins :
    (∀ p ∈ [(2, BeatKind.loop), (4, .wait), (5, .signal), (6, .recBeat), (7, .halt)],
      (withChan { chanR with instr := some [dmaOp p.1 3], latch := 8 }).wins (.geode 0) 5 p.2 = true ∧
      (withChan { chanR with instr := some [dmaOp p.1 3], latch := 8, bused := 100 }).wins (.geode 0) 5 p.2 = true) ∧
    (withChan { chanR with instr := some [dmaOp 3 0], loops := [(2, 1)] }).wins (.geode 0) 5 .endl = true ∧
    (withChan { chanR with owes := some ⟨3, 0, 4, 4, false, false, false⟩ }).wins (.geode 0) 5 .record = true ∧
    overBudget chanR = false ∧ overBudget { chanR with bused := 100 } = true ∧ opCode [dmaOp 4 3] = 4 ∧
    bitOf chanR.latch (dwField (dmaOp 4 3) 0 4) = false ∧
    queueFull { chanR with cqhead := 0, cqtail := 3 } = true ∧ chanR.cqloc = false ∧ chanR.stopDue = false := by decide
/-- Column 0 of geode 0's table gives every bank to the engine (requester 0xA). -/
def slotted (s : State) : State := s.onGeode 0 (fun x => { x with bst := (List.range 16).map (fun b => (b, 0x5#4)) })
theorem witness_dma_slots : (slotted (withChan chanR)).dmaSlots (.geode 0) = true ∧
    (slotted (withChan { chanR with instr := some [dmaOp 6 3] })).wins (.geode 0) 5 .recBeat = true ∧
    (∀ a ∈ recAddrs chanR, 0x200 ≤ a ∧ (a < 0x7F000 ∨ 0x7F400 ≤ a) ∧ a < engSize (.geode 0)) := by decide
theorem witness_dma_fetch : programCause (.geode 0) chanR [dmaOp 2 5] = none ∧ programCause (.geode 0) chanR [dmaOp 0 0] = some 1 ∧
    chanR.state = .running ∧ chanR.instr = none ∧ chanR.owes = none := by decide

/-- MOVE of 70 units between places of shared memory, and from host memory. -/
def moveI : List DWord := [0x1000500, 69, 0x3000, 0x5000, 0]
def moveC : Chan := { chanR with instr := some moveI }
def hostC : Chan := { chanR with instr := some [0x1000500, 69, 0x8000040, 0x5000, 0] }
def withHost (c : Chan) : State :=
  ((dev 0 (sigCore 0 thread)).onHub (fun h => { h with chans := modAt h.chans 5 (fun _ => c) })).onLink (fun l =>
    { l with gen := 5, width := 4, credits := 1000, npCredits := 4 })
theorem witness_moves : overBudget (atBeat (.geode 0) moveC) = false ∧
    ((withChan moveC).chanStep (.geode 0) 5 (atBeat (.geode 0))).beatCause (.geode 0) 5 = none ∧
    (withChan moveC).wins (.geode 0) 5 .data = true ∧
    ((withChan moveC).chanStepU (.geode 0) 5 [.done, .hold] (atBeat (.geode 0))).beatClaim (.geode 0) 5 ≠ none := by decide
theorem witness_host_move : overBudget (atBeat .host hostC) = false ∧
    ((withHost hostC).chanStep .host 5 (atBeat .host)).beatCause .host 5 = none ∧ (withHost hostC).wins .host 5 .hostRead = true ∧
    ({ hostC with reads := [⟨32, 0, none⟩] } : Chan).reads ≠ [] ∧
    ((withHost hostC).chanStepU .host 5 [.done, .hold] (atBeat .host)).beatClaim .host 5 ≠ none ∧
    ([⟨32, 1, none⟩] : List HostRd)[0]? = some ⟨32, 1, none⟩ ∧ 0 + 32 < (mvOf moveI).count := by decide

/-- A MOVE whose units are all taken and whose last bits wait to be written. -/
def drainC : Chan := { moveC with move := some ⟨70, 3⟩, done := 70, nbits := 28, sptr := 0x3000, dptr := 0x5000 }
theorem witness_drain : overBudget (atBeat (.geode 0) drainC) = false ∧
    ((withChan drainC).chanStep (.geode 0) 5 (atBeat (.geode 0))).beatCause (.geode 0) 5 = none ∧
    (withChan drainC).wins (.geode 0) 5 .drain = true ∧
    ((withChan drainC).chanStepU (.geode 0) 5 [] (atBeat (.geode 0))).beatClaim (.geode 0) 5 ≠ none := by decide

/-! ### What the statements about the host assume -/

def hdr (f : Fin 8) (j : U16) : CmdHdr := ⟨f, 0x55, j, false⟩

/-- A lode of one geode and two sections, the resources and a section of the device link's variant. -/
def lodeL : List Byte :=
  [0, 0, 0, 0, 0, 0, 2, 0] ++ List.replicate 16 0 ++ [1, 0, 4, 0, 0, 0, 1, 0, 0, 0x10, 0, 0, 0, 0, 0, 0] ++
    List.replicate 24 0 ++ [0xC, 0, 0xFF, 0xFF, 0, 0, 0, 0, 96, 0, 0, 0, 24, 0, 0, 0] ++
    [1, 0, 0, 0, 0x20, 0, 0, 0, 120, 0, 0, 0, 0, 0, 0, 0] ++
    [2, 0, 0, 0, 3, 0, 0, 0, 8, 0, 0, 0, 0, 4, 0, 0, 0, 0, 0, 0, 1, 0, 0, 0]

/-- A device that is READY, with rings of functions 0 and 3 enabled, a verified lode in slot 2 and quad 1 a device link. -/
def fnR (x : Fn) : Fn := { x with rren := true, rrbase := 0x1000, rrlog2 := 16, cren := true, crlog2 := 16 }
def hostS : State :=
  ((((((dev 80 { Core.supReset with halted := false }).onAon (fun a =>
    { a with lastBeacon := some 77, time := 5#122 <<< 80, fuseLoaded := true })).onLink (fun l =>
    { l with credits := 1000, vfs := 7, gen := 5, width := 4, cfgReady := true })).onFn 0 fnR).onFn 3 fnR).onQuad 1 (fun q =>
    { q with dlMode := true, dlup := true })).onHub (fun h =>
    { h with slots := modAt h.slots 2 (fun _ => { state := .verified, owner := 0, mask := 2, bytes := lodeL, len := 120 }) })
def jobS : State := hostS.onHub (fun h => { h with jobs := [job5] })

theorem witness_host_serves : hostS.serves (hdr 0 0) false ∧ hostS.serves (hdr 3 5) true :=
  ⟨⟨by decide, rfl, by decide⟩, ⟨by decide, rfl, by decide⟩⟩
theorem witness_host_queries : (hostS.slotOf 2).waiting = none ∧ (hostS.slotOf 2).report = none ∧
    jobS.jobOf (hdr 3 5).job = some job5 ∧ job5.fn = (hdr 3 5).fn.val ∧ jobS.boundAt job5.id = [] ∧
    (1 ≤ (4096#16).toNat ∧ (4096#16).toNat ≤ 4096) ∧ replyFits (hostS.fn 0) (8 + 48 * 1) = true := by decide

theorem witness_host_settings : hostS.quadBound 1 = false ∧ 13500 ≤ admissible hostS.link ∧ (List.replicate 32 (7 : Byte)).length = 32 ∧
    0x7FFC0 + 64 ≤ 0x80000 ∧ replyFits (hostS.fn 0) (packLen 1 64) = true ∧ hostS.hub.mem.corr = [] ∧
    (hostS.pos 5).mod = .absent := by decide
def quadB : State := hostS.onQuad 2 (fun q => { q with streams := modAt q.streams 0 (fun _ => some (streamFor lodeL 5 0 bindL)) })
theorem witness_lane_config_bound : quadB.quadBound 2 = true ∧ bitOf (0x2000 : Word) 13 ≠ (quadB.quad 2).dlink := by decide

/-- A module that is LIVE without a stream, and its record with injection. -/
def recB : List Byte :=
  [0x41, 0x53, 0x41, 0x59, 1, 0, 0x80, 1, 0, 0, 1, 12, 7, 1, 60, 62] ++ leBytes 8 1000000 ++ leBytes 8 1000000000 ++
    List.replicate 348 0
def liveP : Pos :=
  { ({} : Pos) with
    mod := .live, present := true, mrst := false, record := recB ++ leBytes 4 (crc32c recB).toNat, rate := 0, lstate := 3
    framed := true, lfsr := 1, seqNext := some 9, marks := [(7, 5)], ctl := some ⟨4, 1, 2, 2⟩ }
def posS (x : Pos) : State := hostS.onPos 9 (fun _ => x)
theorem witness_solve_command : ((posS liveP).pos 9).mod = .live ∧ ((posS liveP).pos 9).stream = none ∧
    recInjCap ((posS liveP).pos 9).record = true ∧ (posS liveP).poss[9]?.isSome = true := by decide

theorem witness_time_set : hostS.aon.timeSet = none ∧ hostS.hub.jobs = [] ∧ (1 : BitVec 2) ≠ 3 ∧
    hostS.reserving.any (fun j => j.state == .admitted) = false ∧ hostS.hub.slots.any (fun x => x.state == .loading) = false ∧
    jobS.hub.jobs ≠ [] ∧ hostS.hub.slots.length = 16 ∧
    atOrAfter (hostS.onHub (fun h => { h with duskAt := some 77 })).beaconNow 77 = true ∧
    jobS.hub.jobs.all (quietJob jobS.beaconNow) = false ∧ hostS.hub.jobs.all (quietJob hostS.beaconNow) = true := by decide
theorem witness_time_apply : (⟨hdr 0 0, true, true, 0, 1000, 777⟩ : TimeSetReq).armed = true := rfl

/-! ### What the statements about lodes, jobs, rings and functions assume -/

theorem witness_lode_chunks : ({} : LodeSlot).state = .empty ∧ ({} : LodeSlot).monitor = none ∧
    (let x : LodeSlot := { state := .loading, owner := 3, mask := 2, len := 5, bytes := [1, 2, 3] }
     x.state = .loading ∧ x.owner = (hdr 3 0).fn.val ∧ (3#32).toNat = x.bytes.length ∧ (3#32).toNat + 2 = x.len) ∧
    hostS.slotUsed 2 = false ∧ jobS.slotUsed 2 = true ∧ (hostS.slotOf 2).state = .verified := by decide
def loadedX : LodeSlot := { state := .loading, owner := 3, mask := 2, len := 3, bytes := [1, 2, 3], waiting := some (hdr 3 0) }
theorem witness_lode_bytes : (3 : Nat) ≤ (3#32).toNat ∧ loadedX.waiting = some (hdr 3 0) ∧ loadedX.len ≤ loadedX.bytes.length ∧
    loadedX.monitor = none := by decide
/-- A lode of one geode without roles (R312–R316): header, table of three sections, clock plan, resources, results. -/
def goodLode : List Byte :=
  leBytes 4 0x444C4A46 ++ leBytes 2 1 ++ leBytes 2 3 ++ leBytes 4 140 ++ leBytes 4 0x8DDF841B ++ leBytes 8 7 ++
  leBytes 2 1 ++ leBytes 2 1 ++ leBytes 4 65536 ++ leBytes 8 7200000000 ++ leBytes 4 100000 ++ leBytes 4 1 ++
  leBytes 16 0 ++
  leBytes 8 0xFFFF000B ++ leBytes 4 112 ++ leBytes 4 4 ++ leBytes 8 0xFFFF000C ++ leBytes 4 116 ++ leBytes 4 24 ++
  leBytes 8 0xFFFF000D ++ leBytes 4 140 ++ leBytes 4 0 ++
  leBytes 4 1600 ++
  leBytes 4 100 ++ leBytes 4 2 ++ leBytes 4 0x10001 ++ leBytes 4 64 ++ leBytes 4 100 ++ leBytes 4 1
theorem witness_lode_refused : ((hostS.placeImages 2).verifyFrom 2 2 [1, 2, 3] none).isSome = true ∧
    (hostS.verifyFrom 2 2 goodLode (checkSignature true [] goodLode)).isSome = true := by decide +kernel

theorem witness_lode_verified : (hostS.placeImages 2).verifyFrom 2 2 goodLode
    (checkSignature hostS.hub.require hostS.hub.keys goodLode) = none := by decide +kernel

/-- A role's code for the walk of R322 from syllable 0: LOOP of three runs over one ADD, a divide, an ADD that reads its
quotient, then WAITE (R167, R230, R227). -/
def walkCode : PathCx :=
  let st : Site := ⟨.sig 0 0, 0, false, .more, false⟩
  let one := fun (k : Nat) (i : Instr) => (k, BitVec.ofNat 28 ((encodeLong i).getD 0 + 2 ^ 27))
  { core := { Core.signalReset with
      imem := { cells := [one 0 (.loop st (.imm 2 1)), one 1 (.add st (.reg ⟨1, 2, 3, 0⟩)), one 2 (.div st ⟨6, 1, 2, 0⟩),
        one 3 (.add st (.reg ⟨1, 6, 2, 0⟩)), one 4 (.waite st)] } }
    tid := 1, size := 5, clamp := fun _ => none, ptr := fun _ => none }
/-- LOOP 1, its bubble 1 (R90), three runs of one cycle, the divide 1 with its interlock of 8 (R169, R324), ADD 1,
WAITE 1. -/
theorem test_path_charge :
    (walkCode.from 0 {}).ends.map (fun e => (e.1, e.2.lo, e.2.hi)) = [(PathEnd.park 4, 16, 16)] := by decide +kernel
theorem test_path_loop : (walkCode.from 0 {}).notes = [.loop 0 3 1] := by decide +kernel
theorem witness_job_fits : startRange 1 4 true 0 = true ∧ hostS.jobOf 6 = none ∧ (∀ g ∈ maskGeodes 2, (hostS.geode g).faulted = false) ∧
    hostS.noFit hostS.reserving 0 2 [bindL] = none ∧ (jobS.noFit jobS.reserving 0 2 [bindL]).isSome = true := by decide
theorem witness_job_stop : jobS.jobOf (hdr 3 5).job = some job5 ∧ job5.fn = (hdr 3 5).fn.val ∧ job5.cause = 0 ∧
    job5.releaseAt = none ∧ atOrAfter (84 : U32) 85 = false := by decide

/-- Offsets at the ends of a ring's range, and the first that is none of its entries. -/
theorem witness_ring_offsets : (0xFFF0#32).toNat % 2 ^ 24 % 16 = 0 ∧ (0xFFF0#32).toNat % 2 ^ 24 < 2 ^ (hostS.fn 3).crlog2.toNat ∧
    2 ^ (hostS.fn 3).rrlog2.toNat ≤ (0x10000#32).toNat % 2 ^ 24 ∧ (8#32).toNat % 16 ≠ 0 ∧ (hostS.fn 3).waitq = [] ∧
    (hostS.fn 3).rrfull = false ∧ (hostS.fn 3).cren = true ∧ (hostS.fn 5).cren = false ∧ (hostS.fn 5).rren = false ∧
    hostS.link.vfs = 7 := by decide
/-- A vector with records unsignalled, its table entry unmasked. -/
def irqF : Fn := { ({} : Fn) with irqTime := 5, unsig := [(4, 2)], msix := smPut [] 19 1 }
theorem witness_irq : irqF.irqTime ≠ 0 ∧ unsigOf irqF 4 ≠ 0 ∧ irqF.d3 = false ∧ bitOf (msixWord irqF 19) 0 = false := by decide
/-- A NOP packet of 16 bytes in function 3's ring. -/
def nopPacket : List Byte := [0, 0, 0, 1, 0x77, 0, 0, 0, 0, 0, 0, 0] ++ leBytes 4 (crcField []).toNat
def fetchS : State := hostS.onFn 3 (fun x => { x with crtail := 64 })
theorem witness_fetch : fetchS.fetchTurn = some 3 ∧ packetStatus (fetchS.fn 3) (admissible fetchS.link) nopPacket = 0 ∧
    16 + (leAt nopPacket 8 4 + 15) / 16 * 16 = 16 ∧ nopPacket.length = 16 ∧ 16 ≤ 64 := by decide
/-- Jobs with each kind of record next. -/
def jobLate : Job := { job5 with lateDue := [(80, 3)] }
def jobInput : Job := { job5 with inputGaps := [⟨80, 1, 0, 1, 4, 5⟩] }
def jobGap : Job := { job5 with gaps := [(80, 3)] }
def jobFrame : Job := { job5 with frames := [⟨80, [(2, 1)], 0⟩] }
def jobEnded : Job := { job5 with done := [1], releaseAt := some 78, cause := 1 }
def withJob (j : Job) : State := hostS.onHub (fun h => { h with jobs := [j] })
theorem witness_posting : nextItem jobLate = some (.late 80 3) ∧ nextItem jobInput = some (.input ⟨80, 1, 0, 1, 4, 5⟩) ∧
    nextItem jobGap = some (.gap 80 3) ∧ nextItem jobFrame = some (.frame ⟨80, [(2, 1)], 0⟩) ∧
    nextItem jobEnded = some .ended ∧ hostS.hubUp = true ∧
    (∀ j ∈ [jobLate, jobInput, jobGap, jobFrame, jobEnded], (withJob j).jobOf j.id = some j ∧
      (withJob j).posting j = true ∧ (withJob j).myTurn j = true ∧ (withJob j).ringBusy 3 = false ∧
      entryFits ((withJob j).fn 3) 16 = true ∧ entryLen 16 ≤ (withJob j).link.credits) ∧
    16 + 64 + 32 ≤ 2 ^ (hostS.fn 3).rrlog2.toNat := by decide
/-- Records under way: the last TLP of one, and one that takes more than one TLP; with an allowance, in turn, and without
credits; an entry that finds no space, a frame with no results left, a ring smaller than a record. -/
def postOf (n : Nat) : Posting := ⟨.late 80 3, 0xF2, List.replicate 300 0, n⟩
def jobPost (n : Nat) : Job := { job5 with post := some (postOf n) }
theorem witness_posting_tlp : tlpLen hostS.link (entryLen 300) 0 = 128 ∧ 0 + 128 < entryLen 300 ∧
    tlpLen hostS.link (entryLen 300) 256 = 64 ∧ entryLen 300 ≤ 256 + 64 ∧
    (∀ n ∈ [0, 256], (withJob (jobPost n)).jobOf 5 = some (jobPost n) ∧ (withJob (jobPost n)).myTurn (jobPost n) = true ∧
      (withJob (jobPost n)).ringBusy 3 = true ∧ 128 ≤ (withJob (jobPost n)).link.credits) ∧
    ((withJob (jobPost 0)).onLink (fun l => { l with credits := 127 })).link.credits < tlpLen hostS.link (entryLen 300) 0 ∧
    128 * 2 ^ 56 ≤ (withJob (jobPost 0)).allowNow { jobPost 0 with yf := 200, allow := 128 * 2 ^ 56 } := by decide +kernel
theorem witness_posting_space : entryFits { hostS.fn 3 with rrlog2 := 12 } 4096 = false ∧ (hostS.fn 3).rren = true ∧
    (hostS.fn 3).d3 = false ∧ (hostS.fn 3).waitq = [] ∧ nextItem { job5 with frames := [⟨80, [], 0⟩] } = some (.frame ⟨80, [], 0⟩) ∧
    2 ^ ({ hostS.fn 3 with rrlog2 := 4 } : Fn).rrlog2.toNat < 16 + 0 + 32 := by decide

theorem witness_link : (hostS.onAon (fun a => { a with devstate := .dusk })).aon.devstate = .dusk ∧ hostS.aon.devstate ≠ .dusk ∧
    hostS.hub.halted = false ∧ hostS.aon.islandsOff = false ∧ hostS.aon.inReset = false ∧ hostS.link.cfgReady = true ∧
    (dev 0 (sigCore 0 thread)).link.cfgReady = false ∧ ({ hostC with reads := [⟨32, 0, none⟩] } : Chan).reads ≠ [] ∧
    ({ ({} : Fn) with d3 := true } : Fn).d3 = true ∧ 7 ≤ hostS.link.vfs ∧ (7 : Fin 8).val ≠ 0 := by decide
theorem witness_bar0 : (dev 0 (sigCore 0 thread)).link.vfs < 1 ∧ 3 ≤ hostS.link.vfs ∧ (1#16).toNat % 4 ≠ 0 ∧
    (0x10001 : Nat) % 65536 ≠ 0 ∧ 16 ≤ (0x10#64).toNat % 2 ^ 32 % 32 ∧ (0x18#64).toNat % 2 ^ 32 % 32 ≤ 24 := by decide

/-! ### What the statements about lanes and modules assume -/

def quad2 (f : Quad → Quad) (x : Pos) : State := (posS x).onQuad 2 f
set_option maxRecDepth 20000 in
theorem witness_modules : ((posS {}).pos 9).present = false ∧ ((posS {}).quad 2).dlMode = false ∧ ((posS liveP).pos 9).present = true ∧
    ({ ({} : Pos) with mod := .reading } : Pos).reread = false ∧ ((posS {}).quad 2).busStopped = false ∧
    recordReason (posS { ({} : Pos) with mod := .reading }) 9 [] = 2 ∧ ((posS {}).quad 2).alertIgnored = false ∧
    hostS.hub.log = [] ∧ (posS liveP).owner 9 = some 9 ∧ ((posS {}).quad 2).alert = false ∧
    (quad2 (fun q => { q with dlMode := true, dlup := true }) {}).quad 2 = { (State.reset.quad 2) with dlMode := true, dlup := true } := by
  decide
set_option maxRecDepth 20000 in
theorem witness_record_good : recordReason (posS { ({} : Pos) with mod := .reading, present := true }) 9 liveP.record = 0 := by
  decide +kernel
theorem witness_record_same : sameModule liveP.record liveP.record = true := by simp [sameModule]

def trainP : Pos := { liveP with mod := .training, framed := false, lstate := 2, ctl := none }
def openQ (n : Nat) : State := hostS.onHub (fun h => { h with windowQ := [n, 4] })
theorem witness_training : (openQ 2).hub.window = none ∧ (openQ 2).hub.windowQ.head? = some 2 ∧ (openQ 2).aon.noLaneRef = false ∧
    5 ≤ (openQ 2).aon.stage ∧ modLanes { liveP with mod := .waiting } ≠ 0 ∧ liveP.en = true ∧
    ({ ({} : Quad) with dlink := true, dlMode := true } : Quad).dlup = false ∧
    (posS trainP).owner 9 = some 9 ∧ modLanes trainP = 1 ∧ trainP.ctlQ = [] ∧ trainP.ctl = none ∧ trainP.lstate = 2 ∧ trainP.trial ≠ 3 ∧
    (openQ 2).hub.log = [] ∧ ({} : Quad).windows ≠ 1 ∧
    ({ liveP with lstate := 5 } : Pos).lstate ≠ 2 ∧ (2 : Nat) < 4 ∧ liveP.ctrs[10]? = some 0 := by decide

/-- Block 3 of a stream at 100 MHz whose block 0 began at time 1,000,000. -/
def bind9 : Binding := ⟨100000000, 0, 1, 1, 0, 0, 0, 1, 2, 0, 0, 0⟩
def strm : Stream :=
  { streamFor lodeL 5 0 bind9 with
    anchor := some (0, 1000000, 0), nextJ := [3, 1, 2, 3], base := 3
    last := [some ⟨2, 8, 2, 0, 1000000 + 2 * 360 * 2 ^ 56 / 100000000⟩, none, none, none] }
def lanesP : Pos := { liveP with stream := some strm, marks := [(3, BitVec.ofNat 122 ((1000000 + 3 * 360 * 2 ^ 56 / 100000000) * 2 ^ 24))] }
def anc3 : BitVec 80 := BitVec.ofNat 80 (3 * 2 ^ 72 + 2 ^ 44)
def geodeS : Geode := { hostS.geode 2 with statics := [4, 6] }
def payOfType (k : BitVec 2) : BitVec 5140 :=
  cwPayload { type := k, blane := 0, ovr := false, inj := false, seq := 9, samples := List.replicate 360 5, anc := anc3 }
/-- Payloads of the types 0, 1 and those above, on a lane with counters. -/
theorem witness_payloads : (cwFields (payOfType 0)).type = 0 ∧ (cwFields (payOfType 0)).seq = 9 ∧ (cwFields (payOfType 0)).anc = anc3 ∧
    (cwFields (payOfType 1)).type = 1 ∧ 2 ≤ (cwFields (payOfType 2)).type.toNat ∧ 2 ≤ (cwFields (payOfType 3)).type.toNat ∧
    (∀ k ∈ [0, 1, 2, 3], liveP.ctrs[k]? = some 0) ∧ liveP.lstate = 3 ∧ ((posS liveP).quad 2).dlMode = false := by decide +kernel
set_option maxRecDepth 20000 in
theorem witness_codewords : ((posS {}).pos 9).mod = .absent ∧ (posS { ({} : Pos) with lstate := 3 }).owner 9 = none ∧
    liveP.badRun < 3 ∧ (posS lanesP).owner 9 = some 9 ∧ injects strm = false ∧ lanesP.seqNext = some 9 ∧
    lanesP.mod = .live ∧ lanesP.solving = none ∧ strm.anchor.isSome = true ∧ (strm.last.getD 0 none).isSome = true ∧
    lanesP.marks.find? (fun r => r.1 == (ancOf anc3).mark) = lanesP.marks.head? ∧ (ancOf anc3).tsel ≠ 0xF ∧
    strm.credits = [] ∧ skewed strm 3 = false ∧ strm.nextJ.getD 0 0 = 3 ∧ strm.base = 3 ∧ strm.known = [] ∧
    slotAddr geodeS strm (3 % Nat.max 1 (10 * strm.bind.rcount.toNat)) = some (4096 * 4 + 384 * 3) ∧
    4096 * 4 + 384 * 3 + 384 ≤ 0x200000 ∧ Memory.wf geodeS.mem = true ∧ (posS lanesP).sends 9 = true ∧
    9 + liveP.outLane = 9 ∧ hostS.aon.islandsOff = false := by decide
/-- Block 3 by the lane's last block: the nominal step, and the ends of the tolerance of another mark (log entry 150). -/
theorem witness_block_number : blockNum strm 0 (ancOf anc3) 9 (1000000 + 3 * 360 * 2 ^ 56 / 100000000) = 3 ∧
    blockNum { strm with last := List.replicate 4 none } 0 (ancOf anc3) 9 (1000000 + 3 * 360 * 2 ^ 56 / 100000000) = 3 := by
  decide +kernel
/-- Its job at a time behind a frame's deadline. -/
def lateS : State := ((posS lanesP).onHub (fun h => { h with jobs := [job5] })).onAon (fun a => { a with time := msec 1 })
set_option maxRecDepth 20000 in
theorem witness_deadline : lateS.jobOf strm.job = some job5 ∧ job5.state ≠ .admitted ∧ job5.suspendAt = none ∧
    atOrAfter (frameAt job5.k (beaconAt lateS.aon ((now56 lateS.aon : Int) - (2 * 2 ^ 56 / 1000000 : Nat)))) (job5.first + 4) = true ∧
    (∀ f, suspendedAt job5 f = false) ∧ strm.anchor.isSome = true := by
  refine ⟨by decide, by decide, by decide, by decide, fun _ => rfl, by decide⟩
theorem witness_dl_codeword : (hostS.quad 1).dlMode = true ∧ (hostS.quad 1).dlup = true ∧ (hostS.quad 1).streams.getD 3 none = none ∧
    (3 * 2 ^ 76 / 2 ^ 76 % 16 : Nat) = 3 := by decide
def dlPay : BitVec 5140 := dlPayload 1 9 3 300 85 [7, 8]
theorem witness_dl_payload : (cwFields dlPay).type = 0 ∧ (cwFields dlPay).seq = 9 ∧ (cwFields dlPay).blane.toNat = 1 ∧
    (dlAnc (cwFields dlPay).anc).1 % 16 = 3 ∧ (dlAnc (cwFields dlPay).anc).2 = (300, 85) ∧ atOrAfter (85 : U32) job5.first = true ∧
    jobS.jobOf 5 = some job5 := by decide +kernel
/-- A stream of a device link whose next block is block 3: its slot, and its deadline. -/
def strmDl : Stream := { streamFor lodeL 5 0 { bind9 with source := 0x90 } with anchor := some (0, 1000000, 0), nextJ := [3, 0, 0, 0] }
set_option maxRecDepth 20000 in
theorem witness_dl_stream : strmDl.credits = [] ∧ strmDl.early = [] ∧ strmDl.job = 5 ∧
    (slotAddr geodeS strmDl (3 % Nat.max 1 (10 * strmDl.bind.rcount.toNat))).isSome = true := by decide

/-! ### What the statements about calibration, resets, faults and time assume -/

def strmI : Stream := { strm with bind := { bind9 with flags := 1 }, avg := 4, rejects := 6, lowPnr := 1, held := true, cause := 3 }
def calS (x : Pos) : State :=
  ((posS x).onCore (.sup 2) (fun c => { c with halted := false })).onGeode 2 (fun g => { g with pool := [9, 11, 12] })
theorem witness_calibration : (calS liveP).supWaits 2 = false ∧ (⟨true, 30, true, true⟩ : EpochResult).discarded = true ∧
    injects strmI = true ∧ strmI.cleared = true ∧ 0 < strmI.avg ∧ strmI.rejects < 7 ∧ strm.avg = 0 ∧ 1 ≤ strmI.lowPnr ∧
    (calS liveP).shadowFree 9 strm = false ∧ (calS liveP).shadowFree 9 { strmI with avg := 8 } = true ∧
    strmI.holdDue = none ∧ (calS { liveP with solveReq := true }).solveDue 9 = true ∧ (calS liveP).solveDue 9 = false ∧
    (calS liveP).solveWaits 2 = false ∧ ((calS liveP).onGeode 2 (fun g => { g with spare := none })).solveWaits 2 = true := by decide

def startS (n : U32) : State := hostS.onAon (fun a => { a with devstate := .starting, lastBeacon := some n })
theorem witness_start_up : State.reset.aon.inReset = true ∧ State.reset.aon.tripHold = false ∧ (startS 5).aon.devstate = .starting ∧
    (hostS.geode 1).faulted = false ∧ bitOf hostS.aon.faultrec 13 = false ∧
    bitOf (0x2004 : Word) 13 = true ∧ hostS.hub.resetting = false ∧
    beaconTime (startS 5).aon 5 < (now56 { (startS 5).aon with time := (startS 5).aon.started } : Nat) + (2 ^ 56 * 4 / 10 : Nat) ∧
    (now56 { (startS 5).aon with time := (startS 5).aon.started } : Nat) + (2 ^ 56 * 4 / 10 : Nat) ≤ beaconTime (startS 5).aon 50000 ∧
    hostS.cores.length = 81 ∧ hostS.reserving = [] ∧ jobS.reserving ≠ [] := by decide

theorem witness_faults : ({ hostS.geode 1 with supHalted := true } : Geode).supHalted = true ∧ (hostS.geode 1).supHalted = false ∧
    (hostS.coreAt 80).stop = none ∧ (1216#16).toInt = 1216 ∧ (1183#16).toInt < 1184 ∧ hostS.aon.noLaneRef = false := by decide

def edge (f : Aon → Aon) : Aon := f hostS.aon
set_option maxRecDepth 20000 in
theorem witness_time_inputs : hostS.aon.locked = false ∧ hostS.aon.lastEdge = none ∧
    (let a := edge (fun a => { a with lastEdge := some 0 }); 9 * 2 ^ 80 ≤ 10 * (a.time - 0).toNat ∧ 3 * 2 ^ 80 ≤ (a.time - 0).toNat) ∧
    (let a := edge (fun a => { a with time := 2 ^ 79 }); 10 * (a.time - 0).toNat < 9 * 2 ^ 80) ∧
    (20500 - 20000 : Int).natAbs ≤ 1000 ∧ (10001 : Int).natAbs > 10000 ∧ 8 ≤ 7 + 1 ∧
    ((3 : BitVec 42) + 2).toNat = hostS.aon.time.toNat / 2 ^ 80 ∧ hostS.aon.stage ≠ 0 ∧ hostS.aon.ppsOut ≠ some 5 := by decide

/-! ### What the statements about the monitor, core resets, landings and the block assume -/

def monS : State := { hostS with mon := { hostS.mon with open_ := true } }
theorem witness_monitor : monS.mon.buf = [] ∧ hostS.mon.open_ = false ∧ monS.monBusy = false ∧ monS.mon.lode = none ∧
    commandOf (tokensOf (ascii "VER")) = .cmd .ver ∧
    ({ monS with mon := { monS.mon with ready := some .ver } } : State).monTakes .uart .ver = true ∧
    hostS.monTakes .uart .ver = false ∧ ({ monS with jtag := { monS.jtag with ir := .debug } } : State).monTakes .jtag .ver = true ∧
    (monS.monClear .uart).targetOff (.sig 0 0) = false ∧
    (monS.onAon (fun a => { a with islandsOff := true })).targetOff (.sig 0 0) = true ∧ monS.lodeStatus 3 = 0 ∧
    monS.lodeStatus 2 ≠ 0 ∧ spaceFits (.hub 0x7FFFF) 2 = false ∧ spaceFits (.hub 0x7FFFE) 2 = true := by decide

theorem witness_core_reset : hostS.aon.inReset = false ∧ hostS.aon.islandsOff = false ∧ hostS.targetOff (.sig 0 0) = false ∧
    ({ monS with mon := { monS.mon with ready := some (.resetC 0 0) } } : State).monTakes .uart (.resetC 0 0) = true := by decide

/-- Operands of every row of R151: D4 and D5 hold the two sources. -/
def edgeT (a b : Word) : Thread := { thread with d := smPut (smPut [] 4 a) 5 b }
theorem witness_edges : ∀ p ∈ [((0x1FFF : Word), (1 : Word)), (0x2000, 0x2000), (0x3FFF, 1), (0x2000, 1), (0, 1), (0, 0),
    (0x2000, 0x1FFF), (0x2AAA, 0x1555)], (edgeT p.1 p.2).rd 4 = p.1 ∧ (edgeT p.1 p.2).rd 5 = p.2 := by
  simp only [List.forall_mem_cons, List.not_mem_nil, false_implies, implies_true, and_true]
  refine ⟨⟨rfl, rfl⟩, ⟨rfl, rfl⟩, ⟨rfl, rfl⟩, ⟨rfl, rfl⟩, ⟨rfl, rfl⟩, ⟨rfl, rfl⟩, ⟨rfl, rfl⟩, ⟨rfl, rfl⟩⟩
theorem witness_edge_pair : ({ thread with d := [(4, 0x3FFF), (5, 0x1FFF), (6, 1)] } : Thread).rdd 4 = 0x7FFFFFF := by rfl
theorem witness_edge_one : ({ thread with d := [(4, 0x3FFF), (5, 0x1FFF), (6, 1)] } : Thread).rdd 6 = 1 ∧ (0x3FFF : Word).toInt = -1 :=
  ⟨rfl, rfl⟩
theorem ready_edge (op : Instr) : Quiet (dev 0 (sigCore 0 (edgeT 0x2000 1))) site op 0 (sigCore 0 (edgeT 0x2000 1)) (edgeT 0x2000 1) := by
  constructor <;> first | rfl | (intro h; exact absurd h (by decide)) | decide

/-- An operation's site names its core; a well-formed long operation; a queue with a command in front. -/
theorem witness_site : siteOf (.mac site ⟨0, 6, 5, 0⟩) = some site ∧ (Instr.mac site ⟨0, 6, 5, 0⟩).wellFormed = true ∧
    site.core = .sig 0 0 ∧ site.rsv = false ∧ site.short = false := by decide
theorem witness_queue : ({ State.reset with pending := [.powerUpReset] } : State).pending = [.powerUpReset] := rfl
theorem witness_shape : State.reset.shape = true := by decide
theorem witness_memories : State.reset.memWf = true := by decide

end Sys2Proof.Tests
end

section
/-! PROOFS. The parts of the device (R22, R356, R424): every operation of the state keeps the lengths of the lists of cores,
geodes, quads, positions and functions, said once per operation in the order of the model's files; hence every command keeps
the shape, and so does every step. -/

namespace Sys2Proof.Machine
open Sys2Proof Sys2Proof.Laws

/-! ### The shape of a state that has been put together -/

@[simp] theorem modRange_length {α : Type} (l : List α) (i n : Nat) (f : α → α) : (modRange l i n f).length = l.length := by
  have h (g : Nat → α → α) : ∀ k (xs : List α), (mapIdxFrom g k xs).length = xs.length := fun k xs => by
    induction xs generalizing k with
    | nil => rfl
    | cons x xs ih => simp [mapIdxFrom, ih]
  exact h _ 0 l

@[simp] theorem phasesFrom_length (l : List Pos) (v : BitVec 23) (n : Nat) : (phasesFrom l v n).length = l.length := by
  induction l generalizing v n with
  | nil => rfl
  | cons p ps ih => simp [phasesFrom, ih]

/-- The shape is a matter of the lengths of the five lists of parts alone. -/
theorem State.shape_congr {s u : State} (hc : u.cores.length = s.cores.length) (hg : u.geodes.length = s.geodes.length)
    (hq : u.quads.length = s.quads.length) (hp : u.poss.length = s.poss.length) (hf : u.fns.length = s.fns.length) :
    u.shape = s.shape := by
  simp only [State.shape, hc, hg, hq, hp, hf]

theorem State.withCores_shape (s : State) (l : List Core) (h : l.length = s.cores.length) :
    ({ s with cores := l } : State).shape = s.shape := State.shape_congr h rfl rfl rfl rfl

theorem State.withGeodes_shape (s : State) (l : List Geode) (h : l.length = s.geodes.length) :
    ({ s with geodes := l } : State).shape = s.shape := State.shape_congr rfl h rfl rfl rfl

theorem State.withPoss_shape (s : State) (l : List Pos) (h : l.length = s.poss.length) :
    ({ s with poss := l } : State).shape = s.shape := State.shape_congr rfl rfl rfl h rfl

theorem State.withFns_shape (s : State) (l : List Fn) (h : l.length = s.fns.length) :
    ({ s with fns := l } : State).shape = s.shape := State.shape_congr rfl rfl rfl rfl h

theorem State.withFree_shape (s : State) (n : Nat) : ({ s with free := n } : State).shape = s.shape := rfl
theorem State.withJtag_shape (s : State) (j : Jtag) : ({ s with jtag := j } : State).shape = s.shape := rfl

theorem State.withPending_shape (s : State) (l : List Instr) :
    ({ s with pending := l } : State).shape = s.shape := rfl

@[simp] theorem State.ite_shape (c : Prop) [Decidable c] (s t : State) :
    (if c then s else t).shape = if c then s.shape else t.shape := apply_ite State.shape c s t

/-- A fold over what carries a state keeps the shape where each turn does. -/
theorem foldl_shape_of {α β : Type} (p : β → State) (f : β → α → β) (h : ∀ b a, (p (f b a)).shape = (p b).shape)
    (l : List α) (b : β) : (p (l.foldl f b)).shape = (p b).shape := by
  induction l generalizing b with
  | nil => rfl
  | cons a l ih => rw [List.foldl_cons, ih, h]

@[simp] theorem foldl_shape {α : Type} (f : State → α → State) (h : ∀ t a, (f t a).shape = t.shape) (l : List α)
    (s : State) : (l.foldl f s).shape = s.shape := foldl_shape_of id f h l s

/-! ### Shape: what `Ops` defines -/

@[simp] theorem State.onCoreAt_shape (s : State) (n : Nat) (f : Core → Core) : (s.onCoreAt n f).shape = s.shape := by
  simp [State.shape]

@[simp] theorem State.onCore_shape (s : State) (r : CoreRef) (f : Core → Core) : (s.onCore r f).shape = s.shape := by
  simp [State.onCore]

@[simp] theorem State.onGeode_shape (s : State) (g : Nat) (f : Geode → Geode) : (s.onGeode g f).shape = s.shape := by
  simp [State.shape]

@[simp] theorem State.onPos_shape (s : State) (p : Nat) (f : Pos → Pos) : (s.onPos p f).shape = s.shape := by
  simp [State.shape]

@[simp] theorem State.onQuad_shape (s : State) (q : Nat) (f : Quad → Quad) : (s.onQuad q f).shape = s.shape := by
  simp [State.shape]

@[simp] theorem State.onFn_shape (s : State) (n : Nat) (f : Fn → Fn) : (s.onFn n f).shape = s.shape := by
  simp [State.shape]

@[simp] theorem State.onHub_shape (s : State) (f : Hub → Hub) : (s.onHub f).shape = s.shape := by simp [State.shape]
@[simp] theorem State.onAon_shape (s : State) (f : Aon → Aon) : (s.onAon f).shape = s.shape := by simp [State.shape]
@[simp] theorem State.onLink_shape (s : State) (f : Link → Link) : (s.onLink f).shape = s.shape := by simp [State.shape]
@[simp] theorem State.onMon_shape (s : State) (f : Mon → Mon) : (s.onMon f).shape = s.shape := by simp [State.shape]
@[simp] theorem State.emit_shape (s : State) (o : Out) : (s.emit o).shape = s.shape := by simp [State.shape]
@[simp] theorem State.fresh_shape (s : State) : s.fresh.2.shape = s.shape := by simp [State.shape]

@[simp] theorem State.raise_shape (s : State) (r : CoreRef) (n : Nat) : (s.raise r n).shape = s.shape := by
  simp [State.raise]

@[simp] theorem State.raiseSup_shape (s : State) (g n : Nat) : (s.raiseSup g n).shape = s.shape := by
  simp [State.raiseSup]

@[simp] theorem State.raiseHub_shape (s : State) (n : Nat) : (s.raiseHub n).shape = s.shape := by simp [State.raiseHub]
@[simp] theorem State.hubLine_shape (s : State) (n : Nat) : (s.hubLine n).shape = s.shape := by simp [State.hubLine]

@[simp] theorem State.raiseCores_shape (s : State) (g n : Nat) : (s.raiseCores g n).shape = s.shape :=
  State.withCores_shape s _ (by simp)

@[simp] theorem State.log_shape (s : State) (r : LogReq) : (s.log r).shape = s.shape := by simp [State.log]

@[simp] theorem State.counterStuck_shape (s : State) (block idx old new : Nat) :
    (s.counterStuck block idx old new).shape = s.shape := by
  simp [State.counterStuck]

@[simp] theorem State.sendMsix_shape (s : State) (f v : Nat) : (s.sendMsix f v).shape = s.shape := by
  simp [State.sendMsix]

@[simp] theorem State.notify_shape (s : State) (f : Nat) : (s.notify f).shape = s.shape := by simp [State.notify]
@[simp] theorem State.notifyAll_shape (s : State) : s.notifyAll.shape = s.shape := by simp [State.notifyAll]
@[simp] theorem State.setDev_shape (s : State) (d : DevState) : (s.setDev d).shape = s.shape := by simp [State.setDev]

@[simp] theorem State.signalEntry_shape (s : State) (f v : Nat) : (s.signalEntry f v).shape = s.shape := by
  simp [State.signalEntry]

@[simp] theorem State.writeEntry_shape (s : State) (f : Nat) (e : Entry) : (s.writeEntry f e).shape = s.shape := by
  simp [State.writeEntry]

@[simp] theorem State.flushRing_shape (s : State) (f n : Nat) : (s.flushRing f n).shape = s.shape := by
  induction n generalizing s with
  | zero => rfl
  | succ n ih => simp only [State.flushRing]; (repeat' split) <;> simp [ih]

@[simp] theorem State.postEntry_shape (s : State) (f : Nat) (e : Entry) : (s.postEntry f e).shape = s.shape := by
  simp [State.postEntry]

@[simp] theorem State.reply_shape (s : State) (h : CmdHdr) (status : U16) (payload : List Byte) :
    (s.reply h status payload).shape = s.shape := by
  simp [State.reply]

@[simp] theorem State.record_shape (s : State) (f : Nat) (vec : Byte) (kind job : U16) (payload : List Byte) :
    (s.record f vec kind job payload).shape = s.shape := by
  simp [State.record]

@[simp] theorem State.writeLcfg_shape (s : State) (p : Nat) (v : Word) : (s.writeLcfg p v).shape = s.shape := by
  simp [State.writeLcfg]

@[simp] theorem State.writeQctl_shape (s : State) (q : Nat) (v : Word) : (s.writeQctl q v).shape = s.shape := by
  simp [State.writeQctl]

@[simp] theorem State.fabricWrite_shape (s : State) (g off : Nat) (v : Word) : (s.fabricWrite g off v).shape = s.shape := by
  simp [State.fabricWrite]

@[simp] theorem State.onJob_shape (s : State) (id : U16) (f : Job → Job) : (s.onJob id f).shape = s.shape := by
  simp [State.onJob]

@[simp] theorem State.markFrame_shape (s : State) (id : U16) (frame : U32) (geode : Nat) (bidx : Option Nat) (bits : Byte) :
    (s.markFrame id frame geode bidx bits).shape = s.shape := by
  simp [State.markFrame]

@[simp] theorem State.shmBadOf_shape (s : State) (res : Option (U16 × U32)) (g a : Nat) :
    (s.shmBadOf res g a).shape = s.shape := by
  simp only [State.shmBadOf]
  (repeat' split) <;> simp

@[simp] theorem State.shmBad_shape (s : State) (g a : Nat) : (s.shmBad g a).shape = s.shape := by simp [State.shmBad]

@[simp] theorem State.shmReadOf_shape (s : State) (res : Option (U16 × U32)) (g a : Nat) :
    (s.shmReadOf res g a).1.shape = s.shape := by
  simp only [State.shmReadOf]
  (repeat' split) <;> simp

@[simp] theorem State.shmRead_shape (s : State) (g a : Nat) : (s.shmRead g a).1.shape = s.shape := by
  simp [State.shmRead]

@[simp] theorem State.hubReadBy_shape (s : State) (dma : Bool) (a : Nat) : (s.hubReadBy dma a).1.shape = s.shape := by
  simp only [State.hubReadBy]
  (repeat' split) <;> simp

@[simp] theorem State.hubRead_shape (s : State) (a : Nat) : (s.hubRead a).1.shape = s.shape := by simp [State.hubRead]

@[simp] theorem State.shmWrite_shape (s : State) (g a : Nat) (v : Word) : (s.shmWrite g a v).shape = s.shape := by
  simp [State.shmWrite]

@[simp] theorem State.hubWrite_shape (s : State) (a : Nat) (v : Word) : (s.hubWrite a v).shape = s.shape := by
  simp [State.hubWrite]

@[simp] theorem State.bstRead_shape (s : State) (g i : Nat) : (s.bstRead g i).shape = s.shape := by simp [State.bstRead]

@[simp] theorem State.fabricReadE_shape (s : State) (g off : Nat) : (s.fabricReadE g off).1.shape = s.shape := by
  simp [State.fabricReadE]

@[simp] theorem State.copyTable_shape (s : State) (g : Nat) : (s.copyTable g).shape = s.shape := by
  simp [State.copyTable]

@[simp] theorem State.glbRead_shape (s : State) (a : Nat) : (s.glbRead a).1.shape = s.shape := by
  simp only [State.glbRead]
  (repeat' split) <;> simp

@[simp] theorem State.glbWrite_shape (s : State) (a : Nat) (v : Word) : (s.glbWrite a v).shape = s.shape := by
  simp [State.glbWrite]

@[simp] theorem State.readReq_shape (s : State) (core g : Nat) (glb : Bool) (q : MemReq) :
    (s.readReq core g glb q).1.shape = s.shape := by
  apply foldl_shape_of Prod.fst
  intro b p
  split
  · rfl
  · split <;> simp

@[simp] theorem State.serveHub_shape (s : State) (qs : List MemReq) : (s.serveHub qs).shape = s.shape := by
  simp [State.serveHub]

@[simp] theorem State.hubCtxFault_shape (s : State) (k : Nat) : (s.hubCtxFault k).shape = s.shape := by
  simp only [State.hubCtxFault]
  (repeat' split) <;> simp

@[simp] theorem State.settle_shape (s : State) (r : CoreRef) (old : Core) : (s.settle r old).shape = s.shape := by
  simp only [State.settle]
  (repeat' split) <;> simp

@[simp] theorem State.eccLog_shape (s : State) (r : CoreRef) (e : Option (Nat × Nat)) : (s.eccLog r e).shape = s.shape := by
  simp only [State.eccLog]
  (repeat' split) <;> simp

@[simp] theorem State.take_shape (s : State) (r : CoreRef) (i : Issued) : (s.take r i).shape = s.shape := by
  simp only [State.take, State.settle_shape, State.eccLog_shape]
  have h1 (c : Core) (n : Nat) : ({ s.onCore r (fun _ => c) with free := n } : State).shape = s.shape :=
    (State.withFree_shape _ _).trans (State.onCore_shape s r _)
  split
  · rw [State.onGeode_shape, h1]
  · rw [State.serveHub_shape, h1]

@[simp] theorem State.retry_shape (s : State) (r : CoreRef) : (s.retry r).shape = s.shape := by simp [State.retry]

@[simp] theorem State.retryIf_shape (s : State) (r : CoreRef) (k : Stall) : (s.retryIf r k).shape = s.shape := by
  simp [State.retryIf]

@[simp] theorem issueOp_shape (i : Site) (op : Instr) (s : State) : (issueOp i op s).shape = s.shape := by
  simp [issueOp]

/-! ### Shape: what `TimeOps` defines -/

@[simp] theorem State.freshWords_shape (s : State) (n : Nat) : (s.freshWords n).2.shape = s.shape := by
  induction n generalizing s with
  | zero => rfl
  | succ n ih => simp [State.freshWords, ih]

/-! ### Shape: what `LaneOps` defines -/

@[simp] theorem State.setLane_shape (s : State) (p : Nat) (v : BitVec 3) : (s.setLane p v).shape = s.shape := by
  simp [State.setLane]

@[simp] theorem State.setMod_shape (s : State) (b : Nat) (m : ModState) : (s.setMod b m).shape = s.shape := by
  simp [State.setMod]

@[simp] theorem State.wantWindow_shape (s : State) (q : Nat) : (s.wantWindow q).shape = s.shape := by
  simp [State.wantWindow]

@[simp] theorem State.emitCtl_shape (s : State) (b : Nat) (m : CtlMsg) : (s.emitCtl b m).shape = s.shape := by
  simp [State.emitCtl]

@[simp] theorem State.nextCtl_shape (s : State) (b : Nat) : (s.nextCtl b).shape = s.shape := by
  simp only [State.nextCtl]
  (repeat' split) <;> simp

@[simp] theorem State.sendCtl_shape (s : State) (b cmd arg : Nat) : (s.sendCtl b cmd arg).shape = s.shape := by
  simp [State.sendCtl]

@[simp] theorem State.sendInject_shape (s : State) (b : Nat) (on : Bool) : (s.sendInject b on).shape = s.shape := by
  simp [State.sendInject]

@[simp] theorem State.calWrite_shape (s : State) (g : Nat) (st : Machine.Stream) (w : Nat) (v : Word) :
    (s.calWrite g st w v).shape = s.shape := by
  simp only [State.calWrite]
  (repeat' split) <;> simp

@[simp] theorem State.clearValid_shape (s : State) (g : Nat) (st : Machine.Stream) (b : Bool) :
    (s.clearValid g st b).shape = s.shape := by
  simp [State.clearValid]

@[simp] theorem State.onStream_shape (s : State) (b : Nat) (f : Machine.Stream → Machine.Stream) :
    (s.onStream b f).shape = s.shape := by
  simp [State.onStream]

@[simp] theorem State.hold_shape (s : State) (b : Nat) (cause : BitVec 3) : (s.hold b cause).shape = s.shape := by
  simp only [State.hold]
  (repeat' split) <;> simp

@[simp] theorem State.onStreamAt_shape (s : State) (x : StreamAt) (f : Machine.Stream → Machine.Stream) :
    (s.onStreamAt x f).shape = s.shape := by
  simp only [State.onStreamAt]
  (repeat' split) <;> simp

@[simp] theorem State.writeSlot_shape (s : State) (x : StreamAt) (j : Nat) (ws : List Word) :
    (s.writeSlot x j ws).shape = s.shape := by
  simp only [State.writeSlot]
  (repeat' split) <;> simp

@[simp] theorem State.flushGap_shape (s : State) (x : StreamAt) : (s.flushGap x).shape = s.shape := by
  simp only [State.flushGap]
  (repeat' split) <;> simp

@[simp] theorem State.joinGap_shape (s : State) (x : StreamAt) (j : Nat) (cause : Byte) (r : MissRun) :
    (s.joinGap x j cause r).shape = s.shape := by
  simp only [State.joinGap]
  (repeat' split) <;> simp

@[simp] theorem settleBlocks_shape (x : StreamAt) (n : Nat) (s : State) : (s.settleBlocks x n).shape = s.shape := by
  induction n generalizing s with
  | zero => rfl
  | succ n ih => simp only [State.settleBlocks]; (repeat' split) <;> simp [ih]

@[simp] theorem State.noteBlock_shape (s : State) (x : StreamAt) (j : Nat) (what : Option (Byte × List MissRun)) :
    (s.noteBlock x j what).shape = s.shape := by
  simp only [State.noteBlock]
  (repeat' split) <;> simp

@[simp] theorem State.missBlock_shape (s : State) (x : StreamAt) (j : Nat) (cause : Byte) :
    (s.missBlock x j cause).shape = s.shape := by
  simp only [State.missBlock]
  (repeat' split) <;> simp

@[simp] theorem State.missUpTo_shape (s : State) (x : StreamAt) (lane j : Nat) (cause : Byte) :
    (s.missUpTo x lane j cause).shape = s.shape := by
  simp only [State.missUpTo]
  (repeat' split) <;> simp

@[simp] theorem State.takeCredit_shape (s : State) (x : StreamAt) (lane : Nat) :
    (s.takeCredit x lane).1.shape = s.shape := by
  simp only [State.takeCredit]
  (repeat' split) <;> simp

@[simp] theorem State.laneCtr_shape (s : State) (p k n : Nat) : (s.laneCtr p k n).shape = s.shape := by
  simp [State.laneCtr]

@[simp] theorem State.laneLog_shape (s : State) (p kind a b : Nat) : (s.laneLog p kind a b).shape = s.shape := by
  simp [State.laneLog]

@[simp] theorem State.mailTo_shape (s : State) (g : Nat) (m : MailMsg) : (s.mailTo g m).shape = s.shape := by
  simp [State.mailTo]

@[simp] theorem State.wantLaneVariant_shape (s : State) (g q : Nat) (job : U16) :
    (s.wantLaneVariant g q job).shape = s.shape := by
  simp [State.wantLaneVariant]

@[simp] theorem State.endLaneVariant_shape (s : State) (g q : Nat) : (s.endLaneVariant g q).shape = s.shape := by
  simp [State.endLaneVariant]

@[simp] theorem State.eclipseStream_shape (s : State) (b : Nat) : (s.eclipseStream b).shape = s.shape := by
  simp only [State.eclipseStream]
  (repeat' split) <;> simp

@[simp] theorem State.eclipse_shape (s : State) (b : Nat) (cause : EclipseCause) (logged : Bool) :
    (s.eclipse b cause logged).shape = s.shape := by
  simp [State.eclipse]

@[simp] theorem State.eclipseLink_shape (s : State) (q p : Nat) (cause : EclipseCause) :
    (s.eclipseLink q p cause).shape = s.shape := by
  simp only [State.eclipseLink]
  (repeat' split) <;> simp

/-! ### Shape: what `CalOps` defines -/

@[simp] theorem State.seedEst_shape (s : State) (b : Nat) : (s.seedEst b).shape = s.shape := by simp [State.seedEst]

@[simp] theorem State.measuredEst_shape (s : State) (b : Nat) (src : EstSource) :
    (s.measuredEst b src).shape = s.shape := by
  simp [State.measuredEst]

@[simp] theorem State.setTrial_shape (s : State) (p r : Nat) : (s.setTrial p r).shape = s.shape := by
  simp [State.setTrial]

@[simp] theorem State.firstTrials_shape (s : State) (ps : List Nat) : (s.firstTrials ps).shape = s.shape := by
  simp [State.firstTrials]

@[simp] theorem State.goLive_shape (s : State) (b : Nat) : (s.goLive b).shape = s.shape := by
  simp only [State.goLive]
  (repeat' split) <;> simp

@[simp] theorem State.tryLive_shape (s : State) (b : Nat) : (s.tryLive b).shape = s.shape := by simp [State.tryLive]

@[simp] theorem State.ackCtl_shape (s : State) (b : Nat) (tval : BitVec 12) : (s.ackCtl b tval).shape = s.shape := by
  simp only [State.ackCtl]
  (repeat' split) <;> simp

@[simp] theorem State.tempReading_shape (s : State) (b : Nat) (v : BitVec 12) : (s.tempReading b v).shape = s.shape := by
  simp [State.tempReading]

@[simp] theorem State.wideCores_shape (s : State) (g : Nat) (on : Bool) : (s.wideCores g on).shape = s.shape := by
  simp [State.wideCores]

@[simp] theorem State.resumeSolves_shape (s : State) (g : Nat) : (s.resumeSolves g).shape = s.shape := by
  simp [State.resumeSolves]

@[simp] theorem State.beginSolve_shape (s : State) (b : Nat) : (s.beginSolve b).shape = s.shape := by
  simp [State.beginSolve]

@[simp] theorem State.stopSolve_shape (s : State) (b : Nat) : (s.stopSolve b).shape = s.shape := by
  simp [State.stopSolve]

@[simp] theorem State.startupCal_shape (s : State) (g : Nat) : (s.startupCal g).shape = s.shape := by
  simp [State.startupCal]

/-! ### Shape: what `CoreEvents` defines -/

@[simp] theorem State.dispatchCore_shape (s : State) (r : CoreRef) : (s.dispatchCore r).shape = s.shape := by
  simp [State.dispatchCore]

/-! ### Shape: what `MemEvents` defines -/

@[simp] theorem State.deliver_shape (s : State) (g : Nat) (q : MemReq) (ws : List (Nat × Nat × Nat × Word)) :
    (s.deliver g q ws).shape = s.shape := by
  simp [State.deliver]

@[simp] theorem State.hubServed_shape (s : State) (g : Nat) : (s.hubServed g).shape = s.shape := by
  simp [State.hubServed]

@[simp] theorem State.leaveLate_shape (s : State) (g : Fin 8) (me : Requester) : (s.leaveLate g me).shape = s.shape := by
  simp only [State.leaveLate]
  (repeat' split) <;> simp

@[simp] theorem State.answer_shape (s : State) (g : Fin 8) (q : MemReq) (ws : List (Nat × Nat × Nat × Word)) :
    (s.answer g q ws).shape = s.shape := by
  simp [State.answer]

theorem State.glbPass_shape {s u : State} {g : Nat} {m : Bool} (h : s.glbPass g m = some u) : u.shape = s.shape := by
  simp only [State.glbPass] at h
  split at h
  · cases h
  · split at h
    · cases h; rfl
    · split at h
      · cases h; simp
      · cases h

theorem State.drainWay_shape {s u : State} {r : CoreRef} {e : SbEntry} (h : s.drainWay r e = some u) :
    u.shape = s.shape := by
  simp only [State.drainWay] at h
  split at h
  · split at h
    · cases h
    · obtain ⟨y, -, rfl⟩ := Option.map_eq_some_iff.1 h; simp
  · split at h
    · cases h
    · exact State.glbPass_shape h
  · cases h; rfl

@[simp] theorem State.signalLine_shape (s : State) (r : CoreRef) (u : Nat) : (s.signalLine r u).shape = s.shape := by
  simp only [State.signalLine]
  (repeat' split) <;> simp

@[simp] theorem State.drainEntry_shape (s : State) (r : CoreRef) (e : SbEntry) : (s.drainEntry r e).shape = s.shape := by
  simp only [State.drainEntry]
  (repeat' split) <;> simp

@[simp] theorem State.scrubBad_shape (s : State) (r : CoreRef) (which a : Nat) :
    (s.scrubBad r which a).shape = s.shape := by
  simp only [State.scrubBad]
  (repeat' split) <;> simp

@[simp] theorem State.scrubOwn_shape (s : State) (r : CoreRef) (which : Nat) : (s.scrubOwn r which).shape = s.shape := by
  simp only [State.scrubOwn]
  (repeat' split) <;> simp

@[simp] theorem State.portRefuse_shape (s : State) (g : Fin 8) : (s.portRefuse g).shape = s.shape := by
  simp [State.portRefuse]

@[simp] theorem State.portUdt_shape (s : State) (g : Fin 8) (c : Fin 9) (off : Nat) (v : Word) :
    (s.portUdt g c off v).shape = s.shape := by
  simp [State.portUdt]

@[simp] theorem State.portWrite_shape (s : State) (g : Fin 8) (c : Fin 9) (w : PortWrite) :
    (s.portWrite g c w).shape = s.shape := by
  simp only [State.portWrite]
  (repeat' split) <;> simp

/-! ### Shape: what `DmaOps` defines -/

@[simp] theorem State.onChan_shape (s : State) (e : Eng) (n : Nat) (f : Chan → Chan) :
    (s.onChan e n f).shape = s.shape := by
  simp only [State.onChan]
  (repeat' split) <;> simp

@[simp] theorem State.engReadOf_shape (s : State) (res : Option (U16 × U32)) (e : Eng) (a : Nat) :
    (s.engReadOf res e a).1.shape = s.shape := by
  simp only [State.engReadOf]
  (repeat' split) <;> simp

@[simp] theorem State.engRead_shape (s : State) (e : Eng) (a : Nat) : (s.engRead e a).1.shape = s.shape := by
  simp [State.engRead]

@[simp] theorem State.engWrite_shape (s : State) (e : Eng) (a : Nat) (v : Word) : (s.engWrite e a v).shape = s.shape := by
  simp only [State.engWrite]
  (repeat' split) <;> simp

@[simp] theorem State.engReadList_shape (s : State) (e : Eng) (as : List Nat) : (s.engReadList e as).1.shape = s.shape :=
  foldl_shape_of Prod.fst _ (fun b a => by simp) as _

@[simp] theorem State.syncCcb_shape (s : State) (e : Eng) (n : Nat) (old : Chan) (upd : List CcbField) :
    (s.syncCcb e n old upd).shape = s.shape := by
  simp [State.syncCcb]

@[simp] theorem State.chanStepU_shape (s : State) (e : Eng) (n : Nat) (upd : List CcbField) (f : Chan → Chan) :
    (s.chanStepU e n upd f).shape = s.shape := by
  simp [State.chanStepU]

@[simp] theorem State.chanStep_shape (s : State) (e : Eng) (n : Nat) (f : Chan → Chan) :
    (s.chanStep e n f).shape = s.shape := by
  simp [State.chanStep]

@[simp] theorem State.dmaCoreRead_shape (s : State) (g : Fin 8) (k a : Nat) : (s.dmaCoreRead g k a).1.shape = s.shape := by
  simp only [State.dmaCoreRead]
  (repeat' split) <;> simp

@[simp] theorem State.dmaRead_shape (s : State) (res : Option (U16 × U32)) (e : Eng) (sp : DmaSpace) (a : Nat) :
    (s.dmaRead res e sp a).1.shape = s.shape := by
  simp only [State.dmaRead]
  (repeat' split) <;> simp

@[simp] theorem State.dlSend_shape (s : State) (g ch : Nat) (ws : List Word) : (s.dlSend g ch ws).shape = s.shape := by
  simp [State.dlSend]

@[simp] theorem State.dlPut_shape (s : State) (g ch : Nat) (w : Word) : (s.dlPut g ch w).shape = s.shape := by
  simp [State.dlPut]

@[simp] theorem State.dmaWrite_shape (s : State) (e : Eng) (ch : Nat) (sp : DmaSpace) (a : Nat) (v : Word) :
    (s.dmaWrite e ch sp a v).shape = s.shape := by
  simp only [State.dmaWrite]
  (repeat' split) <;> simp

@[simp] theorem State.readUnits_shape (s : State) (res : Option (U16 × U32)) (e : Eng) (d : Side) (k : Nat) :
    (s.readUnits res e d k).1.shape = s.shape := by
  refine foldl_shape_of Prod.fst _ (fun b i => ?_) _ _
  exact foldl_shape_of (Prod.fst : State × Nat × Nat × Bool → State) _ (fun x a => by simp) _ _

@[simp] theorem State.writeUnits_shape (s : State) (e : Eng) (ch : Nat) (d : Side) (swp from_ : Nat) (vs : List Nat) :
    (s.writeUnits e ch d swp from_ vs).shape = s.shape := by
  simp only [State.writeUnits]
  (repeat' split) <;> simp

/-- A state that a chain of claims may refuse. -/
theorem foldl_bind_shape {α : Type} (f : State → α → Option State) (h : ∀ t a u, f t a = some u → u.shape = t.shape)
    (l : List α) {o : Option State} {s u : State} (ho : ∀ t, o = some t → t.shape = s.shape)
    (hu : l.foldl (fun acc a => acc.bind (fun t => f t a)) o = some u) : u.shape = s.shape := by
  induction l generalizing o with
  | nil => exact ho u hu
  | cons a l ih =>
    refine ih (fun t ht => ?_) hu
    obtain ⟨v, hv, hf⟩ := Option.bind_eq_some_iff.1 ht
    exact (h v a t hf).trans (ho v hv)

theorem State.claimSide_shape {s u : State} {e : Eng} {sp : DmaSpace} {as : List Nat} (h : s.claimSide e sp as = some u) :
    u.shape = s.shape := by
  simp only [State.claimSide] at h
  split at h
  · refine foldl_bind_shape _ (fun t a v hv => ?_) _ (fun t ht => by cases ht; rfl) h
    obtain ⟨y, -, rfl⟩ := Option.map_eq_some_iff.1 hv
    simp
  · split at h
    · cases h; rfl
    · exact State.glbPass_shape h
  · cases h; rfl

theorem State.claimRec_shape {s u : State} {e : Eng} {n : Nat} (h : s.claimRec e n = some u) : u.shape = s.shape :=
  State.claimSide_shape h

@[simp] theorem State.served_shape (s : State) (e : Eng) (n : Nat) : (s.served e n).shape = s.shape := by
  simp only [State.served]
  (repeat' split) <;> simp

@[simp] theorem State.appendRec_shape (s : State) (e : Eng) (n : Nat) (r : ChRec) :
    (s.appendRec e n r).shape = s.shape := by
  simp [State.appendRec]

@[simp] theorem State.owe_shape (s : State) (e : Eng) (n : Nat) (r : ChRec) : (s.owe e n r).shape = s.shape := by
  simp [State.owe]

@[simp] theorem State.targetError_shape (s : State) (e : Eng) (n : Nat) (cause : BitVec 4) (k : Nat) :
    (s.targetError e n cause k).shape = s.shape := by
  unfold State.targetError; simp

@[simp] theorem State.budgetStop_shape (s : State) (e : Eng) (n : Nat) : (s.budgetStop e n).shape = s.shape := by
  simp [State.budgetStop]

theorem State.beatClaim_shape {s u : State} {e : Eng} {n : Nat} (h : s.beatClaim e n = some u) : u.shape = s.shape := by
  simp only [State.beatClaim] at h
  split at h
  · cases h; rfl
  · split at h
    · obtain ⟨t, h1, h2⟩ := Option.bind_eq_some_iff.1 h
      exact (State.claimSide_shape h2).trans (State.claimSide_shape h1)
    · split at h
      · exact State.claimRec_shape h
      · cases h; rfl

@[simp] theorem State.failBeat_shape (s : State) (e : Eng) (n : Nat) (k : BitVec 4) :
    (s.failBeat e n k).shape = s.shape := by
  simp [State.failBeat]

@[simp] theorem State.beat_shape (s : State) (e : Eng) (n : Nat) (go : State → State)
    (hgo : ∀ t, (go t).shape = t.shape) : (s.beat e n go).shape = s.shape := by
  unfold State.beat
  extract_lets old begins s1
  have h1 : s1.shape = s.shape := by simp [s1]
  split
  · simp [h1]
  · split
    · simp [h1]
    · split
      · rfl
      · rename_i hc; simp [hgo, State.beatClaim_shape hc, h1]

@[simp] theorem State.moveUnits_shape (s : State) (e : Eng) (n : Nat) (m : MvF) (us : List Nat) (q : Chunk) (early : Nat) (bad : Bool) :
    (s.moveUnits e n m us q early bad).shape = s.shape := by
  simp [State.moveUnits]

@[simp] theorem State.moveBeat_shape (s : State) (e : Eng) (n : Nat) : (s.moveBeat e n).shape = s.shape := by
  simp only [State.moveBeat]
  (repeat' split) <;> simp

@[simp] theorem State.hostReadBeat_shape (s : State) (n : Nat) : (s.hostReadBeat n).shape = s.shape := by
  simp only [State.hostReadBeat]
  (repeat' split) <;> simp

@[simp] theorem State.dmaStop_shape (s : State) (e : Eng) (n cause : Nat) : (s.dmaStop e n cause).shape = s.shape := by
  simp only [State.dmaStop]
  (repeat' split) <;> simp

@[simp] theorem State.dmaStopAll_shape (s : State) (e : Eng) (cause : Nat) (p : Chan → Bool) :
    (s.dmaStopAll e cause p).shape = s.shape := by
  simp [State.dmaStopAll]

@[simp] theorem State.dmaBeacon_shape (s : State) (e : Eng) : (s.dmaBeacon e).shape = s.shape := by
  simp [State.dmaBeacon]

/-! ### Shape: what `Dma` defines -/

@[simp] theorem State.cmdDone_shape (s : State) (e : Eng) (n : Nat) (err : BitVec 4) :
    (s.cmdDone e n err).shape = s.shape := by
  simp [State.cmdDone]

@[simp] theorem State.dmaStart_shape (s : State) (e : Eng) (n : Nat) : (s.dmaStart e n).shape = s.shape := by
  simp [State.dmaStart]

theorem State.fetchInstr_shape {s : State} {e : Eng} {c : Chan} {r : State × List DWord × Bool}
    (h : s.fetchInstr e c = some r) : r.1.shape = s.shape := by
  obtain ⟨s1, h1, h2⟩ := Option.bind_eq_some_iff.1 h
  obtain ⟨s2, h3, rfl⟩ := Option.map_eq_some_iff.1 h2
  simp [State.claimSide_shape h1, State.claimSide_shape h3]

@[simp] theorem State.dmaSignalLine_shape (s : State) (e : Eng) (n : Nat) : (s.dmaSignalLine e n).shape = s.shape := by
  simp only [State.dmaSignalLine]
  (repeat' split) <;> simp

@[simp] theorem State.applyReads_shape (s : State) (ch n : Nat) : (s.applyReads ch n).shape = s.shape := by
  induction n generalizing s with
  | zero => rfl
  | succ n ih => simp only [State.applyReads]; (repeat' split) <;> simp [ih]

@[simp] theorem State.readBack_shape (s : State) (n k : Nat) (r : HostRead) : (s.readBack n k r).shape = s.shape := by
  simp [State.readBack]

/-! ### Shape: what `JobOps` defines -/

@[simp] theorem State.coreReset_shape (s : State) (g c : Nat) : (s.coreReset g c).shape = s.shape := by
  simp [State.coreReset]

@[simp] theorem State.settleCores_shape (s : State) (g : Nat) : (s.settleCores g).shape = s.shape := by
  simp [State.settleCores]

@[simp] theorem State.installRole_shape (s : State) (c : List Byte) (g lg slot p : Nat) :
    (s.installRole c g lg slot p).shape = s.shape := by
  simp [State.installRole]

@[simp] theorem State.loadBstn_shape (s : State) (c : List Byte) (g lg var : Nat) :
    (s.loadBstn c g lg var).shape = s.shape := by
  simp [State.loadBstn]

@[simp] theorem State.startChannels_shape (s : State) (c : List Byte) (g lg var : Nat) :
    (s.startChannels c g lg var).shape = s.shape := by
  simp [State.startChannels]

@[simp] theorem State.makeSet_shape (s : State) (st : Machine.Stream) (d : ℤ) (sresp : List Word) (dref : ℤ) (sub : Bool) :
    (s.makeSet st d sresp dref sub).2.shape = s.shape := by
  simp only [State.makeSet]
  (repeat' split) <;> simp

@[simp] theorem State.putSet_shape (s : State) (g : Nat) (st : Machine.Stream) (b : Bool) (ws : List Word) :
    (s.putSet g st b ws).shape = s.shape := by
  simp [State.putSet]

@[simp] theorem State.firstSet_shape (s : State) (b : Nat) (dref : ℤ) : (s.firstSet b dref).shape = s.shape := by
  simp only [State.firstSet]
  (repeat' split) <;> simp

@[simp] theorem State.loadLode_shape (s : State) (j : Job) (g : Nat) : (s.loadLode j g).shape = s.shape := by
  simp [State.loadLode]

@[simp] theorem State.activate_shape (s : State) (j : Job) (g : Nat) : (s.activate j g).shape = s.shape := by
  simp only [State.activate]
  rw [foldl_shape _ (fun t b => ?_)]
  · simp
  · split <;> simp

@[simp] theorem State.serve_shape (s : State) (j : Job) (g slot p : Nat) : (s.serve j g slot p).shape = s.shape := by
  simp [State.serve]

@[simp] theorem State.firstFrame_shape (s : State) (j : Job) (g : Nat) : (s.firstFrame j g).shape = s.shape := by
  simp [State.firstFrame]

@[simp] theorem State.unbind_shape (s : State) (b : Nat) : (s.unbind b).shape = s.shape := by
  simp only [State.unbind]
  (repeat' split) <;> simp

@[simp] theorem State.dropDone_shape (s : State) : s.dropDone.shape = s.shape := by simp [State.dropDone]

@[simp] theorem State.releaseGeode_shape (s : State) (j : Job) (g : Nat) : (s.releaseGeode j g).shape = s.shape := by
  simp [State.releaseGeode]

@[simp] theorem State.prepTable_shape (s : State) (j : Job) (g : Nat) (n : U32) : (s.prepTable j g n).shape = s.shape := by
  simp [State.prepTable]

@[simp] theorem State.roleFails_shape (s : State) (j : Job) (g c r : Nat) (n : U32) :
    (s.roleFails j g c r n).shape = s.shape := by
  simp only [State.roleFails]
  (repeat' split) <;> simp

@[simp] theorem State.spareFails_shape (s : State) (g c : Nat) (n : U32) : (s.spareFails g c n).shape = s.shape := by
  simp [State.spareFails]

@[simp] theorem State.eclipseCore_shape (s : State) (g c why : Nat) : (s.eclipseCore g c why).shape = s.shape := by
  simp only [State.eclipseCore]
  (repeat' split) <;> simp

@[simp] theorem State.switchVariant_shape (s : State) (j : Job) (g : Nat) (v : Byte) :
    (s.switchVariant j g v).shape = s.shape := by
  simp [State.switchVariant]

@[simp] theorem State.takeover_shape (s : State) (j : Job) (g : Nat) (n : U32) : (s.takeover j g n).shape = s.shape := by
  simp only [State.takeover]
  (repeat' split) <;> simp

@[simp] theorem State.newSwap_shape (s : State) (id : U16) (n : U32) (j : Job) : (s.newSwap id n j).1.shape = s.shape := by
  simp only [State.newSwap]
  (repeat' split) <;> simp

@[simp] theorem State.decideSwap_shape (s : State) (id : U16) (n : U32) : (s.decideSwap id n).1.shape = s.shape := by
  simp only [State.decideSwap]
  (repeat' split) <;> simp

@[simp] theorem State.flipLit_shape (s : State) (b : Nat) (n : U32) : (s.flipLit b n).shape = s.shape := by
  simp only [State.flipLit]
  (repeat' split) <;> simp

@[simp] theorem State.showHold_shape (s : State) (b : Nat) (n : U32) (j : Job) : (s.showHold b n j).shape = s.shape := by
  simp only [State.showHold]
  (repeat' split) <;> simp

@[simp] theorem State.writeCalhdr_shape (s : State) (b : Nat) (gen : U16) : (s.writeCalhdr b gen).shape = s.shape := by
  simp only [State.writeCalhdr]
  (repeat' split) <;> simp

@[simp] theorem State.calStep_shape (s : State) (j : Job) (g : Nat) (n : U32) : (s.calStep j g n).shape = s.shape := by
  simp [State.calStep]

@[simp] theorem State.controlPage_shape (s : State) (j : Job) (g : Nat) (n : U32) :
    (s.controlPage j g n).shape = s.shape := by
  simp only [State.controlPage]
  (repeat' split) <;> simp

/-! ### Shape: what `HostOps` defines -/

@[simp] theorem State.malformed_shape (s : State) (h : CmdHdr) (off opcode : Nat) (status : U16) :
    (s.malformed h off opcode status).shape = s.shape := by
  simp [State.malformed]

@[simp] theorem State.takeFetched_shape (s : State) (h : CmdHdr) (opcode : Nat) :
    (s.takeFetched h opcode).shape = s.shape := by
  simp only [State.takeFetched]
  (repeat' split) <;> simp

@[simp] theorem State.malformedAt_shape (s : State) (h : CmdHdr) (off : Option Nat) (opcode : Nat) (status : U16) :
    (s.malformedAt h off opcode status).shape = s.shape := by
  simp only [State.malformedAt]
  (repeat' split) <;> simp

@[simp] theorem State.cmd_shape (s : State) (h : CmdHdr) (r : CmdRule) (body : State → State)
    (hb : ∀ t, (body t).shape = t.shape) : (s.cmd h r body).shape = s.shape := by
  simp [State.cmd, hb]

@[simp] theorem State.freshBytes_shape (s : State) (n : Nat) : (s.freshBytes n).2.shape = s.shape := by
  simp [State.freshBytes]

@[simp] theorem State.bytesIf_shape (s : State) (known : Bool) (bs : List Byte) :
    (s.bytesIf known bs).2.shape = s.shape := by
  simp only [State.bytesIf]
  (repeat' split) <;> simp

@[simp] theorem State.refusal_shape (s : State) (x : NoFit) (fit : Option U32) : (s.refusal x fit).2.shape = s.shape := by
  simp only [State.refusal]
  (repeat' split) <;> simp

@[simp] theorem State.fixPeriod_shape (s : State) : s.fixPeriod.shape = s.shape := by simp [State.fixPeriod]

@[simp] theorem State.placeRing_shape (s : State) (js : List Job) (ds kiw : Nat) :
    (s.placeRing js ds kiw).2.shape = s.shape := by
  simp [State.placeRing]

@[simp] theorem State.placeRings_shape (s : State) (js : List Job) (j : Job) (ks : List Nat) :
    (s.placeRings js j ks).2.shape = s.shape := by
  induction ks generalizing s j with
  | nil => rfl
  | cons k ks ih => simp [State.placeRings, ih]

@[simp] theorem State.bindStream_shape (s : State) (c : List Byte) (gs : List Nat) (j : U16) (bidx : Nat) (b : Binding) :
    (s.bindStream c gs j bidx b).shape = s.shape := by
  simp [State.bindStream]

@[simp] theorem State.mailAll_shape (s : State) (j : Job) (m : MailMsg) : (s.mailAll j m).shape = s.shape := by
  simp [State.mailAll]

@[simp] theorem State.mailSwap_shape (s : State) (j : Job) (b : U32) : (s.mailSwap j b).shape = s.shape := by
  simp [State.mailSwap]

@[simp] theorem State.mailRelease_shape (s : State) (j : Job) (r : U32) : (s.mailRelease j r).shape = s.shape := by
  simp [State.mailRelease]

@[simp] theorem State.takeJob_shape (s : State) (h : CmdHdr) (slot : Nat) (vec : Byte) (openEnd : Bool) (e : U32) (bs : List Binding) (start first : U32) :
    (s.takeJob h slot vec openEnd e bs start first).shape = s.shape := by
  simp [State.takeJob]

@[simp] theorem State.onSlot_shape (s : State) (n : Nat) (f : LodeSlot → LodeSlot) : (s.onSlot n f).shape = s.shape := by
  simp [State.onSlot]

@[simp] theorem State.freeImages_shape (s : State) (n : Nat) : (s.freeImages n).shape = s.shape := by
  simp [State.freeImages]

@[simp] theorem State.emptySlot_shape (s : State) (n : Nat) : (s.emptySlot n).shape = s.shape := by
  simp [State.emptySlot]

@[simp] theorem State.fillPage_shape (s : State) (g page : Nat) : (s.fillPage g page).shape = s.shape := by
  simp [State.fillPage]

@[simp] theorem State.takePages_shape (s : State) (slot g n : Nat) : (s.takePages slot g n).shape = s.shape := by
  simp [State.takePages]

@[simp] theorem State.placeImages_shape (s : State) (n : Nat) : (s.placeImages n).shape = s.shape := by
  simp [State.placeImages]

@[simp] theorem State.bytesIn_shape (s : State) (n : Nat) : (s.bytesIn n).shape = s.shape := by simp [State.bytesIn]

@[simp] theorem State.settleSlot_shape (s : State) (n : Nat) : (s.settleSlot n).shape = s.shape := by
  simp only [State.settleSlot]
  (repeat' split) <;> simp

@[simp] theorem State.fnCfgerr_shape (s : State) (f : Nat) : (s.fnCfgerr f).shape = s.shape := by simp [State.fnCfgerr]
@[simp] theorem State.tryFlush_shape (s : State) (f : Nat) : (s.tryFlush f).shape = s.shape := by simp [State.tryFlush]

@[simp] theorem State.writeCrtail_shape (s : State) (f v : Nat) : (s.writeCrtail f v).shape = s.shape := by
  simp [State.writeCrtail]

@[simp] theorem State.writeRrhead_shape (s : State) (f v : Nat) : (s.writeRrhead f v).shape = s.shape := by
  simp [State.writeRrhead]

@[simp] theorem State.setCren_shape (s : State) (f : Nat) (on : Bool) : (s.setCren f on).shape = s.shape := by
  simp [State.setCren]

@[simp] theorem State.dropPosts_shape (s : State) (f : Nat) : (s.dropPosts f).shape = s.shape := by
  simp [State.dropPosts]

@[simp] theorem State.setRren_shape (s : State) (f : Nat) (on : Bool) : (s.setRren f on).shape = s.shape := by
  simp [State.setRren]

@[simp] theorem State.startWake_shape (s : State) : s.startWake.shape = s.shape := by simp [State.startWake]

@[simp] theorem State.writeBase_shape (s : State) (f : Nat) (on : Bool) (g : Fn → Fn) :
    (s.writeBase f on g).shape = s.shape := by
  simp [State.writeBase]

@[simp] theorem State.writeSize_shape (s : State) (f : Nat) (on : Bool) (v : Nat) (g : BitVec 5 → Fn → Fn) :
    (s.writeSize f on v g).shape = s.shape := by
  simp [State.writeSize]

@[simp] theorem State.writeMsix_shape (s : State) (f i v : Nat) : (s.writeMsix f i v).shape = s.shape := by
  simp [State.writeMsix]

@[simp] theorem State.barWrite_shape (s : State) (f off v : Nat) : (s.barWrite f off v).shape = s.shape := by
  simp [State.barWrite]

@[simp] theorem State.barAccess_shape (s : State) (f off bytes : Nat) (poisoned : Bool) (v : U64) :
    (s.barAccess f off bytes poisoned v).shape = s.shape := by
  simp [State.barAccess]

@[simp] theorem State.stopChannels_shape (s : State) (f : Nat) : (s.stopChannels f).shape = s.shape := by
  simp [State.stopChannels]

@[simp] theorem State.dropLoading_shape (s : State) (f : Nat) : (s.dropLoading f).shape = s.shape := by
  simp [State.dropLoading]

@[simp] theorem State.dropJobs_shape (s : State) (f : Nat) : (s.dropJobs f).shape = s.shape := by simp [State.dropJobs]
@[simp] theorem State.flrOne_shape (s : State) (f : Nat) : (s.flrOne f).shape = s.shape := by simp [State.flrOne]
@[simp] theorem State.flr_shape (s : State) (f : Nat) : (s.flr f).shape = s.shape := by simp [State.flr]
@[simp] theorem State.disableVfs_shape (s : State) : s.disableVfs.shape = s.shape := by simp [State.disableVfs]
@[simp] theorem State.flrSlots_shape (s : State) : s.flrSlots.shape = s.shape := by simp [State.flrSlots]

@[simp] theorem State.say_shape (s : State) (p : Port) (bs : List Byte) : (s.say p bs).shape = s.shape := by
  simp only [State.say]
  (repeat' split) <;> simp

@[simp] theorem State.sayLine_shape (s : State) (p : Port) (bs : List Byte) : (s.sayLine p bs).shape = s.shape := by
  simp [State.sayLine]

@[simp] theorem State.prompt_shape (s : State) (p : Port) : (s.prompt p).shape = s.shape := by simp [State.prompt]
@[simp] theorem State.banner_shape (s : State) (p : Port) : (s.banner p).shape = s.shape := by simp [State.banner]

/-! ### Shape: what `Beacons` defines -/

@[simp] theorem State.startStep_shape (s : State) : s.startStep.shape = s.shape := by
  unfold State.startStep
  extract_lets e ms next
  have hn : next.shape = s.shape := by simp [next]
  split
  · split
    · exact (State.withCores_shape (next.onAon _) _ (by simp)).trans (by simp [hn])
    · rfl
  all_goals simp [hn]

@[simp] theorem State.ppsFall_shape (s : State) : s.ppsFall.shape = s.shape := by simp [State.ppsFall]

@[simp] theorem State.quietModules_shape (s : State) (g : Nat) : (s.quietModules g).shape = s.shape := by
  simp [State.quietModules]

@[simp] theorem State.geodeMarks_shape (s : State) (j : Job) (g : Nat) (n : U32) :
    (s.geodeMarks j g n).shape = s.shape := by
  simp [State.geodeMarks]

@[simp] theorem State.lodeStep_shape (s : State) (j : Job) (g : Nat) (n : U32) : (s.lodeStep j g n).shape = s.shape := by
  simp [State.lodeStep]

@[simp] theorem State.jobSteps_shape (s : State) (g : Nat) (n : U32) : (s.jobSteps g n).shape = s.shape := by
  simp only [State.jobSteps]
  (repeat' split) <;> simp

@[simp] theorem State.faultStep_shape (s : State) (g : Nat) : (s.faultStep g).shape = s.shape := by
  simp only [State.faultStep]
  (repeat' split) <;> simp

@[simp] theorem State.beaconToCores_shape (s : State) (g : Nat) (n : U32) : (s.beaconToCores g n).shape = s.shape :=
  (State.onCoreAt_shape _ _ _).trans (State.withCores_shape s _ (by simp))

@[simp] theorem State.streamU_shape (s : State) (b : Nat) : (s.streamU b).2.shape = s.shape := by
  simp only [State.streamU]
  (repeat' split) <;> simp

@[simp] theorem State.fixSwap_shape (s : State) (id : U16) (n : U32) : (s.fixSwap id n).shape = s.shape := by
  simp only [State.fixSwap]
  repeat' split
  · simp
  · simp
  · simp [foldl_shape_of (Prod.snd : Nat × State → State)]

@[simp] theorem State.replaceFrame_shape (s : State) (j : Job) (f : U32) : (s.replaceFrame j f).shape = s.shape := by
  simp [State.replaceFrame]

@[simp] theorem State.jobBeacon_shape (s : State) (id : U16) (n : U32) : (s.jobBeacon id n).shape = s.shape := by
  simp only [State.jobBeacon]
  (repeat' split) <;> simp

/-! ### Shape: what `Calibration` defines -/

@[simp] theorem State.streamEpoch_shape (s : State) (b : Nat) (st : Machine.Stream) (r : EpochResult) :
    (s.streamEpoch b st r).shape = s.shape := by
  simp [State.streamEpoch]

@[simp] theorem State.buildShadow_shape (s : State) (b : Nat) (st : Machine.Stream) :
    (s.buildShadow b st).shape = s.shape := by
  simp [State.buildShadow]

/-! ### Shape: what `Lanes` defines -/

@[simp] theorem State.leave_shape (s : State) (b : Nat) : (s.leave b).shape = s.shape := by simp [State.leave]

@[simp] theorem State.busFault_shape (s : State) (q why : Nat) : (s.busFault q why).shape = s.shape := by
  simp [State.busFault]

@[simp] theorem State.judge_shape (s : State) (b reason : Nat) : (s.judge b reason).shape = s.shape := by
  simp [State.judge]

@[simp] theorem State.setAlert_shape (s : State) (q : Nat) (low : Bool) : (s.setAlert q low).shape = s.shape := by
  simp [State.setAlert]

@[simp] theorem State.alertByte_shape (s : State) (b : Nat) (v : Byte) : (s.alertByte b v).shape = s.shape := by
  simp [State.alertByte]

@[simp] theorem State.applyDlink_shape (s : State) (q : Nat) : (s.applyDlink q).shape = s.shape := by
  simp [State.applyDlink]

@[simp] theorem State.trainLane_shape (s : State) (p : Nat) : (s.trainLane p).shape = s.shape := by
  simp only [State.trainLane]
  (repeat' split) <;> simp

@[simp] theorem State.idleLane_shape (s : State) (p : Nat) : (s.idleLane p).shape = s.shape := by simp [State.idleLane]

@[simp] theorem State.laneFails_shape (s : State) (p : Nat) : (s.laneFails p).shape = s.shape := by
  simp [State.laneFails]

@[simp] theorem State.rateSplit_shape (s : State) (b : Nat) : (s.rateSplit b).shape = s.shape := by
  simp [State.rateSplit]

@[simp] theorem State.attemptFails_shape (s : State) (b : Nat) : (s.attemptFails b).shape = s.shape := by
  simp [State.attemptFails]

@[simp] theorem State.linkFails_shape (s : State) (q : Nat) : (s.linkFails q).shape = s.shape := by
  simp [State.linkFails]

@[simp] theorem State.badCodeword_shape (s : State) (p why : Nat) : (s.badCodeword p why).shape = s.shape := by
  simp only [State.badCodeword]
  (repeat' split) <;> simp

@[simp] theorem State.fillCodeword_shape (s : State) (p : Nat) (tsel : BitVec 4) (tval : BitVec 12) :
    (s.fillCodeword p tsel tval).shape = s.shape := by
  simp only [State.fillCodeword]
  (repeat' split) <;> simp

@[simp] theorem State.checkSeq_shape (s : State) (p : Nat) (seq : BitVec 14) : (s.checkSeq p seq).1.shape = s.shape := by
  simp only [State.checkSeq]
  (repeat' split) <;> simp

@[simp] theorem State.blockCal_shape (s : State) (b : Nat) (inj calv : Bool) : (s.blockCal b inj calv).shape = s.shape := by
  simp only [State.blockCal]
  (repeat' split) <;> simp

@[simp] theorem State.findBlocks_shape (s : State) (b lane : Nat) (an : Anc) (seq : BitVec 14) (txt t : ℤ) :
    (s.findBlocks b lane an seq txt t).shape = s.shape := by
  simp only [State.findBlocks]
  (repeat' split) <;> simp

@[simp] theorem State.overRate_shape (s : State) (p : Nat) (frame : U32) : (s.overRate p frame).shape = s.shape := by
  simp [State.overRate]

@[simp] theorem State.placeBlock_shape (s : State) (b lane blane : Nat) (txt t : ℤ) (an : Anc) (ovr inj : Bool) (seq : BitVec 14) (ws : List Word) (seqGap dropped : Bool) :
    (s.placeBlock b lane blane txt t an ovr inj seq ws seqGap dropped).shape = s.shape := by
  simp only [State.placeBlock]
  (repeat' split) <;> simp

@[simp] theorem State.solveBlock_shape (s : State) (b : Nat) (t : ℤ) (an : Anc) (ovr inj : Bool) (blane : Nat) (ws : List Word) :
    (s.solveBlock b t an ovr inj blane ws).shape = s.shape := by
  simp only [State.solveBlock]
  (repeat' split) <;> simp

@[simp] theorem State.liveData_shape (s : State) (p b : Nat) (f : CwFields) : (s.liveData p b f).shape = s.shape := by
  simp only [State.liveData]
  (repeat' split) <;> simp

@[simp] theorem State.dataCodeword_shape (s : State) (p : Nat) (f : CwFields) (corrected : Nat) :
    (s.dataCodeword p f corrected).shape = s.shape := by
  simp only [State.dataCodeword]
  (repeat' split) <;> simp

@[simp] theorem State.lateBlocks_shape (s : State) (x : StreamAt) (j : Job) (f : U32) :
    (s.lateBlocks x j f).shape = s.shape := by
  simp only [State.lateBlocks]
  (repeat' split) <;> simp

@[simp] theorem State.lateStream_shape (s : State) (x : StreamAt) : (s.lateStream x).shape = s.shape := by
  simp only [State.lateStream]
  (repeat' split) <;> simp

@[simp] theorem State.linkBlock_shape (s : State) (q ch blane : Nat) (seq : BitVec 14) (nvalid : Nat) (bcn : U32) (ws : List Word) :
    (s.linkBlock q ch blane seq nvalid bcn ws).shape = s.shape := by
  simp only [State.linkBlock]
  (repeat' split) <;> simp

/-! ### Shape: what `MonLine` defines -/

@[simp] theorem MonAns.send_shape (a : MonAns) (p : Port) : (a.send p).shape = a.st.shape := by simp [MonAns.send]

@[simp] theorem State.beginLode_shape (s : State) (slot : Fin 16) (mask : Byte) (len : Nat) :
    (s.beginLode slot mask len).shape = s.shape := by
  simp [State.beginLode]

@[simp] theorem State.abortLode_shape (s : State) (l : MonLode) (code : Nat) : (s.abortLode l code).shape = s.shape := by
  simp [State.abortLode]

@[simp] theorem State.lodeLine_shape (s : State) (l : MonLode) (line : List Byte) :
    (s.lodeLine l line).shape = s.shape := by
  simp only [State.lodeLine]
  (repeat' split) <;> simp

@[simp] theorem State.lineEnd_shape (s : State) : s.lineEnd.shape = s.shape := by
  simp only [State.lineEnd]
  (repeat' split) <;> simp

@[simp] theorem State.lineIn_shape (s : State) (x : MonIn) : (s.lineIn x).shape = s.shape := by
  simp only [State.lineIn]
  (repeat' split) <;> simp

@[simp] theorem State.drainBuf_shape (s : State) (n : Nat) : (s.drainBuf n).shape = s.shape := by
  induction n generalizing s with
  | zero => rfl
  | succ n ih => simp only [State.drainBuf]; (repeat' split) <;> simp [ih]

@[simp] theorem State.drainMon_shape (s : State) : s.drainMon.shape = s.shape := by simp [State.drainMon]

@[simp] theorem State.uartByte_shape (s : State) (b : Byte) (framing : Bool) : (s.uartByte b framing).shape = s.shape := by
  simp [State.uartByte]

/-! ### Shape: what `Posting` defines -/

@[simp] theorem State.hubReadN_shape (s : State) (a n : Nat) : (s.hubReadN a n).2.shape = s.shape := by
  induction n generalizing s a with
  | zero => rfl
  | succ n ih => simp [State.hubReadN, ih]

@[simp] theorem State.resultPayload_shape (s : State) (j : Job) (f : Frame) (kind : Nat) :
    (s.resultPayload j f kind).2.shape = s.shape := by
  simp only [State.resultPayload]
  (repeat' split) <;> simp

@[simp] theorem State.endedBytes_shape (s : State) (j : Job) : (s.endedBytes j).2.shape = s.shape := by
  simp only [State.endedBytes]
  (repeat' split) <;> simp

@[simp] theorem State.recordFor_shape (s : State) (j : Job) (a : PostItem) : (s.recordFor j a).2.2.shape = s.shape := by
  simp only [State.recordFor]
  (repeat' split) <;> simp

@[simp] theorem State.setGap_shape (s : State) (f : Nat) : (s.setGap f).shape = s.shape := by simp [State.setGap]
@[simp] theorem State.setLate_shape (s : State) (f : Nat) : (s.setLate f).shape = s.shape := by simp [State.setLate]

@[simp] theorem State.noteLate_shape (s : State) (j : Job) (f : U32) : (s.noteLate j f).shape = s.shape := by
  simp only [State.noteLate]
  (repeat' split) <;> simp

@[simp] theorem State.framePosted_shape (s : State) (j : Job) (f : U32) : (s.framePosted j f).shape = s.shape := by
  simp [State.framePosted]

@[simp] theorem State.resultDone_shape (s : State) (j : Job) (f : Frame) : (s.resultDone j f).shape = s.shape := by
  simp [State.resultDone]

@[simp] theorem State.recordDone_shape (s : State) (j : Job) (kind : Nat) (a : PostItem) :
    (s.recordDone j kind a).shape = s.shape := by
  simp only [State.recordDone]
  (repeat' split) <;> simp

/-- What a TLP leaves comes from one of two states: that with the record's payload, or that in which nothing leaves. -/
@[simp] theorem State.sendTlp_shape (s s0 : State) (j : Job) (p : Posting) (h0 : s0.shape = s.shape) :
    (s.sendTlp s0 j p).shape = s.shape := by
  unfold State.sendTlp
  extract_lets total n covered whole s1 s2
  have h1 : s1.shape = s.shape := by simp [s1]
  have h2 : s2.shape = s.shape := by simp [s2, h1]
  (repeat' split) <;> simp [h0, h2]

@[simp] theorem State.startRecord_shape (s : State) (j : Job) (it : PostItem) : (s.startRecord j it).shape = s.shape := by
  simp [State.startRecord]

/-! ### Shape: what `HostCommands` defines -/

@[simp] theorem State.fetchFailed_shape (s : State) (f : Nat) (cause : BitVec 4) :
    (s.fetchFailed f cause).shape = s.shape := by
  simp [State.fetchFailed]

@[simp] theorem State.packet_shape (s : State) (f : Fin 8) (bs : List Byte) : (s.packet f bs).shape = s.shape := by
  simp [State.packet]

@[simp] theorem State.takeChunk_shape (s : State) (h : CmdHdr) (slot : Nat) (first last : Bool) (mask : Byte) (len : Nat) (bs : List Byte) :
    (s.takeChunk h slot first last mask len bs).shape = s.shape := by
  simp [State.takeChunk]

@[simp] theorem State.answerSlot_shape (s : State) (slot : Nat) (w : Option CmdHdr) (m : Option Port) :
    (s.answerSlot slot w m).shape = s.shape := by
  simp only [State.answerSlot]
  (repeat' split) <;> simp

@[simp] theorem State.decideStart_shape (s : State) (h : CmdHdr) (slot : Nat) (vec : Byte) (openEnd : Bool) (start e : U32)
    (bs : List Binding) (off : Option Nat) : (s.decideStart h slot vec openEnd start e bs off).shape = s.shape := by
  simp only [State.decideStart]
  (repeat' split) <;> simp

@[simp] theorem State.stopJob_shape (s : State) (j : Job) (e : U32) : (s.stopJob j e).shape = s.shape := by
  simp [State.stopJob]

@[simp] theorem State.recordBytes_shape (s : State) (b : Nat) : (s.recordBytes b).2.shape = s.shape := by
  simp only [State.recordBytes]
  (repeat' split) <;> simp

@[simp] theorem State.cmdRead_shape (s : State) (space g c a : Nat) : (s.cmdRead space g c a).1.shape = s.shape := by
  simp only [State.cmdRead]
  (repeat' split) <;> simp

@[simp] theorem State.cmdReadN_shape (s : State) (space g c a n : Nat) : (s.cmdReadN space g c a n).1.shape = s.shape := by
  induction n generalizing s a with
  | zero => rfl
  | succ n ih => simp [State.cmdReadN, ih]

@[simp] theorem State.cmdWrite_shape (s : State) (space g c a : Nat) (v : Word) :
    (s.cmdWrite space g c a v).shape = s.shape := by
  simp only [State.cmdWrite]
  (repeat' split) <;> simp

@[simp] theorem State.duskModule_shape (s : State) (b : Nat) : (s.duskModule b).shape = s.shape := by
  simp [State.duskModule]

@[simp] theorem State.snapBlock_shape (s : State) (b : Nat) : (s.snapBlock b).2.shape = s.shape := by
  simp only [State.snapBlock]
  split
  · simp
  · exact foldl_shape_of (Prod.snd : List Byte × State → State) _ (fun acc p => by split <;> simp) _ _

@[simp] theorem State.beginHubReset_shape (s : State) (fw : Bool) : (s.beginHubReset fw).shape = s.shape := by
  unfold State.beginHubReset
  split
  · rfl
  · simp only [State.fixPeriod_shape, State.onHub_shape, State.onCoreAt_shape, State.onAon_shape]
    rw [State.withFns_shape _ _ (by simp)]
    simp

/-! ### Shape: what `HostLink` defines -/

@[simp] theorem State.wakeFlr_shape (s : State) (f : Nat) : (s.wakeFlr f).shape = s.shape := by simp [State.wakeFlr]

@[simp] theorem State.wakeSpare_shape (s : State) (j : Job) (g : Nat) : (s.wakeSpare j g).shape = s.shape := by
  simp only [State.wakeSpare]
  (repeat' split) <;> simp

@[simp] theorem State.wakeGeode_shape (s : State) (j : Job) (g : Nat) : (s.wakeGeode j g).shape = s.shape := by
  simp [State.wakeGeode]

@[simp] theorem State.wakeStream_shape (s : State) (b : Nat) : (s.wakeStream b).shape = s.shape := by
  simp only [State.wakeStream]
  (repeat' split) <;> simp

@[simp] theorem State.wakeLink_shape (s : State) (q : Nat) : (s.wakeLink q).shape = s.shape := by simp [State.wakeLink]

@[simp] theorem State.linkFailed_shape (s : State) (n : Nat) : (s.linkFailed n).shape = s.shape := by
  simp only [State.linkFailed]
  (repeat' split) <;> simp

@[simp] theorem State.linkFailure_shape (s : State) : s.linkFailure.shape = s.shape := by simp [State.linkFailure]
@[simp] theorem State.linkGone_shape (s : State) : s.linkGone.shape = s.shape := by simp [State.linkGone]

@[simp] theorem State.cfgRead_shape (s : State) (f off : Nat) : (s.cfgRead f off).2.shape = s.shape := by
  simp only [State.cfgRead]
  (repeat' split) <;> simp

@[simp] theorem State.enableVfs_shape (s : State) (n : Nat) : (s.enableVfs n).shape = s.shape := by
  simp [State.enableVfs]

/-! ### Shape: what `Resets` defines -/

@[simp] theorem State.reset_shape : State.reset.shape = true := by decide

@[simp] theorem State.powerUp_shape (s : State) : s.powerUp.shape = true :=
  (State.shape_congr rfl rfl rfl rfl rfl).trans State.reset_shape

theorem State.deviceReset_shape {s : State} (hs : s.shape = true) (kind : Nat) : (s.deviceReset kind).shape = true := by
  unfold State.deviceReset
  split
  · exact hs
  · exact (State.shape_congr rfl rfl rfl rfl rfl).trans State.reset_shape

@[simp] theorem State.startLog_shape (s : State) : s.startLog.shape = s.shape := by
  simp only [State.startLog]
  (repeat' split) <;> simp

@[simp] theorem State.resetRecord_shape (s : State) (j : Job) : (s.resetRecord j).shape = s.shape := by
  simp [State.resetRecord]

@[simp] theorem State.dropGeodeJobs_shape (s : State) (g : Nat) : (s.dropGeodeJobs g).shape = s.shape := by
  simp [State.dropGeodeJobs]

@[simp] theorem State.dropGeodeSlots_shape (s : State) (g : Nat) : (s.dropGeodeSlots g).shape = s.shape := by
  simp [State.dropGeodeSlots]

@[simp] theorem State.reseed_shape (s : State) (b : Nat) : (s.reseed b).shape = s.shape := by simp [State.reseed]

@[simp] theorem State.beginGeodeReset_shape (s : State) (g : Nat) : (s.beginGeodeReset g).shape = s.shape := by
  unfold State.beginGeodeReset
  split
  · rfl
  · simp only [State.log_shape, State.onQuad_shape, foldl_shape, State.reseed_shape, State.onCoreAt_shape, implies_true]
    rw [State.withCores_shape _ _ (by simp)]
    simp

@[simp] theorem State.enterFault_shape (s : State) (cause : Nat) : (s.enterFault cause).shape = s.shape := by
  simp only [State.enterFault, State.setDev_shape]
  rw [State.withPoss_shape _ _ (by simp)]
  simp

/-! ### Shape: what `Monitor` defines -/

@[simp] theorem State.monClear_shape (s : State) (p : Port) : (s.monClear p).shape = s.shape := by
  simp only [State.monClear]
  (repeat' split) <;> simp

/-- A command of the monitor may keep the shape only of a device that has it. -/
theorem State.monDo_shape_of {s : State} (p : Port) (i : MonCmd) {act : State → MonAns} (hs : s.shape = true)
    (h : ∀ t, t.shape = true → (act t).st.shape = true) : (s.monDo p i act).shape = true := by
  simp [State.monDo, hs, h]

@[simp] theorem State.monDo_shape (s : State) (p : Port) (i : MonCmd) (act : State → MonAns)
    (h : ∀ t, (act t).st.shape = t.shape) : (s.monDo p i act).shape = s.shape := by
  simp [State.monDo, h]

@[simp] theorem State.readSyl_shape (s : State) (r : CoreRef) (a : Nat) : (s.readSyl r a).1.shape = s.shape := by
  simp only [State.readSyl]
  (repeat' split) <;> simp

@[simp] theorem State.readData_shape (s : State) (r : CoreRef) (a : Nat) : (s.readData r a).1.shape = s.shape := by
  simp only [State.readData]
  (repeat' split) <;> simp

@[simp] theorem State.spaceRead_shape (s : State) (a : Space) (k : Nat) : (s.spaceRead a k).1.shape = s.shape := by
  simp only [State.spaceRead]
  (repeat' split) <;> simp

@[simp] theorem State.spaceReads_shape (s : State) (a : Space) (step k n : Nat) :
    (s.spaceReads a step k n).1.shape = s.shape := by
  induction n generalizing s k with
  | zero => rfl
  | succ n ih => simp [State.spaceReads, ih]

@[simp] theorem State.spaceWrite_shape (s : State) (a : Space) (k v : Nat) : (s.spaceWrite a k v).shape = s.shape := by
  simp only [State.spaceWrite]
  (repeat' split) <;> simp

@[simp] theorem State.spaceWrites_shape (s : State) (a : Space) (step k : Nat) (vs : List Nat) :
    (s.spaceWrites a step k vs).shape = s.shape := by
  induction vs generalizing s k with
  | nil => rfl
  | cons v vs ih => simp [State.spaceWrites, ih]

@[simp] theorem State.stepOnce_shape (s : State) (r : CoreRef) : (s.stepOnce r).shape = s.shape := by
  simp only [State.stepOnce]
  (repeat' split) <;> simp

@[simp] theorem State.stepRun_shape (s : State) (r : CoreRef) (n : Nat) : (s.stepRun r n).shape = s.shape := by
  induction n generalizing s with
  | zero => rfl
  | succ n ih => simp [State.stepRun, ih]

@[simp] theorem State.stepCore_shape (s : State) (r : CoreRef) (n : Nat) : (s.stepCore r n).shape = s.shape := by
  simp [State.stepCore]

@[simp] theorem State.jtagIr_shape (s : State) (i : JtagIr) : (s.jtagIr i).shape = s.shape := State.withJtag_shape s _

@[simp] theorem State.scanBoundary_shape (s : State) (bits : List Bool) : (s.scanBoundary bits).shape = s.shape := by
  unfold State.scanBoundary
  rw [State.emit_shape, State.withJtag_shape]
  simp

/-! ### Shape: what `Time` defines -/

@[simp] theorem State.servoRate_shape (s : State) : s.servoRate.shape = s.shape := by simp [State.servoRate]

@[simp] theorem State.acceptEdge_shape (s : State) (err : ℤ) (n : Nat) (unlock : Bool) :
    (s.acceptEdge err n unlock).shape = s.shape := by
  simp [State.acceptEdge]

/-! ### What a command answers -/

/-- Every state that follows has the parts of the device. -/
def KeepsShape (o : Host.Outcome State Fault Refusal) : Prop := ∀ u, o = .next u → u.shape = true

@[simp] theorem keepsShape_next (u : State) : KeepsShape (.next u) ↔ u.shape = true :=
  ⟨fun h => h u rfl, fun h v hv => by cases hv; exact h⟩

@[simp] theorem MonAns.ite_st (c : Prop) [Decidable c] (a b : MonAns) :
    (if c then a else b).st = if c then a.st else b.st := apply_ite MonAns.st c a b

@[simp] theorem monErr_st (s : State) (code : Nat) : (monErr s code).st = s := rfl

variable {s : State}

theorem cmd_keepsShape (hs : s.shape = true) (h : CmdHdr) (r : CmdRule) {body : State → State}
    (hb : ∀ t, (body t).shape = t.shape) : KeepsShape (.next (s.cmd h r body)) :=
  (keepsShape_next _).2 ((State.cmd_shape s h r body hb).trans hs)

theorem monDo_keepsShape (hs : s.shape = true) (p : Port) (i : MonCmd) {act : State → MonAns}
    (h : ∀ t, (act t).st.shape = t.shape) : KeepsShape (.next (s.monDo p i act)) :=
  (keepsShape_next _).2 ((State.monDo_shape s p i act h).trans hs)

/-! ### Shape: the commands of `CoreEvents` -/

theorem execDivideResultLands_keepsShape {r : CoreRef}
    (hs : s.shape = true) : KeepsShape (execDivideResultLands r s) := by
  simp only [execDivideResultLands, keepsShape_next]
  (repeat' split) <;> simp [hs]

theorem execDivideSquareRootLands_keepsShape {r : CoreRef}
    (hs : s.shape = true) : KeepsShape (execDivideSquareRootLands r s) := by
  simp only [execDivideSquareRootLands, keepsShape_next]
  (repeat' split) <;> simp [hs]

theorem execSharedLoadDataArrival_keepsShape {r : CoreRef}
    (hs : s.shape = true) : KeepsShape (execSharedLoadDataArrival r s) := by simp [execSharedLoadDataArrival, hs]

theorem execEventDispatch_keepsShape {g : Fin 8} {c : Fin 9}
    (hs : s.shape = true) : KeepsShape (execEventDispatch g c s) := by simp [execEventDispatch, hs]

theorem execContextDispatch_keepsShape {r : CoreRef}
    (hs : s.shape = true) : KeepsShape (execContextDispatch r s) := by
  simp only [execContextDispatch, keepsShape_next]
  (repeat' split) <;> simp [hs]

theorem execCoreTimerExpiry_keepsShape {r : CoreRef}
    (hs : s.shape = true) : KeepsShape (execCoreTimerExpiry r s) := by simp [execCoreTimerExpiry, hs]

theorem execL0WindowOpen_keepsShape {g : Fin 8} {c : Fin 9}
    (hs : s.shape = true) : KeepsShape (execL0WindowOpen g c s) := by simp [execL0WindowOpen, hs]

theorem execL0WindowClose_keepsShape {g : Fin 8} {c : Fin 9}
    (hs : s.shape = true) : KeepsShape (execL0WindowClose g c s) := by simp [execL0WindowClose, hs]

theorem execVectorUnitPowerDown_keepsShape {r : CoreRef}
    (hs : s.shape = true) : KeepsShape (execVectorUnitPowerDown r s) := by simp [execVectorUnitPowerDown, hs]

theorem execVectorUnitWake_keepsShape {r : CoreRef} (hs : s.shape = true) : KeepsShape (execVectorUnitWake r s) := by
  simp [execVectorUnitWake, hs]

theorem execLazyFSequence_keepsShape {g : Fin 8} {c : Fin 9}
    (hs : s.shape = true) : KeepsShape (execLazyFSequence g c s) := by
  simp only [execLazyFSequence, keepsShape_next]
  (repeat' split) <;> simp [hs]

theorem execF28TrapTaken_keepsShape {r : CoreRef} (hs : s.shape = true) : KeepsShape (execF28TrapTaken r s) := by
  simp only [execF28TrapTaken, keepsShape_next]
  (repeat' split) <;> simp [hs]

/-! ### Shape: the commands of `MemEvents` -/

theorem execBankRequestServed_keepsShape {g : Fin 8} {w : Serve}
    (hs : s.shape = true) : KeepsShape (execBankRequestServed g w s) := by
  simp only [execBankRequestServed, keepsShape_next]
  (repeat' split) <;> simp [hs]

theorem execStoreBufferDrain_keepsShape {r : CoreRef}
    (hs : s.shape = true) : KeepsShape (execStoreBufferDrain r s) := by
  simp only [execStoreBufferDrain, keepsShape_next]
  repeat' split
  · exact hs
  · exact hs
  · rename_i hd; simp [State.drainWay_shape hd, hs]

theorem execPageRequestDecided_keepsShape {g : Fin 8}
    (hs : s.shape = true) : KeepsShape (execPageRequestDecided g s) := by
  simp only [execPageRequestDecided, keepsShape_next]
  (repeat' split) <;> simp [hs]

theorem execDrainMarkerArrival_keepsShape {g : Fin 8}
    (hs : s.shape = true) : KeepsShape (execDrainMarkerArrival g s) := by
  simp only [execDrainMarkerArrival, keepsShape_next]
  (repeat' split) <;> simp [hs]

theorem execPageZeroingComplete_keepsShape {g : Fin 8}
    (hs : s.shape = true) : KeepsShape (execPageZeroingComplete g s) := by simp [execPageZeroingComplete, hs]

theorem execScrubStep_keepsShape {p : ScrubPlace} (hs : s.shape = true) : KeepsShape (execScrubStep p s) := by
  simp only [execScrubStep, keepsShape_next]
  (repeat' split) <;> simp [hs]

theorem execUdtHeaderWrite_keepsShape {g : Fin 8} {c : Fin 9} {idx : BitVec 4} {header : Word}
    (hs : s.shape = true) : KeepsShape (execUdtHeaderWrite g c idx header s) := by simp [execUdtHeaderWrite, hs]

theorem execCoreControlPortWrite_keepsShape {g : Fin 8} {c : Fin 9} {w : PortWrite}
    (hs : s.shape = true) : KeepsShape (execCoreControlPortWrite g c w s) := by
  simp only [execCoreControlPortWrite, keepsShape_next]
  (repeat' split) <;> simp [hs]

/-! ### Shape: the commands of `Dma` -/

theorem execStart_keepsShape {e : Eng} {n : Fin 32} (hs : s.shape = true) : KeepsShape (execStart e n s) := by
  simp [execStart, hs]

theorem execDisable_keepsShape {e : Eng} {n : Fin 32} (hs : s.shape = true) : KeepsShape (execDisable e n s) := by
  simp [execDisable, hs]

theorem execDmaCommandReserved_keepsShape {e : Eng} {n : Fin 32} {cmd : BitVec 3}
    (hs : s.shape = true) : KeepsShape (execDmaCommandReserved e n cmd s) := by simp [execDmaCommandReserved, hs]

theorem execCqheadWrite_keepsShape {e : Eng} {n : Fin 32} {v : Word}
    (hs : s.shape = true) : KeepsShape (execCqheadWrite e n v s) := by simp [execCqheadWrite, hs]

theorem execDmaInstructionFetch_keepsShape {e : Eng} {n : Fin 32}
    (hs : s.shape = true) : KeepsShape (execDmaInstructionFetch e n s) := by
  simp only [execDmaInstructionFetch, keepsShape_next]
  split
  · exact hs
  · split
    · exact hs
    · rename_i hf
      split <;> simp [State.fetchInstr_shape hf, hs]

theorem execMove_keepsShape {e : Eng} {n : Fin 32} (hs : s.shape = true) : KeepsShape (execMove e n s) := by
  simp [execMove, hs]

theorem execDrainBeat_keepsShape {e : Eng} {n : Fin 32} (hs : s.shape = true) : KeepsShape (execDrainBeat e n s) := by
  simp [execDrainBeat, hs]

theorem execDmaLoop_keepsShape {e : Eng} {n : Fin 32} (hs : s.shape = true) : KeepsShape (execDmaLoop e n s) := by
  simp [execDmaLoop, hs]

theorem execEndl_keepsShape {e : Eng} {n : Fin 32} (hs : s.shape = true) : KeepsShape (execEndl e n s) := by
  simp [execEndl, hs]

theorem execDmaWait_keepsShape {e : Eng} {n : Fin 32} (hs : s.shape = true) : KeepsShape (execDmaWait e n s) := by
  simp [execDmaWait, hs]

theorem execDmaSignal_keepsShape {e : Eng} {n : Fin 32} (hs : s.shape = true) : KeepsShape (execDmaSignal e n s) := by
  simp [execDmaSignal, hs]

theorem execDmaRec_keepsShape {e : Eng} {n : Fin 32} (hs : s.shape = true) : KeepsShape (execDmaRec e n s) := by
  simp [execDmaRec, hs]

theorem execDmaHalt_keepsShape {e : Eng} {n : Fin 32} (hs : s.shape = true) : KeepsShape (execDmaHalt e n s) := by
  simp [execDmaHalt, hs]

theorem execRecordBeat_keepsShape {e : Eng} {n : Fin 32}
    (hs : s.shape = true) : KeepsShape (execRecordBeat e n s) := by
  simp only [execRecordBeat, keepsShape_next]
  split
  · split
    · rename_i hc; simp [State.claimRec_shape hc, hs]
    · exact hs
  · simp [hs]

theorem execHostReadCompletion_keepsShape {n : Fin 32} {r : Completion}
    (hs : s.shape = true) : KeepsShape (execHostReadCompletion n r s) := by
  simp only [execHostReadCompletion, keepsShape_next]
  (repeat' split) <;> simp [hs]

theorem execCompletionTimeout_keepsShape {n : Fin 32}
    (hs : s.shape = true) : KeepsShape (execCompletionTimeout n s) := by
  simp only [execCompletionTimeout, keepsShape_next]
  (repeat' split) <;> simp [hs]

/-! ### Shape: the commands of `Beacons` -/

theorem execTimerefTick_keepsShape (hs : s.shape = true) : KeepsShape (execTimerefTick s) := by
  simp [execTimerefTick, hs]

theorem execBeaconEmit_keepsShape (hs : s.shape = true) : KeepsShape (execBeaconEmit s) := by
  simp only [execBeaconEmit, keepsShape_next]
  repeat' split
  · exact hs
  · exact hs
  · rw [State.onHub_shape, State.withGeodes_shape _ _ (by simp), State.onAon_shape, hs]

theorem execBeaconArrivalGeode_keepsShape {g : Fin 8}
    (hs : s.shape = true) : KeepsShape (execBeaconArrivalGeode g s) := by
  simp only [execBeaconArrivalGeode, keepsShape_next]
  (repeat' split) <;> simp [hs]

theorem execBeaconEventCoreArrival_keepsShape {g : Fin 8} {c : Fin 9}
    (hs : s.shape = true) : KeepsShape (execBeaconEventCoreArrival g c s) := by
  simp only [execBeaconEventCoreArrival, keepsShape_next]
  (repeat' split) <;> simp [hs]

theorem execBeaconArrivalHub_keepsShape (hs : s.shape = true) : KeepsShape (execBeaconArrivalHub s) := by
  simp only [execBeaconArrivalHub, keepsShape_next]
  (repeat' split) <;> simp [hs]

theorem execHubMailboxMessage_keepsShape {g : Fin 8} {m : MailMsg}
    (hs : s.shape = true) : KeepsShape (execHubMailboxMessage g m s) := by simp [execHubMailboxMessage, hs]

theorem execGeodeMailboxMessage_keepsShape {g : Fin 8} {m : GeodeReport}
    (hs : s.shape = true) : KeepsShape (execGeodeMailboxMessage g m s) := by simp [execGeodeMailboxMessage, hs]

theorem execWatchdogMiss_keepsShape {g : Fin 8} {c : Fin 9}
    (hs : s.shape = true) : KeepsShape (execWatchdogMiss g c s) := by simp [execWatchdogMiss, hs]

theorem execCoreAttention_keepsShape {g : Fin 8} {c : Fin 9}
    (hs : s.shape = true) : KeepsShape (execCoreAttention g c s) := by simp [execCoreAttention, hs]

theorem execSpareImageCopyComplete_keepsShape {g : Fin 8}
    (hs : s.shape = true) : KeepsShape (execSpareImageCopyComplete g s) := by
  simp only [execSpareImageCopyComplete, keepsShape_next]
  (repeat' split) <;> simp [hs]

theorem execCoreSelfTestComplete_keepsShape {g : Fin 8} {c : Fin 9} {pass : Bool}
    (hs : s.shape = true) : KeepsShape (execCoreSelfTestComplete g c pass s) := by simp [execCoreSelfTestComplete, hs]

/-! ### Shape: the commands of `Calibration` -/

theorem execEpochEnd_keepsShape {p : Fin 32} {r : EpochResult}
    (hs : s.shape = true) : KeepsShape (execEpochEnd p r s) := by
  simp only [execEpochEnd, keepsShape_next]
  (repeat' split) <;> simp [hs]

theorem execShadowBuildComplete_keepsShape {p : Fin 32} {outOfRange : Bool}
    (hs : s.shape = true) : KeepsShape (execShadowBuildComplete p outOfRange s) := by
  simp only [execShadowBuildComplete, keepsShape_next]
  (repeat' split) <;> simp [hs]

theorem execInjectResendTimeout_keepsShape {p : Fin 32}
    (hs : s.shape = true) : KeepsShape (execInjectResendTimeout p s) := by
  simp only [execInjectResendTimeout, keepsShape_next]
  (repeat' split) <;> simp [hs]

theorem execPositionSolveStart_keepsShape {p : Fin 32}
    (hs : s.shape = true) : KeepsShape (execPositionSolveStart p s) := by simp [execPositionSolveStart, hs]

theorem execSolveComplete_keepsShape {p : Fin 32} {estimates : Nat}
    (hs : s.shape = true) : KeepsShape (execSolveComplete p estimates s) := by simp [execSolveComplete, hs]

/-! ### Shape: the commands of `Lanes` -/

theorem execMpresNChange_keepsShape {p : Fin 32} {present : Bool}
    (hs : s.shape = true) : KeepsShape (execMpresNChange p present s) := by simp [execMpresNChange, hs]

theorem execAssayRecordRead_keepsShape {p : Fin 32} {r : RecordRead}
    (hs : s.shape = true) : KeepsShape (execAssayRecordRead p r s) := by
  simp only [execAssayRecordRead, keepsShape_next]
  (repeat' split) <;> simp [hs]

theorem execMalertNAsserted_keepsShape {g : Fin 8} {bytes : List (Option Byte)}
    (hs : s.shape = true) : KeepsShape (execMalertNAsserted g bytes s) := by
  unfold execMalertNAsserted
  extract_lets q s0 got s1 found n
  have h1 : s1.shape = s0.shape := foldl_shape _ (fun t l => by split <;> simp) _ _
  simp only [keepsShape_next]
  (repeat' split) <;> simp [hs, h1, s0]

theorem execMalertNDeasserted_keepsShape {g : Fin 8}
    (hs : s.shape = true) : KeepsShape (execMalertNDeasserted g s) := by simp [execMalertNDeasserted, hs]

theorem execTrainingWindowOpen_keepsShape {q : Fin 8}
    (hs : s.shape = true) : KeepsShape (execTrainingWindowOpen q s) := by simp [execTrainingWindowOpen, hs]

theorem execLaneFramed_keepsShape {p : Fin 32} {rate : BitVec 2}
    (hs : s.shape = true) : KeepsShape (execLaneFramed p rate s) := by
  simp only [execLaneFramed, keepsShape_next]
  (repeat' split) <;> simp [hs]

theorem execTrainingWindowClose_keepsShape {q : Fin 8}
    (hs : s.shape = true) : KeepsShape (execTrainingWindowClose q s) := by simp [execTrainingWindowClose, hs]

theorem execRetryWindowTimer_keepsShape {q : Fin 8}
    (hs : s.shape = true) : KeepsShape (execRetryWindowTimer q s) := by simp [execRetryWindowTimer, hs]

theorem execEarlySignalDetected_keepsShape {p : Fin 32}
    (hs : s.shape = true) : KeepsShape (execEarlySignalDetected p s) := by simp [execEarlySignalDetected, hs]

theorem execDataCodewordReceived_keepsShape {p : Fin 32} {cw : Codeword}
    (hs : s.shape = true) : KeepsShape (execDataCodewordReceived p cw s) := by
  simp only [execDataCodewordReceived, keepsShape_next]
  (repeat' split) <;> simp [hs]

theorem execFillCodewordReceived_keepsShape {p : Fin 32} {tsel : BitVec 4} {tval : BitVec 12}
    (hs : s.shape = true) : KeepsShape (execFillCodewordReceived p tsel tval s) := by
  simp [execFillCodewordReceived, hs]

theorem execLateBlockDeadline_keepsShape {p : Fin 32}
    (hs : s.shape = true) : KeepsShape (execLateBlockDeadline p s) := by simp [execLateBlockDeadline, hs]

theorem execTimeMarkSend_keepsShape {q : Fin 8} (hs : s.shape = true) : KeepsShape (execTimeMarkSend q s) := by
  simp [execTimeMarkSend, hs]

theorem execStimulusCodewordSend_keepsShape {p : Fin 32}
    (hs : s.shape = true) : KeepsShape (execStimulusCodewordSend p s) := by
  simp only [execStimulusCodewordSend, keepsShape_next]
  (repeat' split) <;> simp [hs]

theorem execControlResendTimeout_keepsShape {p : Fin 32}
    (hs : s.shape = true) : KeepsShape (execControlResendTimeout p s) := by
  simp only [execControlResendTimeout, keepsShape_next]
  (repeat' split) <;> simp [hs]

theorem execLaneEclipse_keepsShape {p : Fin 32} {cause : EclipseCause}
    (hs : s.shape = true) : KeepsShape (execLaneEclipse p cause s) := by
  simp only [execLaneEclipse, keepsShape_next]
  (repeat' split) <;> simp [hs]

theorem execDlCodewordReceived_keepsShape {q : Fin 8} {cw : Codeword}
    (hs : s.shape = true) : KeepsShape (execDlCodewordReceived q cw s) := by
  simp only [execDlCodewordReceived, keepsShape_next]
  (repeat' split) <;> simp [hs]

/-! ### Shape: the commands of `Posting` -/

theorem execResultPosting_keepsShape {id : U16} (hs : s.shape = true) : KeepsShape (execResultPosting id s) := by
  simp only [execResultPosting, keepsShape_next]
  (repeat' split) <;> simp [hs]

theorem execIrqModerationTimeout_keepsShape {f : Fin 8} {v : Fin 64}
    (hs : s.shape = true) : KeepsShape (execIrqModerationTimeout f v s) := by simp [execIrqModerationTimeout, hs]

/-! ### Shape: the commands of `HostCommands` -/

theorem execCommandFetch_keepsShape {f : Fin 8} {r : FetchResult}
    (hs : s.shape = true) : KeepsShape (execCommandFetch f r s) := by
  simp only [execCommandFetch, keepsShape_next]
  (repeat' split) <;> simp [hs]

theorem execHostNop_keepsShape {h : CmdHdr} (hs : s.shape = true) : KeepsShape (execHostNop h s) := by
  simp [execHostNop, hs]

theorem execIdentify_keepsShape {h : CmdHdr} (hs : s.shape = true) : KeepsShape (execIdentify h s) := by
  simp [execIdentify, hs]

theorem execStatus_keepsShape {h : CmdHdr} (hs : s.shape = true) : KeepsShape (execStatus h s) := by
  simp [execStatus, hs]

theorem execLodeChunk_keepsShape {h : CmdHdr} {slot : Fin 16} {first last : Bool} {mask : Byte} {off len : U32} {bs : List Byte}
    (hs : s.shape = true) : KeepsShape (execLodeChunk h slot first last mask off len bs s) := by
  simp [execLodeChunk, hs]

theorem execLodeVerification_keepsShape {slot : Fin 16}
    (hs : s.shape = true) : KeepsShape (execLodeVerification slot s) := by simp [execLodeVerification, hs]

theorem execLodeUnload_keepsShape {h : CmdHdr} {slot : Fin 16}
    (hs : s.shape = true) : KeepsShape (execLodeUnload h slot s) := by simp [execLodeUnload, hs]

theorem execLodeQuery_keepsShape {h : CmdHdr} {slot : Fin 16}
    (hs : s.shape = true) : KeepsShape (execLodeQuery h slot s) := by simp [execLodeQuery, hs]

theorem execSignPolicy_keepsShape {h : CmdHdr} {op arg : Byte} {key : List Byte}
    (hs : s.shape = true) : KeepsShape (execSignPolicy h op arg key s) := by simp [execSignPolicy, hs]

theorem execJobStart_keepsShape {h : CmdHdr} {slot : Fin 16} {vec : Byte} {openEnd : Bool} {start e : U32} {bs : List Binding}
    (hs : s.shape = true) : KeepsShape (execJobStart h slot vec openEnd start e bs s) := by simp [execJobStart, hs]

theorem execJobStop_keepsShape {h : CmdHdr} (hs : s.shape = true) : KeepsShape (execJobStop h s) := by
  refine cmd_keepsShape hs _ _ fun t => ?_
  (repeat' split) <;> simp

theorem execJobQuery_keepsShape {h : CmdHdr} (hs : s.shape = true) : KeepsShape (execJobQuery h s) := by
  refine cmd_keepsShape hs _ _ fun t => ?_
  (repeat' split) <;> simp

theorem execShareSet_keepsShape {h : CmdHdr} {f : Fin 8} {geodes : Byte} {posting staging : U32}
    (hs : s.shape = true) : KeepsShape (execShareSet h f geodes posting staging s) := by simp [execShareSet, hs]

theorem execShareGet_keepsShape {h : CmdHdr} {f : Fin 8} (hs : s.shape = true) : KeepsShape (execShareGet h f s) := by
  simp [execShareGet, hs]

theorem execPositionQuery_keepsShape {h : CmdHdr} {p : Fin 32}
    (hs : s.shape = true) : KeepsShape (execPositionQuery h p s) := by
  refine cmd_keepsShape hs _ _ fun t => ?_
  exact State.reply_shape t h _ _

theorem execLaneConfig_keepsShape {h : CmdHdr} {q : Fin 8} {qctl : Word} {lcfg : List Word}
    (hs : s.shape = true) : KeepsShape (execLaneConfig h q qctl lcfg s) := by simp [execLaneConfig, hs]

theorem execModuleReset_keepsShape {h : CmdHdr} {p : Fin 32}
    (hs : s.shape = true) : KeepsShape (execModuleReset h p s) := by simp [execModuleReset, hs]

theorem execCalRecordRead_keepsShape {h : CmdHdr} {p : Fin 32}
    (hs : s.shape = true) : KeepsShape (execCalRecordRead h p s) := by simp [execCalRecordRead, hs]

theorem execCalStatus_keepsShape {h : CmdHdr} (hs : s.shape = true) : KeepsShape (execCalStatus h s) := by
  refine cmd_keepsShape hs _ _ fun t => ?_
  (repeat' split) <;> simp

theorem execCalSolve_keepsShape {h : CmdHdr} {p : Fin 32}
    (hs : s.shape = true) : KeepsShape (execCalSolve h p s) := by simp [execCalSolve, hs]

theorem execTimeGet_keepsShape {h : CmdHdr} (hs : s.shape = true) : KeepsShape (execTimeGet h s) := by
  simp [execTimeGet, hs]

theorem execTimeSet_keepsShape {h : CmdHdr} {atOnce : Bool} {source : BitVec 2} {n : U32} {sec frac : U64}
    (hs : s.shape = true) : KeepsShape (execTimeSet h atOnce source n sec frac s) := by simp [execTimeSet, hs]

theorem execTimeSetApply_keepsShape (hs : s.shape = true) : KeepsShape (execTimeSetApply s) := by
  simp only [execTimeSetApply, keepsShape_next]
  (repeat' split) <;> simp [hs]

theorem execMemRead_keepsShape {h : CmdHdr} {space geode core packing : Byte} {addr units : U32}
    (hs : s.shape = true) : KeepsShape (execMemRead h space geode core packing addr units s) := by
  simp [execMemRead, hs]

theorem execMemWrite_keepsShape {h : CmdHdr} {space geode core packing : Byte} {addr units : U32} {bs : List Byte}
    (hs : s.shape = true) : KeepsShape (execMemWrite h space geode core packing addr units bs s) := by
  simp [execMemWrite, hs]

theorem execDuskEnter_keepsShape {h : CmdHdr} (hs : s.shape = true) : KeepsShape (execDuskEnter h s) := by
  simp [execDuskEnter, hs]

theorem execDuskQuiesce_keepsShape (hs : s.shape = true) : KeepsShape (execDuskQuiesce s) := by
  simp only [execDuskQuiesce, keepsShape_next]
  repeat' split
  · exact hs
  · exact hs
  · simp only [State.setDev_shape, State.onAon_shape, State.onHub_shape]
    rw [State.withCores_shape _ _ (by simp)]
    simp [hs]

theorem execPowerStatus_keepsShape {h : CmdHdr} (hs : s.shape = true) : KeepsShape (execPowerStatus h s) := by
  simp [execPowerStatus, hs]

theorem execLogRead_keepsShape {h : CmdHdr} {first : U32} {max : U16}
    (hs : s.shape = true) : KeepsShape (execLogRead h first max s) := by
  refine cmd_keepsShape hs _ _ fun t => ?_
  (repeat' split) <;> simp

theorem execCounterRead_keepsShape {h : CmdHdr} {block : Fin 10} {live : Bool}
    (hs : s.shape = true) : KeepsShape (execCounterRead h block live s) := by simp [execCounterRead, hs]

theorem execFwInfo_keepsShape {h : CmdHdr} (hs : s.shape = true) : KeepsShape (execFwInfo h s) := by
  simp [execFwInfo, hs]

theorem execFwChunk_keepsShape {h : CmdHdr} {first last : Bool} {off len : U32} {bs : List Byte}
    (hs : s.shape = true) : KeepsShape (execFwChunk h first last off len bs s) := by simp [execFwChunk, hs]

theorem execFwActivate_keepsShape {h : CmdHdr} (hs : s.shape = true) : KeepsShape (execFwActivate h s) := by
  simp [execFwActivate, hs]

/-! ### Shape: the commands of `HostLink` -/

theorem execRegisterWrite_keepsShape {p : RegPlace} (hs : s.shape = true) : KeepsShape (execRegisterWrite p s) := by
  simp only [execRegisterWrite, keepsShape_next]
  (repeat' split) <;> simp [hs]

theorem execCrtailDoorbell_keepsShape {f : Fin 8} {v : U32}
    (hs : s.shape = true) : KeepsShape (execCrtailDoorbell f v s) := by simp [execCrtailDoorbell, hs]

theorem execRrheadDoorbell_keepsShape {f : Fin 8} {v : U32}
    (hs : s.shape = true) : KeepsShape (execRrheadDoorbell f v s) := by simp [execRrheadDoorbell, hs]

theorem execCren_keepsShape {f : Fin 8} {on : Bool} (hs : s.shape = true) : KeepsShape (execCren f on s) := by
  simp [execCren, hs]

theorem execRren_keepsShape {f : Fin 8} {on : Bool} (hs : s.shape = true) : KeepsShape (execRren f on s) := by
  simp [execRren, hs]

theorem execWake_keepsShape (hs : s.shape = true) : KeepsShape (execWake s) := by simp [execWake, hs]

theorem execWakeComplete_keepsShape (hs : s.shape = true) : KeepsShape (execWakeComplete s) := by
  unfold execWakeComplete
  rw [keepsShape_next]
  split
  · exact hs
  · extract_lets n s1 s2 js tell s3 s4 s5 rs w a
    have h2 : s2.shape = s.shape := by simp [s2, s1]
    have ht (t : State) (j : Job) : (tell t j).shape = t.shape := by simp only [tell]; split <;> simp
    have h3 : s3.shape = s2.shape := foldl_shape _ (fun t j => by simp [ht]) _ _
    have h5 : s5.shape = s3.shape := by simp [s5, s4]
    have ha : a.2.shape = s5.shape := by
      clear_value s5 rs
      cases rs <;> rfl
    rw [State.log_shape, State.setDev_shape, ha, h5, h3, h2, hs]

theorem execFunctionLevelReset_keepsShape {f : Fin 8}
    (hs : s.shape = true) : KeepsShape (execFunctionLevelReset f s) := by simp [execFunctionLevelReset, hs]

theorem execVfDisable_keepsShape (hs : s.shape = true) : KeepsShape (execVfDisable s) := by simp [execVfDisable, hs]

theorem execD3hotEntry_keepsShape {f : Fin 8} (hs : s.shape = true) : KeepsShape (execD3hotEntry f s) := by
  simp [execD3hotEntry, hs]

theorem execD3hotToD0_keepsShape {f : Fin 8} (hs : s.shape = true) : KeepsShape (execD3hotToD0 f s) := by
  simp [execD3hotToD0, hs]

theorem execLinkDown_keepsShape (hs : s.shape = true) : KeepsShape (execLinkDown s) := by simp [execLinkDown, hs]

theorem execLinkRetrain_keepsShape {gen width : Nat}
    (hs : s.shape = true) : KeepsShape (execLinkRetrain gen width s) := by simp [execLinkRetrain, hs]

theorem execPcieError_keepsShape {e : PcieErr} (hs : s.shape = true) : KeepsShape (execPcieError e s) := by
  simp only [execPcieError, keepsShape_next]
  (repeat' split) <;> simp [hs]

theorem execFlowControlCreditUpdate_keepsShape {g : CreditGrant}
    (hs : s.shape = true) : KeepsShape (execFlowControlCreditUpdate g s) := by simp [execFlowControlCreditUpdate, hs]

theorem execConfigurationRequest_keepsShape {r : CfgReq}
    (hs : s.shape = true) : KeepsShape (execConfigurationRequest r s) := by
  simp only [execConfigurationRequest, keepsShape_next]
  (repeat' split) <;> simp [hs]

/-! ### Shape: the commands of `Resets` -/

theorem execPowerUpReset_keepsShape : KeepsShape (execPowerUpReset s) := (keepsShape_next _).2 (State.powerUp_shape s)

theorem execPerstAsserted_keepsShape (hs : s.shape = true) : KeepsShape (execPerstAsserted s) :=
  (keepsShape_next _).2 (State.deviceReset_shape hs 2)

theorem execVinBrownOut_keepsShape (hs : s.shape = true) : KeepsShape (execVinBrownOut s) :=
  (keepsShape_next _).2 ((State.onAon_shape _ _).trans (State.deviceReset_shape hs 3))

theorem execResetRelease_keepsShape (hs : s.shape = true) : KeepsShape (execResetRelease s) := by
  simp [execResetRelease, hs]

theorem execGeodeSelfTestComplete_keepsShape {g : Fin 8} {pass : Bool}
    (hs : s.shape = true) : KeepsShape (execGeodeSelfTestComplete g pass s) := by simp [execGeodeSelfTestComplete, hs]

theorem execReady_keepsShape (hs : s.shape = true) : KeepsShape (execReady s) := by
  unfold execReady
  extract_lets due
  rw [keepsShape_next]
  split
  · exact hs
  · rw [State.startLog_shape, State.setDev_shape, State.withPoss_shape _ _ (by simp), hs]

theorem execHubReset_keepsShape (hs : s.shape = true) : KeepsShape (execHubReset s) := by simp [execHubReset, hs]

theorem execHubResetComplete_keepsShape (hs : s.shape = true) : KeepsShape (execHubResetComplete s) := by
  simp [execHubResetComplete, hs]

theorem execGeodeReset_keepsShape {g : Fin 8} (hs : s.shape = true) : KeepsShape (execGeodeReset g s) := by
  simp [execGeodeReset, hs]

theorem execGeodeResetComplete_keepsShape {g : Fin 8}
    (hs : s.shape = true) : KeepsShape (execGeodeResetComplete g s) := by simp [execGeodeResetComplete, hs]

theorem execSupvHalt_keepsShape {g : Fin 8} (hs : s.shape = true) : KeepsShape (execSupvHalt g s) := by
  simp [execSupvHalt, hs]

theorem execHubHalt_keepsShape (hs : s.shape = true) : KeepsShape (execHubHalt s) := by simp [execHubHalt, hs]

theorem execTempRefresh_keepsShape {tj : BitVec 16} (hs : s.shape = true) : KeepsShape (execTempRefresh tj s) := by
  simp [execTempRefresh, hs]

theorem execThermalTrip_keepsShape (hs : s.shape = true) : KeepsShape (execThermalTrip s) := by
  simp [execThermalTrip, hs]

theorem execTimerefLoss_keepsShape (hs : s.shape = true) : KeepsShape (execTimerefLoss s) := by
  simp [execTimerefLoss, hs]

theorem execRefclkFault_keepsShape (hs : s.shape = true) : KeepsShape (execRefclkFault s) := by
  simp [execRefclkFault, hs]

theorem execLaneReferenceRestored_keepsShape (hs : s.shape = true) : KeepsShape (execLaneReferenceRestored s) := by
  simp [execLaneReferenceRestored, hs]

/-! ### Shape: the commands of `Monitor` -/

theorem execUartByteReceived_keepsShape {b : Byte} {framingError : Bool}
    (hs : s.shape = true) : KeepsShape (execUartByteReceived b framingError s) := by simp [execUartByteReceived, hs]

theorem execVer_keepsShape {p : Port} (hs : s.shape = true) : KeepsShape (execVer p s) := by simp [execVer, hs]
theorem execState_keepsShape {p : Port} (hs : s.shape = true) : KeepsShape (execState p s) := by simp [execState, hs]

theorem execMr_keepsShape {p : Port} {a : Space} {n : Nat} (hs : s.shape = true) : KeepsShape (execMr p a n s) := by
  simp [execMr, hs]

theorem execMw_keepsShape {p : Port} {a : Space} {vs : List Nat}
    (hs : s.shape = true) : KeepsShape (execMw p a vs s) := by simp [execMw, hs]

theorem execReg_keepsShape {p : Port} {t : Sys2Proof.Target} {lvl : Option (Fin 4)} {r : RegName} {v : Option (BitVec 1792)}
    (hs : s.shape = true) : KeepsShape (execReg p t lvl r v s) := by
  refine monDo_keepsShape hs _ _ fun u => ?_
  simp only [State.regAns]
  (repeat' split) <;> simp

theorem execHalt_keepsShape {p : Port} {t : Sys2Proof.Target}
    (hs : s.shape = true) : KeepsShape (execHalt p t s) := by simp [execHalt, hs]

theorem execMonitorRun_keepsShape {p : Port} {t : Sys2Proof.Target}
    (hs : s.shape = true) : KeepsShape (execMonitorRun p t s) := by
  refine monDo_keepsShape hs _ _ fun u => ?_
  (repeat' split) <;> simp

theorem execStep_keepsShape {p : Port} {t : Sys2Proof.Target} {n : Nat}
    (hs : s.shape = true) : KeepsShape (execStep p t n s) := by simp [execStep, hs]

theorem execBrk_keepsShape {p : Port} {t : Sys2Proof.Target} {i : Fin 2} {addr : Option IAddr}
    (hs : s.shape = true) : KeepsShape (execBrk p t i addr s) := by simp [execBrk, hs]

theorem execAttn_keepsShape {p : Port} {t : Sys2Proof.Target}
    (hs : s.shape = true) : KeepsShape (execAttn p t s) := by simp [execAttn, hs]

theorem execLode_keepsShape {p : Port} {slot : Fin 16} {mask : Byte} {bytes : List Byte}
    (hs : s.shape = true) : KeepsShape (execLode p slot mask bytes s) := by simp [execLode, hs]

theorem execLog_keepsShape {p : Port} {seq : Option U32} {n : Option Nat}
    (hs : s.shape = true) : KeepsShape (execLog p seq n s) := by simp [execLog, hs]

theorem execCtr_keepsShape {p : Port} {block : Fin 10} {live : Bool}
    (hs : s.shape = true) : KeepsShape (execCtr p block live s) := by simp [execCtr, hs]

theorem execFuse_keepsShape {p : Port} {idx : Byte} {v : Option Word}
    (hs : s.shape = true) : KeepsShape (execFuse p idx v s) := by
  simp only [execFuse, keepsShape_next]
  (repeat' split) <;> simp [hs]

theorem execFaultrec_keepsShape {p : Port} {clr : Bool}
    (hs : s.shape = true) : KeepsShape (execFaultrec p clr s) := by simp [execFaultrec, hs]

theorem execResetDev_keepsShape {p : Port} (hs : s.shape = true) : KeepsShape (execResetDev p s) := by
  simp only [execResetDev, keepsShape_next]
  split
  · exact hs
  · exact State.deviceReset_shape (by simp [hs]) 2

theorem execResetHub_keepsShape {p : Port} (hs : s.shape = true) : KeepsShape (execResetHub p s) := by
  simp [execResetHub, hs]

theorem execResetG_keepsShape {p : Port} {g : Fin 8} (hs : s.shape = true) : KeepsShape (execResetG p g s) := by
  simp [execResetG, hs]

theorem execResetC_keepsShape {p : Port} {g : Fin 8} {c : Fin 9}
    (hs : s.shape = true) : KeepsShape (execResetC p g c s) := by simp [execResetC, hs]

theorem execBypass_keepsShape {bits : List Bool} (hs : s.shape = true) : KeepsShape (execBypass bits s) := by
  simp only [execBypass, keepsShape_next]
  rw [State.emit_shape, State.withJtag_shape, State.jtagIr_shape, hs]

theorem execIdcode_keepsShape (hs : s.shape = true) : KeepsShape (execIdcode s) := by simp [execIdcode, hs]

theorem execSamplePreload_keepsShape {bits : List Bool}
    (hs : s.shape = true) : KeepsShape (execSamplePreload bits s) := by simp [execSamplePreload, hs]

theorem execExtest_keepsShape {bits : List Bool} (hs : s.shape = true) : KeepsShape (execExtest bits s) := by
  simp [execExtest, hs]

theorem execDebug_keepsShape (hs : s.shape = true) : KeepsShape (execDebug s) := by simp [execDebug, hs]

/-! ### Shape: the commands of `Time` -/

theorem execPpsEdge_keepsShape {err : ℤ} (hs : s.shape = true) : KeepsShape (execPpsEdge err s) := by
  simp [execPpsEdge, hs]

theorem execPpsLockTimeout_keepsShape (hs : s.shape = true) : KeepsShape (execPpsLockTimeout s) := by
  simp [execPpsLockTimeout, hs]

theorem execIrigBFrame_keepsShape {valid : Bool} {sec : BitVec 42}
    (hs : s.shape = true) : KeepsShape (execIrigBFrame valid sec s) := by simp [execIrigBFrame, hs]

theorem execPpsOutPulse_keepsShape (hs : s.shape = true) : KeepsShape (execPpsOutPulse s) := by
  simp [execPpsOutPulse, hs]

/-! ### Every command -/

/-- An operation of a core is one more operation of the bundle that its site puts together. -/
theorem exec_operation {op : Instr} {i : Site} (h : siteOf op = some i) (s : State) : exec op s = .next (issueOp i op s) := by
  cases op <;> cases h <;> rfl

/-- Every command keeps the parts of the device: an operation of a core because its issue does, every other one by the
lemma about it. -/
theorem exec_keepsShape (op : Instr) (hs : s.shape = true) : KeepsShape (exec op s) := by
  cases h : siteOf op with
  | some i => rw [exec_operation h, keepsShape_next, issueOp_shape, hs]
  | none =>
    cases op with
    | divideResultLands => exact execDivideResultLands_keepsShape hs
    | divideSquareRootLands => exact execDivideSquareRootLands_keepsShape hs
    | sharedLoadDataArrival => exact execSharedLoadDataArrival_keepsShape hs
    | eventDispatch => exact execEventDispatch_keepsShape hs
    | contextDispatch => exact execContextDispatch_keepsShape hs
    | coreTimerExpiry => exact execCoreTimerExpiry_keepsShape hs
    | l0WindowOpen => exact execL0WindowOpen_keepsShape hs
    | l0WindowClose => exact execL0WindowClose_keepsShape hs
    | vectorUnitPowerDown => exact execVectorUnitPowerDown_keepsShape hs
    | vectorUnitWake => exact execVectorUnitWake_keepsShape hs
    | lazyFSequence => exact execLazyFSequence_keepsShape hs
    | f28TrapTaken => exact execF28TrapTaken_keepsShape hs
    | bankRequestServed => exact execBankRequestServed_keepsShape hs
    | storeBufferDrain => exact execStoreBufferDrain_keepsShape hs
    | pageRequestDecided => exact execPageRequestDecided_keepsShape hs
    | drainMarkerArrival => exact execDrainMarkerArrival_keepsShape hs
    | pageZeroingComplete => exact execPageZeroingComplete_keepsShape hs
    | scrubStep => exact execScrubStep_keepsShape hs
    | coreControlPortWrite => exact execCoreControlPortWrite_keepsShape hs
    | udtHeaderWrite => exact execUdtHeaderWrite_keepsShape hs
    | registerWrite => exact execRegisterWrite_keepsShape hs
    | timerefTick => exact execTimerefTick_keepsShape hs
    | beaconEmit => exact execBeaconEmit_keepsShape hs
    | beaconArrivalGeode => exact execBeaconArrivalGeode_keepsShape hs
    | beaconEventCoreArrival => exact execBeaconEventCoreArrival_keepsShape hs
    | beaconArrivalHub => exact execBeaconArrivalHub_keepsShape hs
    | hubMailboxMessage => exact execHubMailboxMessage_keepsShape hs
    | watchdogMiss => exact execWatchdogMiss_keepsShape hs
    | coreAttention => exact execCoreAttention_keepsShape hs
    | spareImageCopyComplete => exact execSpareImageCopyComplete_keepsShape hs
    | coreSelfTestComplete => exact execCoreSelfTestComplete_keepsShape hs
    | supvHalt => exact execSupvHalt_keepsShape hs
    | hubHalt => exact execHubHalt_keepsShape hs
    | start => exact execStart_keepsShape hs
    | disable => exact execDisable_keepsShape hs
    | dmaCommandReserved => exact execDmaCommandReserved_keepsShape hs
    | cqheadWrite => exact execCqheadWrite_keepsShape hs
    | dmaInstructionFetch => exact execDmaInstructionFetch_keepsShape hs
    | move => exact execMove_keepsShape hs
    | drainBeat => exact execDrainBeat_keepsShape hs
    | dmaLoop => exact execDmaLoop_keepsShape hs
    | endl => exact execEndl_keepsShape hs
    | dmaWait => exact execDmaWait_keepsShape hs
    | dmaSignal => exact execDmaSignal_keepsShape hs
    | dmaRec => exact execDmaRec_keepsShape hs
    | dmaHalt => exact execDmaHalt_keepsShape hs
    | recordBeat => exact execRecordBeat_keepsShape hs
    | hostReadCompletion => exact execHostReadCompletion_keepsShape hs
    | completionTimeout => exact execCompletionTimeout_keepsShape hs
    | commandFetch => exact execCommandFetch_keepsShape hs
    | hostNop => exact execHostNop_keepsShape hs
    | identify => exact execIdentify_keepsShape hs
    | status => exact execStatus_keepsShape hs
    | lodeChunk => exact execLodeChunk_keepsShape hs
    | lodeVerification => exact execLodeVerification_keepsShape hs
    | lodeUnload => exact execLodeUnload_keepsShape hs
    | lodeQuery => exact execLodeQuery_keepsShape hs
    | signPolicy => exact execSignPolicy_keepsShape hs
    | jobStart => exact execJobStart_keepsShape hs
    | jobStop => exact execJobStop_keepsShape hs
    | jobQuery => exact execJobQuery_keepsShape hs
    | shareSet => exact execShareSet_keepsShape hs
    | shareGet => exact execShareGet_keepsShape hs
    | positionQuery => exact execPositionQuery_keepsShape hs
    | laneConfig => exact execLaneConfig_keepsShape hs
    | moduleReset => exact execModuleReset_keepsShape hs
    | calRecordRead => exact execCalRecordRead_keepsShape hs
    | calStatus => exact execCalStatus_keepsShape hs
    | calSolve => exact execCalSolve_keepsShape hs
    | timeGet => exact execTimeGet_keepsShape hs
    | timeSet => exact execTimeSet_keepsShape hs
    | timeSetApply => exact execTimeSetApply_keepsShape hs
    | memRead => exact execMemRead_keepsShape hs
    | memWrite => exact execMemWrite_keepsShape hs
    | duskEnter => exact execDuskEnter_keepsShape hs
    | duskQuiesce => exact execDuskQuiesce_keepsShape hs
    | powerStatus => exact execPowerStatus_keepsShape hs
    | logRead => exact execLogRead_keepsShape hs
    | counterRead => exact execCounterRead_keepsShape hs
    | fwInfo => exact execFwInfo_keepsShape hs
    | fwChunk => exact execFwChunk_keepsShape hs
    | fwActivate => exact execFwActivate_keepsShape hs
    | resultPosting => exact execResultPosting_keepsShape hs
    | irqModerationTimeout => exact execIrqModerationTimeout_keepsShape hs
    | crtailDoorbell => exact execCrtailDoorbell_keepsShape hs
    | rrheadDoorbell => exact execRrheadDoorbell_keepsShape hs
    | cren => exact execCren_keepsShape hs
    | rren => exact execRren_keepsShape hs
    | wake => exact execWake_keepsShape hs
    | wakeComplete => exact execWakeComplete_keepsShape hs
    | functionLevelReset => exact execFunctionLevelReset_keepsShape hs
    | vfDisable => exact execVfDisable_keepsShape hs
    | d3hotEntry => exact execD3hotEntry_keepsShape hs
    | d3hotToD0 => exact execD3hotToD0_keepsShape hs
    | linkDown => exact execLinkDown_keepsShape hs
    | linkRetrain => exact execLinkRetrain_keepsShape hs
    | pcieError => exact execPcieError_keepsShape hs
    | mpresNChange => exact execMpresNChange_keepsShape hs
    | assayRecordRead => exact execAssayRecordRead_keepsShape hs
    | malertNAsserted => exact execMalertNAsserted_keepsShape hs
    | trainingWindowOpen => exact execTrainingWindowOpen_keepsShape hs
    | laneFramed => exact execLaneFramed_keepsShape hs
    | trainingWindowClose => exact execTrainingWindowClose_keepsShape hs
    | retryWindowTimer => exact execRetryWindowTimer_keepsShape hs
    | earlySignalDetected => exact execEarlySignalDetected_keepsShape hs
    | dataCodewordReceived => exact execDataCodewordReceived_keepsShape hs
    | fillCodewordReceived => exact execFillCodewordReceived_keepsShape hs
    | lateBlockDeadline => exact execLateBlockDeadline_keepsShape hs
    | timeMarkSend => exact execTimeMarkSend_keepsShape hs
    | stimulusCodewordSend => exact execStimulusCodewordSend_keepsShape hs
    | controlResendTimeout => exact execControlResendTimeout_keepsShape hs
    | laneEclipse => exact execLaneEclipse_keepsShape hs
    | dlCodewordReceived => exact execDlCodewordReceived_keepsShape hs
    | epochEnd => exact execEpochEnd_keepsShape hs
    | shadowBuildComplete => exact execShadowBuildComplete_keepsShape hs
    | injectResendTimeout => exact execInjectResendTimeout_keepsShape hs
    | positionSolveStart => exact execPositionSolveStart_keepsShape hs
    | solveComplete => exact execSolveComplete_keepsShape hs
    | powerUpReset => exact execPowerUpReset_keepsShape
    | perstAsserted => exact execPerstAsserted_keepsShape hs
    | vinBrownOut => exact execVinBrownOut_keepsShape hs
    | resetRelease => exact execResetRelease_keepsShape hs
    | geodeSelfTestComplete => exact execGeodeSelfTestComplete_keepsShape hs
    | ready => exact execReady_keepsShape hs
    | hubReset => exact execHubReset_keepsShape hs
    | hubResetComplete => exact execHubResetComplete_keepsShape hs
    | geodeReset => exact execGeodeReset_keepsShape hs
    | tempRefresh => exact execTempRefresh_keepsShape hs
    | thermalTrip => exact execThermalTrip_keepsShape hs
    | timerefLoss => exact execTimerefLoss_keepsShape hs
    | refclkFault => exact execRefclkFault_keepsShape hs
    | ppsEdge => exact execPpsEdge_keepsShape hs
    | ppsLockTimeout => exact execPpsLockTimeout_keepsShape hs
    | irigBFrame => exact execIrigBFrame_keepsShape hs
    | ppsOutPulse => exact execPpsOutPulse_keepsShape hs
    | uartByteReceived => exact execUartByteReceived_keepsShape hs
    | ver => exact execVer_keepsShape hs
    | state => exact execState_keepsShape hs
    | mr => exact execMr_keepsShape hs
    | mw => exact execMw_keepsShape hs
    | reg => exact execReg_keepsShape hs
    | halt => exact execHalt_keepsShape hs
    | monitorRun => exact execMonitorRun_keepsShape hs
    | step => exact execStep_keepsShape hs
    | brk => exact execBrk_keepsShape hs
    | attn => exact execAttn_keepsShape hs
    | lode => exact execLode_keepsShape hs
    | log => exact execLog_keepsShape hs
    | ctr => exact execCtr_keepsShape hs
    | fuse => exact execFuse_keepsShape hs
    | faultrec => exact execFaultrec_keepsShape hs
    | resetDev => exact execResetDev_keepsShape hs
    | resetHub => exact execResetHub_keepsShape hs
    | resetG => exact execResetG_keepsShape hs
    | resetC => exact execResetC_keepsShape hs
    | bypass => exact execBypass_keepsShape hs
    | idcode => exact execIdcode_keepsShape hs
    | samplePreload => exact execSamplePreload_keepsShape hs
    | extest => exact execExtest_keepsShape hs
    | debug => exact execDebug_keepsShape hs
    | flowControlCreditUpdate => exact execFlowControlCreditUpdate_keepsShape hs
    | configurationRequest => exact execConfigurationRequest_keepsShape hs
    | malertNDeasserted => exact execMalertNDeasserted_keepsShape hs
    | laneReferenceRestored => exact execLaneReferenceRestored_keepsShape hs
    | geodeResetComplete => exact execGeodeResetComplete_keepsShape hs
    | geodeMailboxMessage _ m => exact execGeodeMailboxMessage_keepsShape (m := m) hs
    | _ => cases h

/-- The queue holds no part of the device, so a step keeps the parts where the command at its front does. -/
theorem step_keepsShape (hs : s.shape = true) : KeepsShape (step s) := by
  unfold step
  split
  · exact (keepsShape_next s).2 hs
  · rename_i c rest _
    exact exec_keepsShape c ((State.withPending_shape s rest).trans hs)

/-- Settles O57: each command keeps the parts, so a step does. -/
theorem stepKeepsShape : Obligations.StepKeepsShape := fun _ u hs hu => step_keepsShape hs u hu

/-- Settles O59: the parts of the reset state are counted, and its memories are empty. -/
theorem resetInvariants : Obligations.ResetInvariants := ⟨State.reset_shape, reset_memWf⟩

end Sys2Proof.Machine
end

section
/-! PROOFS. Beacons (R27, R28, R31, R46, R48): what the beacon changes in the always-on domain, what reaches a geode's or the
hub's engine with it, and what its line leaves of a core. -/

namespace Sys2Proof.Machine
open Sys2Proof Sys2Proof.Laws

/-! ### A run of elements changed -/

theorem mapIdxFrom_get {α : Type} (f : Nat → α → α) (l : List α) (k j : Nat) :
    (mapIdxFrom f k l)[j]? = l[j]?.map (f (k + j)) := by
  induction l generalizing k j with
  | nil => rfl
  | cons x l ih =>
    cases j with
    | zero => rfl
    | succ j => simp [mapIdxFrom, ih, Nat.add_comm, Nat.add_left_comm]

theorem modRange_get {α : Type} (l : List α) (i n j : Nat) (f : α → α) :
    (modRange l i n f)[j]? = l[j]?.map (fun x => if i ≤ j ∧ j < i + n then f x else x) := by
  simp [modRange, mapIdxFrom_get]

/-! ### What a line that becomes pending leaves of a core -/

/-- The end of a wait touches L0W, L1W and the threads of a core alone. -/
theorem endWait_frame (c : Core) (k : Nat) :
    ∃ ts w0 w1, endWait c k = { c with threads := ts, l0w := w0, l1w := w1 } := by
  unfold endWait
  split
  · split
    · exact ⟨_, _, _, rfl⟩
    · split <;> exact ⟨_, _, _, rfl⟩
  · exact ⟨_, _, _, rfl⟩

/-- A line that becomes pending touches EVPEND beside that. -/
theorem raiseLine_frame (c : Core) (n : Nat) :
    ∃ ts w0 w1, raiseLine c n = { c with evpend := c.evpend ||| (1#128 <<< n), threads := ts, l0w := w0, l1w := w1 } := by
  unfold raiseLine
  extract_lets c1
  split
  · obtain ⟨ts, w0, w1, h⟩ := endWait_frame c1 (lineTarget c1 n)
    exact ⟨ts, w0, w1, h⟩
  · exact ⟨_, _, _, rfl⟩

@[simp] theorem raiseLine_evpend (c : Core) (n : Nat) : (raiseLine c n).evpend = c.evpend ||| (1#128 <<< n) := by
  obtain ⟨_, _, _, h⟩ := raiseLine_frame c n; rw [h]

@[simp] theorem raiseLine_beacons (c : Core) (n : Nat) : (raiseLine c n).beacons = c.beacons := by
  obtain ⟨_, _, _, h⟩ := raiseLine_frame c n; rw [h]

@[simp] theorem raiseLine_snap (c : Core) (n : Nat) : (raiseLine c n).snap = c.snap := by
  obtain ⟨_, _, _, h⟩ := raiseLine_frame c n; rw [h]

@[simp] theorem raiseLine_l0open (c : Core) (n : Nat) : (raiseLine c n).l0open = c.l0open := by
  obtain ⟨_, _, _, h⟩ := raiseLine_frame c n; rw [h]

/-- The line raised is pending (R142). -/
theorem linePending_raiseLine (c : Core) {n : Nat} (h : n < 128) : linePending (raiseLine c n) n = true := by
  simp [linePending, h]

/-! ### What an engine's control blocks can change -/

/-- A change of a geode that leaves all but its memory and its channels as it was. -/
def GeodeEngine (f : Geode → Geode) : Prop := ∀ x, ∃ m cs, f x = { x with mem := m, chans := cs }

/-- A change of the hub that leaves all but its memory and its channels as it was. -/
def HubEngine (f : Hub → Hub) : Prop := ∀ x, ∃ m cs, f x = { x with mem := m, chans := cs }

/-- From `s` to `u` only the memory and the channels of engine `e` change. -/
def EngineStep (e : Eng) (s u : State) : Prop :=
  match e with
  | .geode g => ∃ f, GeodeEngine f ∧ u = s.onGeode g.val f
  | .host => ∃ f, HubEngine f ∧ u = s.onHub f

theorem GeodeEngine.comp {f h : Geode → Geode} (hf : GeodeEngine f) (hh : GeodeEngine h) :
    GeodeEngine (fun x => h (f x)) := fun x => by
  obtain ⟨_, _, h1⟩ := hf x
  obtain ⟨m, cs, h2⟩ := hh (f x)
  exact ⟨m, cs, h2.trans (by rw [h1])⟩

theorem HubEngine.comp {f h : Hub → Hub} (hf : HubEngine f) (hh : HubEngine h) : HubEngine (fun x => h (f x)) := fun x => by
  obtain ⟨_, _, h1⟩ := hf x
  obtain ⟨m, cs, h2⟩ := hh (f x)
  exact ⟨m, cs, h2.trans (by rw [h1])⟩

theorem Geode.store_engine (a : Nat) (v : Word) : GeodeEngine (fun x => x.store a v) := fun x => by
  simp only [Geode.store]
  split <;> exact ⟨_, _, rfl⟩

theorem Hub.store_engine (a : Nat) (v : Word) : HubEngine (fun x => x.store a v) := fun x => by
  simp only [Hub.store]
  split <;> exact ⟨_, _, rfl⟩

theorem EngineStep.refl (e : Eng) (s : State) : EngineStep e s s := by
  cases e with
  | geode g => exact ⟨fun x => x, fun _ => ⟨_, _, rfl⟩, by simp [State.onGeode]⟩
  | host => exact ⟨fun x => x, fun _ => ⟨_, _, rfl⟩, rfl⟩

theorem EngineStep.trans {e : Eng} {s t u : State} (h1 : EngineStep e s t) (h2 : EngineStep e t u) : EngineStep e s u := by
  cases e with
  | geode g =>
    obtain ⟨f, hf, rfl⟩ := h1
    obtain ⟨h, hh, rfl⟩ := h2
    exact ⟨fun x => h (f x), hf.comp hh, by simp [State.onGeode]⟩
  | host =>
    obtain ⟨f, hf, rfl⟩ := h1
    obtain ⟨h, hh, rfl⟩ := h2
    exact ⟨fun x => h (f x), hf.comp hh, rfl⟩

theorem foldl_engineStep {α : Type} {e : Eng} (f : State → α → State) (h : ∀ t a, EngineStep e t (f t a)) (l : List α)
    (s : State) : EngineStep e s (l.foldl f s) := by
  induction l generalizing s with
  | nil => exact EngineStep.refl e s
  | cons a l ih => exact (h s a).trans (ih (f s a))

theorem engWrite_engineStep (s : State) (e : Eng) (a : Nat) (v : Word) : EngineStep e s (s.engWrite e a v) := by
  cases e with
  | geode g => exact ⟨_, Geode.store_engine _ v, rfl⟩
  | host => exact ⟨_, Hub.store_engine _ v, rfl⟩

theorem onChan_engineStep (s : State) (e : Eng) (n : Nat) (f : Chan → Chan) : EngineStep e s (s.onChan e n f) := by
  cases e with
  | geode g => exact ⟨_, fun _ => ⟨_, _, rfl⟩, rfl⟩
  | host => exact ⟨_, fun _ => ⟨_, _, rfl⟩, rfl⟩

theorem chanStepU_engineStep (s : State) (e : Eng) (n : Nat) (upd : List CcbField) (f : Chan → Chan) :
    EngineStep e s (s.chanStepU e n upd f) :=
  (onChan_engineStep s e n f).trans (foldl_engineStep _ (fun t _ => engWrite_engineStep t e _ _) _ _)

/-- A beacon changes an engine's channels and their control blocks (R305). -/
theorem dmaBeacon_engineStep (s : State) (e : Eng) : EngineStep e s (s.dmaBeacon e) :=
  foldl_engineStep _ (fun t n => chanStepU_engineStep t e n _ _) _ _

/-! ### The beacon leaves -/

@[simp] theorem aonBeacon_islandsOff (a : Aon) (n : U32) : (aonBeacon a n).islandsOff = a.islandsOff := by
  unfold aonBeacon
  split
  · split <;> rfl
  · rfl

@[simp] theorem aonBeacon_lastBeacon (a : Aon) (n : U32) : (aonBeacon a n).lastBeacon = some n := rfl
@[simp] theorem aonBeacon_nextBeacon (a : Aon) (n : U32) : (aonBeacon a n).nextBeacon = n + 1 := rfl
@[simp] theorem aonBeacon_snap (a : Aon) (n : U32) : (aonBeacon a n).snap = some (n, [a.ppsEdges.toNat, a.irigErr]) := rfl

theorem aonBeacon_noPeriod {a : Aon} (n : U32) (h : a.newPeriod = none) :
    aonBeacon a n = { a with lastBeacon := some n, nextBeacon := n + 1, snap := some (n, [a.ppsEdges.toNat, a.irigErr]) } := by
  simp [aonBeacon, h]

theorem aonBeacon_newPeriod {a : Aon} {n : U32} {f fs : Nat} (h : a.newPeriod = some (n, f, fs)) :
    aonBeacon a n =
      { a with t0 := dtOf56 (beaconTime a n).toNat, n0 := n, f := f, fs := fs, newPeriod := none, lastBeacon := some n
               nextBeacon := n + 1, snap := some (n, [a.ppsEdges.toNat, a.irigErr]) } := by
  simp [aonBeacon, h]

/-- Not before its time (R27). -/
theorem execBeaconEmit_early {s : State} (h : (now56 s.aon : Int) < beaconTime s.aon s.aon.nextBeacon) :
    execBeaconEmit s = .next s := by
  simp [execBeaconEmit, h]

/-- At its time the beacon is on its way to the hub and to every geode (R31). -/
theorem execBeaconEmit_due {s : State} (hr : s.aon.inReset = false) (hi : s.aon.islandsOff = false)
    (ht : beaconTime s.aon s.aon.nextBeacon ≤ (now56 s.aon : Int)) :
    execBeaconEmit s = .next (({ s.onAon (fun a => aonBeacon a s.aon.nextBeacon) with
      geodes := s.geodes.map (fun (g : Geode) => { g with beacons := g.beacons ++ [s.aon.nextBeacon] }) } : State).onHub
        (fun h => { h with beacons := h.beacons ++ [s.aon.nextBeacon] })) := by
  simp [execBeaconEmit, hr, hi, not_lt.2 ht]

/-! ### The beacon arrives at a geode -/

/-- A geode without a job has no steps of a job at a beacon (R46). -/
theorem jobSteps_noJob {s : State} {g : Nat} (n : U32) (h : s.jobOn g = none) : s.jobSteps g n = s := by
  simp [State.jobSteps, h]

/-- The counters that a beacon captures are those before it is taken from its way. -/
theorem fabricCounters_onGeode (s : State) (g : Nat) (l : List U32) :
    (s.onGeode g (fun x => { x with beacons := l })).fabricCounters g = s.fabricCounters g := by
  have h (x : Geode) : s.geodes[g]? = some x → (s.onGeode g (fun x => { x with beacons := l })).geode g =
      { x with beacons := l } := geode_onGeode _
  cases hx : s.geodes[g]? with
  | none => simp [State.fabricCounters, State.geode, State.pos, State.quad, hx]
  | some x => simp [State.fabricCounters, h x hx, geode_get hx, State.pos, State.quad]

/-- A geode without a job, in service: its engine takes the beacon, then its cores and its supervisor do (R46). -/
theorem execBeaconArrivalGeode_noJob {s : State} {g : Fin 8} {n : U32} {rest : List U32} {x : Geode}
    (hx : s.geodes[g.val]? = some x) (hb : x.beacons = n :: rest) (hr : x.inReset = false)
    (hi : s.aon.islandsOff = false) (hh : s.hub.halted = false) (hj : s.jobOn g.val = none) :
    ∃ f, GeodeEngine f ∧ execBeaconArrivalGeode g s = .next ((s.onGeode g.val (fun y =>
      f { y with beacons := rest, beacon := some n, snap := some (n, s.fabricCounters g.val) })).beaconToCores g.val n) := by
  let s1 := s.onGeode g.val (fun y => { y with beacons := rest, beacon := some n, snap := some (n, s.fabricCounters g.val) })
  obtain ⟨f, hf, he⟩ := dmaBeacon_engineStep s1 (.geode g)
  refine ⟨f, hf, ?_⟩
  have h1 : s1.onGeode g.val f = s.onGeode g.val (fun y =>
      f { y with beacons := rest, beacon := some n, snap := some (n, s.fabricCounters g.val) }) := by
    simp [s1, State.onGeode]
  have h0 : (s.onGeode g.val (fun y => { y with beacons := rest })).geode g.val = { x with beacons := rest } :=
    geode_onGeode _ hx
  have hs : ((s.onGeode g.val (fun y => { y with beacons := rest })).onGeode g.val (fun y =>
      { y with beacon := some n, snap := some (n, s.fabricCounters g.val) })) = s1 := by
    simp [s1, State.onGeode]
  have hs1 : s1.hub.halted = false := hh
  have hsteps : s1.jobSteps g.val n = s1 := jobSteps_noJob n hj
  rw [← h1, ← he]
  simp only [execBeaconArrivalGeode, geode_get hx, hb, h0, hr, fabricCounters_onGeode, hs, hs1, hsteps]
  simp [hi]

theorem beaconToCores_sig {s : State} {g : Fin 8} {j : Nat} {d : Core} (n : U32) (hj : j < 9)
    (hd : s.cores[9 * g.val + j]? = some d) :
    (s.beaconToCores g.val n).cores[9 * g.val + j]? = some { d with beacons := d.beacons ++ [n] } := by
  have hne : 72 + g.val ≠ 9 * g.val + j := by omega
  simp [State.beaconToCores, State.raiseSup, modAt_get_ne _ _ _ _ hne, modRange_get, hd, hj]

theorem beaconToCores_sup {s : State} {g : Fin 8} {c : Core} (n : U32) (hc : s.cores[72 + g.val]? = some c) :
    (s.beaconToCores g.val n).cores[72 + g.val]? = some (raiseLine c 0) := by
  have hout : ¬ (9 * g.val ≤ 72 + g.val ∧ 72 + g.val < 9 * g.val + 9) := by omega
  simp [State.beaconToCores, State.raiseSup, modRange_get, hc, hout]

/-! ### The beacon arrives in the hub -/

/-- No function waits for a beacon to end its reset (R448). -/
theorem flrSlots_none {s : State} (h : ∀ f ∈ s.fns, f.flr = false) : s.flrSlots = s := by
  have hf (k : Nat) : (s.fn k).flr = false := by
    cases hk : s.fns[k]? with
    | none => simp [State.fn, hk]
    | some x => rw [fn_get hk]; exact h x (List.mem_of_getElem? hk)
  simp only [State.flrSlots, List.range_succ, List.range_zero, List.nil_append, List.foldl_append, List.foldl_cons,
    List.foldl_nil, hf, Bool.false_eq_true, if_false]

/-- A hub without jobs, in service: it captures its counters, its log becomes readable, its engine takes the beacon and
its line 0 becomes pending (R48, R305, R470). -/
theorem execBeaconArrivalHub_noJobs {s : State} {n : U32} {rest : List U32} (hb : s.hub.beacons = n :: rest)
    (hi : s.aon.islandsOff = false) (hh : s.hub.halted = false) (hr : s.hub.resetting = false) (hj : s.hub.jobs = [])
    (hf : ∀ f ∈ s.fns, f.flr = false) :
    ∃ f, HubEngine f ∧ execBeaconArrivalHub s = .next ((s.onHub (fun h =>
      f { h with beacons := rest, beacon := some n, snap := some (n, s.hubCounters)
                 log := h.log.map (fun e => { e with readable := true }) })).raiseHub 0) := by
  let s1 := s.onHub (fun h => { h with beacons := rest, beacon := some n, snap := some (n, s.hubCounters)
                                       log := h.log.map (fun e => { e with readable := true }) })
  obtain ⟨f, hfe, he⟩ := dmaBeacon_engineStep s1 .host
  refine ⟨f, hfe, ?_⟩
  obtain ⟨m, cs, hfx⟩ := hfe s1.hub
  have hs2 : (s1.dmaBeacon .host).hub = { s1.hub with mem := m, chans := cs } := by rw [he, State.onHub_hub, hfx]
  have hh2 : (s1.dmaBeacon .host).hub.halted = false := by rw [hs2]; exact hh
  have hr2 : (s1.dmaBeacon .host).hub.resetting = false := by rw [hs2]; exact hr
  have hj2 : (s1.dmaBeacon .host).hub.jobs = [] := by rw [hs2]; exact hj
  have hflr : (s1.dmaBeacon .host).flrSlots = s1.dmaBeacon .host := flrSlots_none (by rw [he]; exact hf)
  have hs : (s.onHub (fun h => { h with beacons := rest })).onHub (fun h =>
      { h with beacon := some n, snap := some (n, s.hubCounters)
               log := h.log.map (fun e => { e with readable := true }) }) = s1 := rfl
  simp only [execBeaconArrivalHub, hb, State.onHub_aon, hi, hs, hh2, hr2, hj2, List.map_nil, List.foldl_nil, hflr,
    Bool.or_self, Bool.false_eq_true, if_false]
  rw [he]
  rfl

/-- Settles O32: each clause from the lemma on its beacon's event. -/
theorem beacons : Obligations.Beacons := by
  unfold Obligations.Beacons
  intro s g k n rest x c
  refine ⟨?_, ?_, ?_, ?_, ?_⟩
  · rintro hr rfl ht hi
    refine ⟨_, execBeaconEmit_due hr hi ht, rfl, rfl, rfl, rfl, fun j y hy =>
      ⟨{ y with beacons := y.beacons ++ [s.aon.nextBeacon] }, by simp [hy], rfl, rfl⟩, fun hp => ?_, fun f fs hp => ?_⟩
    · simp [aonBeacon_noPeriod _ hp]
    · simp [aonBeacon_newPeriod hp]
  · rintro rfl ht
    exact execBeaconEmit_early ht
  · intro hx hb hr hi hh hj hc
    obtain ⟨f, hf, he⟩ := execBeaconArrivalGeode_noJob hx hb hr hi hh hj
    obtain ⟨m, cs, hfx⟩ := hf { x with beacons := rest, beacon := some n, snap := some (n, s.fabricCounters g.val) }
    have hsup := beaconToCores_sup (s := s.onGeode g.val (fun y =>
      f { y with beacons := rest, beacon := some n, snap := some (n, s.fabricCounters g.val) })) n hc
    refine ⟨_, { x with beacons := rest, beacon := some n, snap := some (n, s.fabricCounters g.val), mem := m, chans := cs },
      he, ?_, rfl, rfl, rfl, ?_, fun j d hd hj9 => ⟨_, beaconToCores_sig n hj9 hd, rfl, rfl⟩⟩
    · simp [State.beaconToCores, State.raiseSup, hx, hfx]
    · rw [core_get (r := .sup g) hsup]
      exact linePending_raiseLine c (by decide)
  · intro hc hb
    simp only [exec, execBeaconEventCoreArrival, core_get hc, hb]
    refine ⟨_, rfl, ?_⟩
    rw [core_onCore _ hc]
    simp [coreCounters, linePending_raiseLine]
  · intro hb hi hh hr hj hf hc
    obtain ⟨f, hfe, he⟩ := execBeaconArrivalHub_noJobs hb hi hh hr hj hf
    obtain ⟨m, cs, hfx⟩ := hfe { s.hub with
      beacons := rest, beacon := some n, snap := some (n, s.hubCounters)
      log := s.hub.log.map (fun e => { e with readable := true }) }
    refine ⟨_, he, ?_⟩
    simp [State.raiseHub, hfx, State.core, State.coreAt, coreIdx, hc, linePending_raiseLine]

end Sys2Proof.Machine
end

section
/-! PROOFS. Mailboxes and failed cores (R24, R40–R45, R464–R466): what an eclipse changes of a core, of its geode's duties
(roles, spare, slots lost, counts) and of the hub's log. -/

namespace Sys2Proof.Machine
open Sys2Proof Sys2Proof.Laws

/-! ### Reading a part where another may have been changed -/

theorem coreAt_onCoreAt_ne (s : State) {i k : Nat} (f : Core → Core) (h : i ≠ k) : (s.onCoreAt i f).coreAt k = s.coreAt k :=
  getD_modAt_ne _ _ _ _ _ h

theorem coreAt_onCoreAt (s : State) {i : Nat} (f : Core → Core) (h : i < s.cores.length) :
    (s.onCoreAt i f).coreAt i = f (s.coreAt i) := by
  simp [State.coreAt, State.onCoreAt, List.getD, List.getElem?_eq_getElem h]

/-- A property that a change of a core keeps, every core keeps. -/
theorem coreAt_onCoreAt_of {P : Core → Prop} {f : Core → Core} (h : ∀ c, P c → P (f c)) {s : State} {i k : Nat}
    (hk : P (s.coreAt k)) : P ((s.onCoreAt i f).coreAt k) := by
  by_cases e : i = k
  · subst e
    by_cases hi : i < s.cores.length
    · rw [coreAt_onCoreAt s f hi]; exact h _ hk
    · simpa [State.coreAt, State.onCoreAt, List.getD, hi] using hk
  · rwa [coreAt_onCoreAt_ne s f e]

/-- What a change of a geode leaves of it, it leaves of every geode. -/
theorem geode_onGeode_of {α : Type} {p : Geode → α} {f : Geode → Geode} (h : ∀ x, p (f x) = p x) (s : State) (g i : Nat) :
    p ((s.onGeode g f).geode i) = p (s.geode i) := by
  by_cases e : g = i
  · subst e
    cases hx : s.geodes[g]? with
    | none => simp [State.geode, State.onGeode, List.getD, hx]
    | some x => rw [geode_onGeode f hx, geode_get hx, h]
  · exact congrArg p (getD_modAt_ne _ _ _ _ _ e)

/-- How many cores and geodes a state has. -/
def State.sizes (s : State) : Nat × Nat := (s.cores.length, s.geodes.length)

@[simp] theorem State.onCoreAt_sizes (s : State) (n : Nat) (f : Core → Core) : (s.onCoreAt n f).sizes = s.sizes := by
  simp [State.sizes, State.onCoreAt]

@[simp] theorem State.onGeode_sizes (s : State) (g : Nat) (f : Geode → Geode) : (s.onGeode g f).sizes = s.sizes := by
  simp [State.sizes, State.onGeode]

theorem cores_length_of_sizes {s u : State} (h : u.sizes = s.sizes) : u.cores.length = s.cores.length :=
  congrArg Prod.fst h

/-- A geode that was there is there still, behind steps that keep the sizes. -/
theorem geode_of_sizes {s u : State} (h : u.sizes = s.sizes) {g : Nat} {x : Geode} (hx : s.geodes[g]? = some x) :
    u.geodes[g]? = some (u.geode g) := by
  have hl : g < u.geodes.length := by
    rw [show u.geodes.length = s.geodes.length from congrArg Prod.snd h]
    exact (List.getElem?_eq_some_iff.mp hx).1
  simp [State.geode, List.getD, List.getElem?_eq_getElem hl]

/-- So is a core. -/
theorem coreAt_of_sizes {s u : State} (h : u.sizes = s.sizes) {k : Nat} {c : Core} (hc : s.cores[k]? = some c) :
    u.cores[k]? = some (u.coreAt k) := by
  have hl : k < u.cores.length := by
    rw [show u.cores.length = s.cores.length from congrArg Prod.fst h]
    exact (List.getElem?_eq_some_iff.mp hc).1
  simp [State.coreAt, List.getD, List.getElem?_eq_getElem hl]

theorem coreAt_get {s : State} {k : Nat} {c : Core} (h : s.cores[k]? = some c) : s.coreAt k = c := by
  simp [State.coreAt, List.getD, h]

/-! ### What loading a role leaves of a core -/

/-- What the events of failed cores read of a core: its stop, its attention line, its data memories. -/
def Core.kept (c : Core) : Option StopCause × Bool × EMem 14 × EMem 14 := (c.stop, c.attn, c.x, c.y)

@[simp] theorem setLevel_kept (c : Core) (n : Nat) (f : Thread → Thread) : (setLevel c n f).kept = c.kept := rfl
@[simp] theorem putUdt_kept (c : Core) (i : Nat) (v : Word) : (putUdt c i v).kept = c.kept := rfl
@[simp] theorem putTbl_kept (c : Core) (i : Nat) (v : Word) : (putTbl c i v).kept = c.kept := rfl

@[simp] theorem wakeBound_kept (c : Core) (n : Nat) : (wakeBound c n).kept = c.kept := by
  unfold wakeBound
  split
  · rfl
  · split <;> rfl

@[simp] theorem Core.ite_kept (p : Prop) [Decidable p] (c d : Core) :
    (if p then c else d).kept = if p then c.kept else d.kept := apply_ite Core.kept p c d

/-- A register write leaves a core's stop, attention line and memories as they are. -/
@[simp] theorem sysWrite_kept (err : Bool) (c : Core) (tid n : Nat) (v : DWord) : (sysWrite err c tid n v).kept = c.kept := by
  unfold sysWrite
  extract_lets w flag sig addr17 on wake bad upd1
  have hflag : ∀ b d, (flag b d).kept = d.kept := fun b d => by simp only [flag]; split <;> rfl
  have haddr : ∀ l put, (addr17 l put).kept = c.kept := fun l put => by
    simp only [addr17]; split
    · exact hflag _ _
    · rfl
  clear_value flag addr17
  split
  case h_2 => split <;> simp [hflag]
  case h_3 => split <;> rfl
  case h_4 => simp [hflag]
  case h_15 =>
    split
    · exact hflag _ _
    · split <;> rfl
  case h_18 =>
    simp only [Core.ite_kept, hflag, haddr, setLevel_kept, wakeBound_kept]
    repeat' split
    all_goals rfl
  all_goals rfl

theorem foldl_kept {α : Type} {f : Core → α → Core} (h : ∀ k a, (f k a).kept = k.kept) (l : List α) (c : Core) :
    (l.foldl f c).kept = c.kept := by
  induction l generalizing c with
  | nil => rfl
  | cons a l ih => rw [List.foldl_cons, ih, h]

@[simp] theorem writeUdtWord_kept (c : Core) (off : Nat) (v : Word) : (writeUdtWord c off v).kept = c.kept := by
  simp only [writeUdtWord, writeUdtHeader, Core.ite_kept, putUdt_kept]
  repeat' split
  all_goals rfl

@[simp] theorem loadUdt_kept (c : Core) (us : List Nat) : (loadUdt c us).kept = c.kept :=
  foldl_kept (fun k _ => writeUdtWord_kept k _ _) _ _

@[simp] theorem loadRegs_kept (c : Core) (us : List Nat) : (loadRegs c us).kept = c.kept :=
  foldl_kept (fun k _ => sysWrite_kept _ k _ _ _) _ _

/-- A role's image fills the data memories (R331). -/
theorem loadRole_kept (c : List Byte) (lg slot : Nat) (k : Core) :
    (loadRole c lg slot k).kept =
      (k.stop, k.attn, { cells := smOf 0 (sectUnits c 2 lg slot 0) }, { cells := smOf 0 (sectUnits c 3 lg slot 0) }) := by
  simp only [loadRole, loadRegs_kept, loadUdt_kept]
  rfl

/-! ### What a reset core and a new image leave of a geode's duties -/

/-- What the events of failed cores read and change of a geode. -/
def Geode.duty (x : Geode) :
    List Nat × Option Nat × Option Eclipse × List (Nat × U32) × Nat × Nat × List Nat × List Nat :=
  (x.role, x.spare, x.eclipse, x.lost, x.eclipses, x.wdogMiss, x.eclipsed, x.retired)

theorem unmapEntry_duty (x : Geode) (i : Nat) : (unmapEntry x i).duty = x.duty := by
  simp only [unmapEntry]
  split <;> rfl

theorem clearTables_duty (x : Geode) (c upTo : Nat) : (clearTables x c upTo).duty = x.duty := by
  unfold clearTables
  generalize coreEntries x c = es
  induction es generalizing x with
  | nil => rfl
  | cons e es ih =>
    rw [List.foldl_cons, ih]
    split
    · exact unmapEntry_duty x e.1
    · rfl

@[simp] theorem State.coreReset_duty (s : State) (g c i : Nat) : ((s.coreReset g c).geode i).duty = (s.geode i).duty := by
  refine (geode_onGeode_of (p := Geode.duty) ?_ _ g i).trans rfl
  exact fun x => clearTables_duty x c _

@[simp] theorem State.installRole_duty (s : State) (c : List Byte) (g lg slot p i : Nat) :
    ((s.installRole c g lg slot p).geode i).duty = (s.geode i).duty := by
  refine (geode_onGeode_of (p := Geode.duty) ?_ _ g i).trans rfl
  exact fun x => rfl

@[simp] theorem State.prepTable_duty (s : State) (j : Job) (g : Nat) (n : U32) (i : Nat) :
    ((s.prepTable j g n).geode i).duty = (s.geode i).duty := by
  unfold State.prepTable
  extract_lets x v
  split
  · refine geode_onGeode_of (p := Geode.duty) ?_ s g i
    exact fun x => rfl
  · rfl

theorem State.prepTable_frame (s : State) (j : Job) (g : Nat) (n : U32) : ∃ f, s.prepTable j g n = s.onGeode g f := by
  unfold State.prepTable
  extract_lets x v
  split
  · exact ⟨_, rfl⟩
  · exact ⟨fun x => x, by simp [State.onGeode]⟩

@[simp] theorem State.prepTable_hub (s : State) (j : Job) (g : Nat) (n : U32) : (s.prepTable j g n).hub = s.hub := by
  obtain ⟨_, h⟩ := s.prepTable_frame j g n; rw [h]; rfl

@[simp] theorem State.prepTable_coreAt (s : State) (j : Job) (g : Nat) (n : U32) (k : Nat) :
    (s.prepTable j g n).coreAt k = s.coreAt k := by
  obtain ⟨_, h⟩ := s.prepTable_frame j g n; rw [h]; rfl

@[simp] theorem State.prepTable_sizes (s : State) (j : Job) (g : Nat) (n : U32) : (s.prepTable j g n).sizes = s.sizes := by
  obtain ⟨_, h⟩ := s.prepTable_frame j g n; rw [h, State.onGeode_sizes]

@[simp] theorem State.coreReset_sizes (s : State) (g c : Nat) : (s.coreReset g c).sizes = s.sizes := by
  simp [State.coreReset]

@[simp] theorem State.installRole_sizes (s : State) (c : List Byte) (g lg slot p : Nat) :
    (s.installRole c g lg slot p).sizes = s.sizes := by
  simp [State.installRole]

theorem State.coreReset_coreAt_ne (s : State) {g c k : Nat} (h : 9 * g + c ≠ k) :
    (s.coreReset g c).coreAt k = s.coreAt k := coreAt_onCoreAt_ne s _ h

theorem State.installRole_coreAt_ne (s : State) (b : List Byte) (lg slot : Nat) {g p k : Nat} (h : 9 * g + p ≠ k) :
    (s.installRole b g lg slot p).coreAt k = s.coreAt k := coreAt_onCoreAt_ne s _ h

/-- A core reset ends a stop (R456). -/
theorem State.coreReset_kept (s : State) {g c : Nat} (h : 9 * g + c < s.cores.length) :
    ((s.coreReset g c).coreAt (9 * g + c)).kept =
      (none, false, (s.coreAt (9 * g + c)).x, (s.coreAt (9 * g + c)).y) :=
  congrArg Core.kept (coreAt_onCoreAt s resetCoreData h)

/-- A core that gets a role holds its data images (R331). -/
theorem State.installRole_kept (s : State) (b : List Byte) (lg slot : Nat) {g p : Nat} (h : 9 * g + p < s.cores.length) :
    ((s.installRole b g lg slot p).coreAt (9 * g + p)).kept =
      ((s.coreAt (9 * g + p)).stop, (s.coreAt (9 * g + p)).attn,
        { cells := smOf 0 (sectUnits b 2 lg slot 0) }, { cells := smOf 0 (sectUnits b 3 lg slot 0) }) := by
  refine (congrArg Core.kept (coreAt_onCoreAt s _ h)).trans ?_
  exact (foldl_kept (fun k _ => putTbl_kept k _ _) _ _).trans (loadRole_kept b lg slot _)

/-- Neither a reset nor an image asks for attention. -/
theorem State.coreReset_attn (s : State) (g c k : Nat) (h : (s.coreAt k).attn = false) :
    ((s.coreReset g c).coreAt k).attn = false :=
  coreAt_onCoreAt_of (P := fun d => d.attn = false) (fun _ _ => rfl) h

theorem Core.attn_of_kept {c : Core} {a : Option StopCause} {b : Bool} {x y : EMem 14} (h : c.kept = (a, b, x, y)) :
    c.attn = b := congrArg (fun p => p.2.1) h

theorem State.installRole_attn (s : State) (b : List Byte) (g lg slot p k : Nat) (h : (s.coreAt k).attn = false) :
    ((s.installRole b g lg slot p).coreAt k).attn = false :=
  coreAt_onCoreAt_of (P := fun d => d.attn = false) (fun d hd =>
    (Core.attn_of_kept ((foldl_kept (fun k _ => putTbl_kept k _ _) _ _).trans (loadRole_kept b lg slot d))).trans hd) h

/-! ### The log -/

/-- The log changes nothing but itself. -/
theorem State.log_frame (s : State) (r : LogReq) :
    ∃ l n, s.log r = s.onHub (fun h => { h with log := l, logSeq := n }) := by
  simp only [State.log]
  split
  · exact ⟨s.hub.log, s.hub.logSeq, rfl⟩
  · split <;> exact ⟨_, _, rfl⟩

@[simp] theorem State.log_coreAt (s : State) (r : LogReq) (k : Nat) : (s.log r).coreAt k = s.coreAt k := by
  obtain ⟨_, _, h⟩ := s.log_frame r; rw [h]; rfl

@[simp] theorem State.log_sizes (s : State) (r : LogReq) : (s.log r).sizes = s.sizes := by
  obtain ⟨_, _, h⟩ := s.log_frame r; rw [h]; rfl

@[simp] theorem State.log_geodes (s : State) (r : LogReq) : (s.log r).geodes = s.geodes := by
  obtain ⟨_, _, h⟩ := s.log_frame r; rw [h]; rfl

/-- A hub that writes its log gets an entry at the end of a log of which nothing can be joined (R470). -/
theorem State.log_new (s : State) (r : LogReq) (hh : s.hub.halted = false) (hi : s.aon.islandsOff = false)
    (hl : s.hub.log.length < 4096) (hr : ∀ l ∈ s.hub.log, l.readable = true) :
    ∃ e : LogEntry, (s.log r).hub.log = s.hub.log ++ [e] ∧ e.kind = BitVec.ofNat 16 r.kind ∧ e.job = r.job ∧ e.a = r.a := by
  have hj : s.hub.log.any (fun e => e.joins r) = false := by
    rw [List.any_eq_false]
    intro e he
    simp [LogEntry.joins, hr e he]
  simp only [State.log, hh, hi, hj, Bool.or_self, Bool.false_eq_true, if_false, State.onHub, if_neg (Nat.not_le.mpr hl)]
  exact ⟨_, rfl, rfl, rfl, rfl⟩

/-- An entry of another kind stays while the log is not full (R470). -/
theorem State.log_keeps (s : State) (r : LogReq) (l : LogEntry) (hm : l ∈ s.hub.log) (hl : s.hub.log.length < 4096)
    (hk : l.kind.toNat ≠ r.kind) : l ∈ (s.log r).hub.log := by
  have hj : l.joins r = false := by simp [LogEntry.joins, hk]
  unfold State.log
  split
  · exact hm
  · split
    · exact List.mem_map.mpr ⟨l, hm, by simp [hj]⟩
    · simp only [State.onHub, if_neg (Nat.not_le.mpr hl)]
      exact List.mem_append_left _ hm

/-! ### What every eclipse does: the stop, the entry of the log, the counts, the report -/

/-- The role slot that a core holds. -/
def slotHeld (x : Geode) (c : Nat) : Option Nat :=
  if x.role.contains c && !(lostSlots x).contains (x.role.idxOf c) then some (x.role.idxOf c) else none

/-- The stop of the core and the entry of the log, of an eclipse. -/
def State.stopAndLog (s : State) (j : Job) (g c why : Nat) : State :=
  (s.onCoreAt (9 * g + c) (fun k => if k.stop.isSome then k else stopCore k .halted)).log
    { kind := 0x0D, fn := byteOf j.fn, job := j.id, geode := byteOf g, unit := byteOf c, a := u32 why
      b := u32 ((slotHeld (s.geode g) c).getD 0xFF) }

/-- A core eclipsed again within the hour is retired (R465). -/
def State.retireAgain (s : State) (g c : Nat) (again : Bool) : State :=
  if again then
    (s.onGeode g (fun y => { y with retired := y.retired ++ [c] })).log
      { kind := 0x0F, geode := byteOf g, unit := byteOf c, a := 1 }
  else s

/-- The eclipse of a core, as the supervisor notes it before it cares for the slot. -/
def State.noteEclipse (s : State) (j : Job) (g c why : Nat) : State :=
  (((s.stopAndLog j g c why).onGeode g (fun y =>
      { y with
        eclipses := ctrAdd 16 y.eclipses 1
        lastEclipse := y.lastEclipse.filter (fun e => e.1 != c) ++ [(c, secNow s.aon)] })).retireAgain g c
    ((s.geode g).lastEclipse.any (fun e => e.1 == c && decide (secNow s.aon < e.2 + 3600)))).raiseHub (1 + g)

/-- An eclipse notes the failure, then cares for the slot that the core holds, or for the one that it was to take as the
spare (R464). -/
theorem State.eclipseCore_eq {s : State} {g : Nat} {j : Job} (hj : s.jobOn g = some j) (c why : Nat) :
    (slotHeld (s.geode g) c = none → s.eclipseCore g c why =
      ((s.noteEclipse j g c why).spareFails g c ((s.geode g).beacon.getD 0)).prepTable j g ((s.geode g).beacon.getD 0)) ∧
    (∀ r, slotHeld (s.geode g) c = some r → s.eclipseCore g c why =
      ((s.noteEclipse j g c why).roleFails j g c r ((s.geode g).beacon.getD 0)).prepTable j g
        ((s.geode g).beacon.getD 0)) := by
  have key : s.eclipseCore g c why = State.prepTable (match slotHeld (s.geode g) c with
      | none => (s.noteEclipse j g c why).spareFails g c ((s.geode g).beacon.getD 0)
      | some r => (s.noteEclipse j g c why).roleFails j g c r ((s.geode g).beacon.getD 0)) j g
        ((s.geode g).beacon.getD 0) := by
    simp only [State.eclipseCore, hj]
    rfl
  exact ⟨fun h => by rw [key, h], fun r h => by rw [key, h]⟩

theorem State.stopAndLog_stop (s : State) (j : Job) {g c : Nat} (why : Nat) (h : 9 * g + c < s.cores.length) :
    ((s.stopAndLog j g c why).coreAt (9 * g + c)).stop.isSome = true := by
  rw [State.stopAndLog, State.log_coreAt, coreAt_onCoreAt s _ h]
  split
  · assumption
  · rfl

theorem State.stopAndLog_attn (s : State) (j : Job) (g c why k : Nat) (h : (s.coreAt k).attn = false) :
    ((s.stopAndLog j g c why).coreAt k).attn = false := by
  rw [State.stopAndLog, State.log_coreAt]
  refine coreAt_onCoreAt_of (P := fun d => d.attn = false) (fun d hd => ?_) h
  split <;> exact hd

@[simp] theorem State.retireAgain_coreAt (s : State) (g c : Nat) (again : Bool) (k : Nat) :
    (s.retireAgain g c again).coreAt k = s.coreAt k := by
  unfold State.retireAgain
  split
  · rw [State.log_coreAt]; rfl
  · rfl

theorem State.retireAgain_duty {s : State} {g : Nat} {x : Geode} (hg : s.geodes[g]? = some x) (c : Nat) (again : Bool) :
    ∃ y rs, (s.retireAgain g c again).geodes[g]? = some y ∧
      y.duty = (x.role, x.spare, x.eclipse, x.lost, x.eclipses, x.wdogMiss, x.eclipsed, rs) := by
  unfold State.retireAgain
  split
  · rw [State.log_geodes]
    refine ⟨{ x with retired := x.retired ++ [c] }, _, ?_, rfl⟩
    simp only [State.onGeode, modAt_get_self, hg, Option.map_some]
  · exact ⟨x, _, hg, rfl⟩

@[simp] theorem State.retireAgain_sizes (s : State) (g c : Nat) (again : Bool) :
    (s.retireAgain g c again).sizes = s.sizes := by
  unfold State.retireAgain
  split <;> simp

theorem State.retireAgain_log (s : State) (g c : Nat) (again : Bool) (l : LogEntry) (hm : l ∈ s.hub.log)
    (hl : s.hub.log.length < 4096) (hk : l.kind = 0x0D) : l ∈ (s.retireAgain g c again).hub.log := by
  unfold State.retireAgain
  split
  · exact State.log_keeps _ _ l hm hl (by simp [hk])
  · exact hm

/-- From `s` to `u` core `c` of geode `g`, whose duties are those of `x`, has stopped, and its eclipse is counted, logged and
reported. -/
structure EclipseNoted (s u : State) (x : Geode) (j : Job) (g c why : Nat) : Prop where
  sizes : u.sizes = s.sizes
  geode : ∃ y rs, u.geodes[g]? = some y ∧ y.duty =
    (x.role, x.spare, x.eclipse, x.lost, ctrAdd 16 x.eclipses 1, x.wdogMiss, x.eclipsed, rs)
  stop : (u.coreAt (9 * g + c)).stop.isSome = true
  attn : (s.coreAt (9 * g + c)).attn = false → (u.coreAt (9 * g + c)).attn = false
  line : linePending (u.coreAt 80) (1 + g) = true
  log : s.hub.halted = false → s.aon.islandsOff = false → s.hub.log.length < 4095 →
    (∀ l ∈ s.hub.log, l.readable = true) → ∃ l ∈ u.hub.log, l.kind = 0x0D ∧ l.job = j.id ∧ l.a = u32 why

theorem State.raiseHub_coreAt_ne (s : State) (n : Nat) {k : Nat} (h : 80 ≠ k) : (s.raiseHub n).coreAt k = s.coreAt k :=
  coreAt_onCoreAt_ne s _ h

theorem State.noteEclipse_noted {s : State} {g c : Nat} {x : Geode} (j : Job) (why : Nat) (hx : s.geodes[g]? = some x)
    (hg : g < 8) (hc : c < 9) (hs : 80 < s.cores.length) :
    EclipseNoted s (s.noteEclipse j g c why) x j g c why := by
  have hk : 9 * g + c < s.cores.length := by omega
  have hne : 80 ≠ 9 * g + c := by omega
  have hsz : (s.noteEclipse j g c why).sizes = s.sizes := by
    simp [State.noteEclipse, State.raiseHub, State.stopAndLog]
  refine ⟨?_, ?_, ?_, fun h => ?_, ?_, fun hh hi hl hr => ?_⟩
  · exact hsz
  · have h : ((s.stopAndLog j g c why).onGeode g (fun y =>
        { y with
          eclipses := ctrAdd 16 y.eclipses 1
          lastEclipse := y.lastEclipse.filter (fun e => e.1 != c) ++ [(c, secNow s.aon)] })).geodes[g]? =
        some { x with
          eclipses := ctrAdd 16 x.eclipses 1
          lastEclipse := x.lastEclipse.filter (fun e => e.1 != c) ++ [(c, secNow s.aon)] } := by
      simp only [State.onGeode, modAt_get_self, State.stopAndLog, State.log_geodes, State.onCoreAt, hx, Option.map_some]
    exact State.retireAgain_duty h c _
  · rw [State.noteEclipse, State.raiseHub_coreAt_ne _ _ hne, State.retireAgain_coreAt]
    exact s.stopAndLog_stop j why hk
  · rw [State.noteEclipse, State.raiseHub_coreAt_ne _ _ hne, State.retireAgain_coreAt]
    exact s.stopAndLog_attn j g c why _ h
  · rw [State.noteEclipse, State.raiseHub, coreAt_onCoreAt _ _ ?_]
    · exact linePending_raiseLine _ (by omega)
    · refine hs.trans_eq (cores_length_of_sizes ?_).symm
      rw [State.retireAgain_sizes, State.onGeode_sizes, State.stopAndLog, State.log_sizes, State.onCoreAt_sizes]
  · obtain ⟨l, h1, hkind, hjob, ha⟩ := State.log_new (s.onCoreAt (9 * g + c) (fun k => if k.stop.isSome then k else stopCore k .halted))
      { kind := 0x0D, fn := byteOf j.fn, job := j.id, geode := byteOf g, unit := byteOf c, a := u32 why
        b := u32 ((slotHeld (s.geode g) c).getD 0xFF) } hh hi (Nat.lt_succ_of_lt hl) hr
    have h2 : (s.stopAndLog j g c why).hub.log = s.hub.log ++ [l] := h1
    refine ⟨l, State.retireAgain_log _ g c _ l ?_ ?_ hkind, hkind, hjob, ha⟩
    · exact h2 ▸ List.mem_append_right _ (List.mem_singleton_self l)
    · simp only [State.onGeode, h2, List.length_append, List.length_singleton]; omega

/-! ### Care for the slot -/

theorem duty_toSelfTest (x : Geode) (c : Nat) : ∃ es, (toSelfTest x c).duty =
    (x.role, x.spare, x.eclipse, x.lost, x.eclipses, x.wdogMiss, es, x.retired) := by
  unfold toSelfTest
  split <;> exact ⟨_, rfl⟩

/-- The care for a failed slot leaves the hub's log, and every core but the spare. -/
theorem State.roleFails_log (s : State) (j : Job) (g c r : Nat) (n : U32) :
    (s.roleFails j g c r n).hub.log = s.hub.log := by
  unfold State.roleFails
  extract_lets x early p s1
  have h1 : s1.hub.log = s.hub.log := by simp only [s1]; split <;> rfl
  split
  · split <;> exact h1
  · exact h1

theorem State.roleFails_coreAt_ne (s : State) (j : Job) {g : Nat} (c r : Nat) (n : U32) {k : Nat}
    (h : ∀ sp, (s.geode g).spare = some sp → 9 * g + sp ≠ k) : (s.roleFails j g c r n).coreAt k = s.coreAt k := by
  unfold State.roleFails
  extract_lets x early p s1
  have h1 : s1.coreAt k = s.coreAt k := by simp only [s1]; split <;> rfl
  split
  case h_1 sp hsp _ =>
    split
    · rw [State.installRole_coreAt_ne _ _ _ _ (h sp hsp), State.coreReset_coreAt_ne _ (h sp hsp)]; exact h1
    · exact h1
  case h_2 => exact h1

theorem State.roleFails_attn (s : State) (j : Job) (g c r : Nat) (n : U32) (k : Nat) (h : (s.coreAt k).attn = false) :
    ((s.roleFails j g c r n).coreAt k).attn = false := by
  unfold State.roleFails
  extract_lets x early p s1
  have h1 : (s1.coreAt k).attn = false := by simp only [s1]; split <;> exact h
  split
  · split
    · exact State.installRole_attn _ _ _ _ _ _ _ (State.coreReset_attn _ _ _ _ h1)
    · exact h1
  · exact h1

theorem State.roleFails_sizes (s : State) (j : Job) (g c r : Nat) (n : U32) :
    (s.roleFails j g c r n).sizes = s.sizes := by
  unfold State.roleFails
  extract_lets x early p s1
  have h1 : s1.sizes = s.sizes := by simp only [s1]; split <;> rfl
  split
  · split <;> simp [h1]
  · simp [h1]

/-- Late, the spare is prepared for the slot (R464). -/
theorem State.roleFails_prepares {s : State} (j : Job) {g : Nat} {x : Geode} (hx : s.geodes[g]? = some x) (c r : Nat) (n : U32)
    {sp : Nat} (hsp : x.spare = some sp) (he : x.eclipse = none) (hn : atOrAfter n j.first = true) :
    ∃ f, ((s.roleFails j g c r n).geode g).duty =
        (x.role, x.spare, some f, x.lost, x.eclipses, x.wdogMiss, x.eclipsed, x.retired) ∧
      f.slot = r ∧ f.core = c ∧ f.copied = false := by
  simp only [State.roleFails, geode_get hx, hsp, he, hn]
  simp only [Bool.not_true, Bool.false_eq_true, if_false]
  refine ⟨{ slot := r, core := c, period := n, copied := false, takeover := some (s.eclipsePlan g n).2
            varFrom := (s.eclipsePlan g n).1 }, ?_, rfl, rfl, rfl⟩
  rw [geode_onGeode (s := s.markFrame _ _ _ _ _) _ hx, ← hsp]
  rfl

/-- Before the first frame the spare takes the slot at once (R336). -/
theorem State.roleFails_gives {s : State} (j : Job) {g : Nat} {x : Geode} (hx : s.geodes[g]? = some x) (c r : Nat) (n : U32)
    {sp : Nat} (hsp : x.spare = some sp) (he : x.eclipse = none) (hn : atOrAfter n j.first = false) :
    ∃ es, ((s.roleFails j g c r n).geode g).duty =
      ((x.role.map (fun k => if k = sp then x.role.getD r 0 else k)).set r sp, none, none, x.lost, x.eclipses,
        x.wdogMiss, es, x.retired) := by
  simp only [State.roleFails, geode_get hx, hsp, he, hn]
  simp only [Bool.not_false, if_true, State.installRole_duty, State.coreReset_duty]
  rw [geode_onGeode _ hx]
  obtain ⟨es, h⟩ := duty_toSelfTest (giveRole x r sp) c
  exact ⟨es, h.trans (by simp only [giveRole, he])⟩

/-- Without an available spare the slot is lost (R336). -/
theorem State.roleFails_loses {s : State} (j : Job) {g : Nat} {x : Geode} (hx : s.geodes[g]? = some x) (c r : Nat) (n : U32)
    (h : x.spare = none ∨ x.eclipse.isSome = true) :
    ∃ b es, ((s.roleFails j g c r n).geode g).duty =
      (x.role, x.spare, x.eclipse, x.lost ++ [(r, b)], x.eclipses, x.wdogMiss, es, x.retired) := by
  unfold State.roleFails
  extract_lets x' early p s1
  have hx' : x' = x := geode_get hx
  have hx1 : s1.geodes[g]? = some x := by simp only [s1]; split <;> exact hx
  split
  case h_1 sp hsp he => rw [hx'] at hsp he; simp [hsp, he] at h
  case h_2 =>
    rw [geode_onGeode _ hx1]
    obtain ⟨es, hd⟩ := duty_toSelfTest (loseSlot x r (if early then j.first else p.1)) c
    exact ⟨_, es, hd⟩

/-- The counts of a geode's failures (R473). -/
def Geode.counts (x : Geode) : Nat × Nat := (x.eclipses, x.wdogMiss)

theorem counts_toSelfTest (x : Geode) (c : Nat) : (toSelfTest x c).counts = x.counts := by
  unfold toSelfTest
  split <;> rfl

/-- What a failed spare costs (R336) leaves the counts. -/
theorem State.spareFails_counts (s : State) (g c : Nat) (n : U32) :
    ((s.spareFails g c n).geode g).counts = (s.geode g).counts := by
  unfold State.spareFails
  extract_lets p
  refine geode_onGeode_of (p := Geode.counts) (fun x => ?_) s g g
  extract_lets y1
  have h1 : y1.counts = x.counts := counts_toSelfTest _ c
  split
  · split
    · exact (counts_toSelfTest _ _).trans h1
    · exact h1
  · exact h1

/-- What the care for a slot, from `v` to `w`, leaves as it was. -/
structure SlotCare (v w : State) (g : Nat) : Prop where
  sizes : w.sizes = v.sizes
  log : w.hub.log = v.hub.log
  others : ∀ k, (∀ sp, (v.geode g).spare = some sp → 9 * g + sp ≠ k) → w.coreAt k = v.coreAt k
  attn : ∀ k, (v.coreAt k).attn = false → (w.coreAt k).attn = false
  counts : (w.geode g).counts = (v.geode g).counts

theorem State.spareFails_care (v : State) (g c : Nat) (n : U32) : SlotCare v (v.spareFails g c n) g :=
  ⟨v.onGeode_sizes g _, rfl, fun _ _ => rfl, fun _ h => h, v.spareFails_counts g c n⟩

theorem Geode.counts_of_duty {x y : Geode} (h : x.duty = y.duty) : x.counts = y.counts :=
  congrArg (fun d => (d.2.2.2.2.1, d.2.2.2.2.2.1)) h

theorem State.roleFails_counts (v : State) (j : Job) (g c r : Nat) (n : U32) :
    ((v.roleFails j g c r n).geode g).counts = (v.geode g).counts := by
  unfold State.roleFails
  extract_lets x early p v1
  have h1 : (v1.geode g).counts = (v.geode g).counts := by simp only [v1]; split <;> rfl
  split
  · split
    · rw [Geode.counts_of_duty (State.installRole_duty ..), Geode.counts_of_duty (State.coreReset_duty ..)]
      refine (geode_onGeode_of (p := Geode.counts) ?_ v1 g g).trans h1
      exact fun y => counts_toSelfTest _ c
    · refine (geode_onGeode_of (p := Geode.counts) ?_ v1 g g).trans h1
      exact fun y => rfl
  · refine (geode_onGeode_of (p := Geode.counts) ?_ v1 g g).trans h1
    exact fun y => counts_toSelfTest _ c

theorem State.roleFails_care (v : State) (j : Job) (g c r : Nat) (n : U32) : SlotCare v (v.roleFails j g c r n) g :=
  ⟨v.roleFails_sizes j g c r n, v.roleFails_log j g c r n, fun _ h => v.roleFails_coreAt_ne j c r n h,
    fun k h => v.roleFails_attn j g c r n k h, v.roleFails_counts j g c r n⟩

/-! ### The eclipse of a core -/

/-- The core holds a role slot that is not lost. -/
def HoldsSlot (x : Geode) (n : Nat) : Prop := x.role.contains n = true ∧ x.role.idxOf n ∉ x.lost.map (fun l => l.1)

theorem slotHeld_of_holds {x : Geode} {n : Nat} (h : HoldsSlot x n) : slotHeld x n = some (x.role.idxOf n) := by
  simp only [slotHeld, h.1, lostSlots, List.contains_eq_mem, h.2]
  rfl

theorem slotHeld_of_not_holds {x : Geode} {n : Nat} (h : ¬ HoldsSlot x n) : slotHeld x n = none := by
  simp only [slotHeld]
  rw [if_neg]
  simpa [HoldsSlot, lostSlots, List.contains_eq_mem] using h

/-- What geode `g`, with duties `x`, its failed core `n`, the hub and its log are behind the eclipse (R41, R464). -/
def Eclipsed (s u : State) (x : Geode) (j : Job) (g : Fin 8) (n : Fin 9) (why : Nat) : Prop :=
  ∃ (y : Geode) (e : Core), u.geodes[g.val]? = some y ∧ u.cores[coreIdx (.sig g n)]? = some e ∧
    y.eclipses = ctrAdd 16 x.eclipses 1 ∧ (x.spare ≠ some n.val → e.stop.isSome = true) ∧
    ((∀ sp, x.spare = some sp → sp < 9) → linePending (u.core .hub) (1 + g.val) = true) ∧
    (HoldsSlot x n.val → x.spare.isSome = true → x.eclipse = none → atOrAfter (x.beacon.getD 0) j.first = true →
      ∃ f, y.eclipse = some f ∧ f.slot = x.role.idxOf n.val ∧ f.core = n.val ∧ f.copied = false) ∧
    (∀ sp, HoldsSlot x n.val → x.spare = some sp → x.eclipse = none → atOrAfter (x.beacon.getD 0) j.first = false →
      y.role = (x.role.map (fun k => if k = sp then n.val else k)).set (x.role.idxOf n.val) sp ∧ y.spare = none ∧
        y.eclipse = none) ∧
    (HoldsSlot x n.val → (x.spare = none ∨ x.eclipse.isSome = true) →
      ∃ b, y.lost = x.lost ++ [(x.role.idxOf n.val, b)] ∧ y.role = x.role) ∧
    (s.hub.halted = false → s.aon.islandsOff = false → s.hub.log.length < 4095 → (∀ l ∈ s.hub.log, l.readable = true) →
      ∃ l ∈ u.hub.log, l.kind = 0x0D ∧ l.job = j.id ∧ l.a = u32 why)

/-- The slot clauses of an eclipse, of the duties `y` behind it. -/
structure SlotAfter (x y : Geode) (j : Job) (n : Nat) : Prop where
  prepared : HoldsSlot x n → x.spare.isSome = true → x.eclipse = none → atOrAfter (x.beacon.getD 0) j.first = true →
    ∃ f, y.eclipse = some f ∧ f.slot = x.role.idxOf n ∧ f.core = n ∧ f.copied = false
  given : ∀ sp, HoldsSlot x n → x.spare = some sp → x.eclipse = none → atOrAfter (x.beacon.getD 0) j.first = false →
    y.role = (x.role.map (fun k => if k = sp then n else k)).set (x.role.idxOf n) sp ∧ y.spare = none ∧ y.eclipse = none
  lost : HoldsSlot x n → (x.spare = none ∨ x.eclipse.isSome = true) →
    ∃ b, y.lost = x.lost ++ [(x.role.idxOf n, b)] ∧ y.role = x.role

theorem slotAfter_of_not_holds {x : Geode} {n : Nat} (h : ¬ HoldsSlot x n) (y : Geode) (j : Job) : SlotAfter x y j n :=
  ⟨fun hs => absurd hs h, fun _ hs => absurd hs h, fun hs => absurd hs h⟩

theorem SlotAfter.congr {x y z : Geode} {j : Job} {n : Nat} (h : SlotAfter x y j n) (e : z.duty = y.duty) :
    SlotAfter x z j n := by
  simp only [Geode.duty, Prod.mk.injEq] at e
  obtain ⟨hr, hs, he, hl, -⟩ := e
  constructor
  · rw [he]; exact h.prepared
  · rw [hr, hs, he]; exact h.given
  · rw [hl, hr]; exact h.lost

/-- A failed role leaves the slot prepared for, given to the spare, or lost. -/
theorem State.roleFails_slotAfter {v : State} {x z : Geode} (j : Job) {g n : Nat} (hz : v.geodes[g]? = some z)
    (hrole : z.role = x.role) (hspare : z.spare = x.spare) (hecl : z.eclipse = x.eclipse) (hlost : z.lost = x.lost) :
    SlotAfter x ((v.roleFails j g n (x.role.idxOf n) (x.beacon.getD 0)).geode g) j n := by
  constructor
  · intro _ hs he hn
    obtain ⟨sp, hsp⟩ := Option.isSome_iff_exists.mp hs
    obtain ⟨f, hd, hf⟩ := v.roleFails_prepares j hz n (x.role.idxOf n) (x.beacon.getD 0) (hspare.trans hsp) (hecl.trans he) hn
    exact ⟨f, congrArg (fun d => d.2.2.1) hd, hf⟩
  · intro sp hh hsp he hn
    obtain ⟨es, hd⟩ := v.roleFails_gives j hz n (x.role.idxOf n) (x.beacon.getD 0) (hspare.trans hsp) (hecl.trans he) hn
    have hget : x.role.getD (x.role.idxOf n) 0 = n := by
      have hm : n ∈ x.role := by simpa [List.contains_eq_mem] using hh.1
      simp [List.getD, List.getElem?_idxOf hm]
    rw [hrole, hget] at hd
    exact ⟨congrArg (fun d => d.1) hd, congrArg (fun d => d.2.1) hd, congrArg (fun d => d.2.2.1) hd⟩
  · intro _ h
    rw [← hspare, ← hecl] at h
    obtain ⟨b, es, hd⟩ := v.roleFails_loses j hz n (x.role.idxOf n) (x.beacon.getD 0) h
    rw [hrole, hlost] at hd
    exact ⟨b, congrArg (fun d => d.2.2.2.1) hd, congrArg (fun d => d.1) hd⟩

/-- Once the eclipse is noted and its slot cared for, the failure is answered. -/
theorem eclipsed_of_care {s v w : State} {x : Geode} {j : Job} {g : Fin 8} {n : Fin 9} {why : Nat} {c : Core} (k : U32)
    (hc : s.cores[coreIdx (.sig g n)]? = some c) (hv : EclipseNoted s v x j g.val n.val why) (hw : SlotCare v w g.val)
    (ha : SlotAfter x (w.geode g.val) j n.val) : Eclipsed s (w.prepTable j g.val k) x j g n why := by
  obtain ⟨y, rs, hy, hd⟩ := hv.geode
  simp only [Geode.duty, Prod.mk.injEq] at hd
  obtain ⟨-, hspare, -, -, hcount, -⟩ := hd
  have hsz : w.sizes = s.sizes := hw.sizes.trans hv.sizes
  have hothers : ∀ k, (∀ sp, x.spare = some sp → 9 * g.val + sp ≠ k) → w.coreAt k = v.coreAt k := fun k h =>
    hw.others k (fun sp hsp => h sp (by rw [← hspare, ← hsp, geode_get hy]))
  have ha' := ha.congr (State.prepTable_duty w j g.val k g.val)
  refine ⟨_, _, geode_of_sizes ((w.prepTable_sizes j g.val k).trans hw.sizes) hy,
    coreAt_of_sizes ((w.prepTable_sizes j g.val k).trans hsz) hc, ?_, fun h => ?_, fun h => ?_, ha'.prepared, ha'.given,
    ha'.lost, ?_⟩
  · rw [← hcount, ← geode_get hy]
    exact congrArg Prod.fst ((Geode.counts_of_duty (State.prepTable_duty ..)).trans hw.counts)
  · rw [State.prepTable_coreAt, hothers]
    · exact hv.stop
    · intro sp hsp e
      have : sp = n.val := by simp only [coreIdx] at e; omega
      exact h (this ▸ hsp)
  · rw [State.core, State.prepTable_coreAt, hothers]
    · exact hv.line
    · intro sp hsp e
      have := h sp hsp
      simp only [coreIdx] at e
      omega
  · rw [State.prepTable_hub, hw.log]
    exact hv.log

/-- CORE_ECLIPSE (R464, R465, R336): the failure of a core of a geode with a job. -/
theorem State.eclipseCore_eclipsed {s : State} {x : Geode} {j : Job} {g : Fin 8} {n : Fin 9} {c h : Core} (why : Nat)
    (hx : s.geodes[g.val]? = some x) (hc : s.cores[coreIdx (.sig g n)]? = some c) (hh : s.cores[80]? = some h)
    (hj : s.jobOn g.val = some j) :
    Eclipsed s (s.eclipseCore g.val n.val why) x j g n why ∧
      ((s.eclipseCore g.val n.val why).geode g.val).wdogMiss = x.wdogMiss ∧
      (c.attn = false → ((s.eclipseCore g.val n.val why).core (.sig g n)).attn = false) := by
  have h80 : 80 < s.cores.length := (List.getElem?_eq_some_iff.mp hh).1
  have hv := State.noteEclipse_noted j why hx g.isLt n.isLt h80
  have care : ∃ w k, SlotCare (s.noteEclipse j g.val n.val why) w g.val ∧ SlotAfter x (w.geode g.val) j n.val ∧
      s.eclipseCore g.val n.val why = w.prepTable j g.val k := by
    obtain ⟨hnone, hsome⟩ := State.eclipseCore_eq hj n.val why
    rw [geode_get hx] at hnone hsome
    by_cases hs : HoldsSlot x n.val
    · obtain ⟨z, rs, hz, hd⟩ := hv.geode
      simp only [Geode.duty, Prod.mk.injEq] at hd
      obtain ⟨hrole, hspare, hecl, hlost, -⟩ := hd
      exact ⟨_, _, State.roleFails_care _ j g.val n.val _ _,
        State.roleFails_slotAfter j hz hrole hspare hecl hlost, hsome _ (slotHeld_of_holds hs)⟩
    · exact ⟨_, _, State.spareFails_care _ g.val n.val _, slotAfter_of_not_holds hs _ j,
        hnone (slotHeld_of_not_holds hs)⟩
  obtain ⟨w, k, hw, ha, hu⟩ := care
  obtain ⟨y, rs, hy, hd⟩ := hv.geode
  rw [hu]
  refine ⟨eclipsed_of_care k hc hv hw ha, ?_, fun hattn => ?_⟩
  · have hcounts := (Geode.counts_of_duty (State.prepTable_duty w j g.val k g.val)).trans hw.counts
    rw [geode_get hy] at hcounts
    exact (congrArg Prod.snd hcounts).trans (congrArg (fun d => d.2.2.2.2.2.1) hd)
  · rw [State.core, State.prepTable_coreAt]
    exact hw.attn _ (hv.attn (by rw [show s.coreAt (9 * g.val + n.val) = c from core_get hc]; exact hattn))

/-- What an eclipse says of a state reads the hub and the islands of the state before it alone. -/
theorem Eclipsed.congr {s t u : State} {x z : Geode} {j : Job} {g : Fin 8} {n : Fin 9} {why : Nat}
    (h : Eclipsed t u z j g n why) (hhub : t.hub = s.hub) (haon : t.aon = s.aon)
    (hd : z = { x with wdogMiss := z.wdogMiss }) : Eclipsed s u x j g n why := by
  rw [hd] at h
  unfold Eclipsed at h
  rw [hhub, haon] at h
  exact h

theorem State.jobOn_congr {s t : State} (h : t.hub = s.hub) (g : Nat) : t.jobOn g = s.jobOn g := by
  simp only [State.jobOn, h]

theorem supWaits_of_running {s : State} {g : Nat} {d : Core} (h : s.cores[72 + g]? = some d) (hd : d.isHalted = false) :
    s.supWaits g = false := by
  rw [State.supWaits, coreAt_get h, hd]

/-! ### The events -/

theorem execHubMailboxMessage_next {s : State} {g : Fin 8} {m : MailMsg}
    (h : s.hub.mail.find? (fun e => e.1 == g.val) = some (g.val, m)) :
    exec (.hubMailboxMessage g m) s = .next (((s.onHub (fun y => { y with mail := y.mail.erase (g.val, m) })).onGeode g.val
      (fun y => { y with mailbox := y.mailbox ++ [m] })).onCore (.sup g) (fun e => raiseLine e 10)) := by
  show execHubMailboxMessage g m s = _
  rw [execHubMailboxMessage, h, if_pos (by simp)]
  rfl

/-- The state in which the watchdog's eclipse begins: the miss is counted; at L3 it is a double fault (R135). -/
theorem execWatchdogMiss_next {s : State} {g : Fin 8} {n : Fin 9} {c d : Core}
    (hc : s.cores[coreIdx (.sig g n)]? = some c) (hd : s.cores[72 + g.val]? = some d) (hrun : d.isHalted = false)
    (hs : c.stop = none) (hdue : c.checkpointDue = true) :
    ∃ t : State, exec (.watchdogMiss g n) s = .next (t.eclipseCore g.val n.val (if c.l3act then 2 else 3)) ∧
      t.hub = s.hub ∧ t.aon = s.aon ∧ t.sizes = s.sizes ∧
      t.geodes = modAt s.geodes g.val (fun x => { x with wdogMiss := ctrAdd 16 x.wdogMiss 1 }) := by
  have hexec : exec (.watchdogMiss g n) s = execWatchdogMiss g n s := rfl
  simp only [hexec, execWatchdogMiss, core_get hc, hs, hdue, supWaits_of_running hd hrun]
  cases c.l3act with
  | true => exact ⟨_, rfl, rfl, rfl, by simp [State.raiseSup, State.onCore, State.sizes], rfl⟩
  | false => exact ⟨_, rfl, rfl, rfl, by simp, rfl⟩

theorem execCoreAttention_next {s : State} {g : Fin 8} {n : Fin 9} {x : Geode} {c d : Core} (hx : s.geodes[g.val]? = some x)
    (hc : s.cores[coreIdx (.sig g n)]? = some c) (hd : s.cores[72 + g.val]? = some d) (hrun : d.isHalted = false)
    (ha : c.attn = true) (hr : replaced x c n.val = true) :
    exec (.coreAttention g n) s = .next ((s.onCore (.sig g n) (fun x => { x with attn := false })).eclipseCore g.val n.val
      (if c.stop = some .doubleFault then 2 else 1)) := by
  show execCoreAttention g n s = _
  simp only [execCoreAttention, core_get hc, ha, supWaits_of_running hd hrun, geode_get hx, hr]
  rfl

theorem watchdogMiss_eclipses {s : State} {g : Fin 8} {n : Fin 9} {x : Geode} {c d h : Core} {j : Job}
    (hx : s.geodes[g.val]? = some x) (hc : s.cores[coreIdx (.sig g n)]? = some c) (hd : s.cores[72 + g.val]? = some d)
    (hh : s.cores[80]? = some h) (hrun : d.isHalted = false) (hj : s.jobOn g.val = some j) (hs : c.stop = none)
    (hdue : c.checkpointDue = true) :
    ∃ u, exec (.watchdogMiss g n) s = .next u ∧ Eclipsed s u x j g n (if c.l3act then 2 else 3) ∧
      (u.geode g.val).wdogMiss = ctrAdd 16 x.wdogMiss 1 := by
  obtain ⟨t, ht, hhub, haon, hsz, hgeo⟩ := execWatchdogMiss_next hc hd hrun hs hdue
  have hxt : t.geodes[g.val]? = some { x with wdogMiss := ctrAdd 16 x.wdogMiss 1 } := by simp [hgeo, hx]
  obtain ⟨he, hw, -⟩ := t.eclipseCore_eclipsed (if c.l3act then 2 else 3) hxt (coreAt_of_sizes hsz hc)
    (coreAt_of_sizes hsz hh) ((State.jobOn_congr hhub g.val).trans hj)
  exact ⟨_, ht, he.congr hhub haon rfl, hw⟩

/-- The cores that the statement names are replaced when they ask for attention (R271, R336). -/
theorem replaced_of_duty {x : Geode} {c : Core} {n : Nat}
    (h : c.svc = true ∨ (x.lodeSlot.isSome = true ∧ HoldsSlot x n) ∨ (x.spare = some n ∧ x.eclipse.isSome = true)) :
    replaced x c n = true := by
  rcases h with h | ⟨hl, hc, hlost⟩ | ⟨hsp, he⟩
  · simp [replaced, h]
  · have hlost' : (lostSlots x).contains (x.role.idxOf n) = false := by simpa [lostSlots, List.contains_eq_mem] using hlost
    simp only [replaced, holdsRole, hl, hc, hlost', Bool.and_self, Bool.not_false, Bool.or_true, Bool.true_or]
  · simp [replaced, hsp, he]

theorem coreAttention_eclipses {s : State} {g : Fin 8} {n : Fin 9} {x : Geode} {c d h : Core} {j : Job}
    (hx : s.geodes[g.val]? = some x) (hc : s.cores[coreIdx (.sig g n)]? = some c) (hd : s.cores[72 + g.val]? = some d)
    (hh : s.cores[80]? = some h) (hrun : d.isHalted = false) (hj : s.jobOn g.val = some j) (ha : c.attn = true)
    (hr : replaced x c n.val = true) :
    ∃ u, exec (.coreAttention g n) s = .next u ∧ (u.core (.sig g n)).attn = false ∧
      Eclipsed s u x j g n (if c.stop = some .doubleFault then 2 else 1) := by
  have hne : coreIdx (.sig g n) ≠ 80 := by simp only [coreIdx]; omega
  obtain ⟨he, -, hattn⟩ := State.eclipseCore_eclipsed (s := s.onCore (.sig g n) (fun x => { x with attn := false }))
    (c := { c with attn := false }) (h := h) (if c.stop = some .doubleFault then 2 else 1) hx
    (by rw [State.onCore_cores, modAt_get_self, hc]; rfl) (by rw [State.onCore_cores, modAt_get_ne _ _ _ _ hne, hh]) hj
  exact ⟨_, execCoreAttention_next hx hc hd hrun ha hr, hattn rfl, he⟩

/-- The spare gets its image (R45): not where the lode that the job leaves would only be loaded to be released. -/
def State.spareLoaded (s : State) (j : Job) (e : Eclipse) (g sp : Nat) (over_ : Bool) : State :=
  if over_ then s.coreReset g sp
  else (s.coreReset g sp).installRole (s.lodeOf j.slot) g (lodeGeode j g) e.slot sp

@[simp] theorem State.spareLoaded_sizes (s : State) (j : Job) (e : Eclipse) (g sp : Nat) (over_ : Bool) :
    (s.spareLoaded j e g sp over_).sizes = s.sizes := by
  unfold State.spareLoaded
  split <;> simp

theorem State.spareLoaded_duty (s : State) (j : Job) (e : Eclipse) (g sp : Nat) (over_ : Bool) :
    ((s.spareLoaded j e g sp over_).geode g).duty = (s.geode g).duty := by
  unfold State.spareLoaded
  split <;> simp

theorem State.spareLoaded_stop (s : State) (j : Job) (e : Eclipse) {g sp : Nat} (over_ : Bool)
    (h : 9 * g + sp < s.cores.length) : ((s.spareLoaded j e g sp over_).coreAt (9 * g + sp)).stop = none := by
  have hr := congrArg (fun k => k.1) (s.coreReset_kept h)
  unfold State.spareLoaded
  split
  · exact hr
  · exact (congrArg (fun k => k.1) (State.installRole_kept _ _ _ _
      (h.trans_eq (cores_length_of_sizes (s.coreReset_sizes g sp)).symm))).trans hr

theorem State.spareLoaded_image (s : State) (j : Job) (e : Eclipse) {g sp : Nat} (h : 9 * g + sp < s.cores.length) :
    ((s.spareLoaded j e g sp false).coreAt (9 * g + sp)).x.cells =
        smOf 0 (sectUnits (s.lodeOf j.slot) 2 (lodeGeode j g) e.slot 0) ∧
      ((s.spareLoaded j e g sp false).coreAt (9 * g + sp)).y.cells =
        smOf 0 (sectUnits (s.lodeOf j.slot) 3 (lodeGeode j g) e.slot 0) := by
  have hk := State.installRole_kept (s.coreReset g sp) (s.lodeOf j.slot) (lodeGeode j g) e.slot
    (h.trans_eq (cores_length_of_sizes (s.coreReset_sizes g sp)).symm)
  exact ⟨congrArg (fun k => k.2.2.1.cells) hk, congrArg (fun k => k.2.2.2.cells) hk⟩

/-- SPARE_IMAGE_COPY_COMPLETE while it waits for nothing. -/
theorem execSpareImageCopyComplete_next {s : State} {g : Fin 8} {x : Geode} {d : Core} {j : Job} {e : Eclipse} {sp : Nat}
    (hx : s.geodes[g.val]? = some x) (hd : s.cores[72 + g.val]? = some d) (hrun : d.isHalted = false)
    (hj : s.jobOn g.val = some j) (he : x.eclipse = some e) (hsp : x.spare = some sp) (hcop : e.copied = false) :
    ∃ over_, (j.releaseAt = none → over_ = false) ∧ exec (.spareImageCopyComplete g) s =
      .next (((s.spareLoaded j e g.val sp over_).onGeode g.val
        (fun y => { y with eclipse := some { e with copied := true } })).prepTable j g.val (x.beacon.getD 0)) := by
  have hexec : exec (.spareImageCopyComplete g) s = execSpareImageCopyComplete g s := rfl
  simp only [hexec, execSpareImageCopyComplete, geode_get hx, he, hsp, hj, hcop, supWaits_of_running hd hrun]
  exact ⟨_, fun h => by rw [h], rfl⟩

/-- The spare's image is complete (R43, R45): the spare is reset and holds the image. -/
theorem spareImageCopyComplete_copies {s : State} {g : Fin 8} {x : Geode} {d b : Core} {j : Job} {e : Eclipse} {sp : Nat}
    (hx : s.geodes[g.val]? = some x) (hd : s.cores[72 + g.val]? = some d) (hrun : d.isHalted = false)
    (hj : s.jobOn g.val = some j) (he : x.eclipse = some e) (hsp : x.spare = some sp) (hcop : e.copied = false)
    (hb : s.cores[9 * g.val + sp]? = some b) :
    ∃ (u : State) (y : Geode) (f : Core), exec (.spareImageCopyComplete g) s = .next u ∧ u.geodes[g.val]? = some y ∧
      y.eclipse = some { e with copied := true } ∧ y.role = x.role ∧ y.spare = x.spare ∧
      u.cores[9 * g.val + sp]? = some f ∧ f.stop = none ∧
      (j.releaseAt = none →
        f.x.cells = smOf 0 (sectUnits (s.lodeOf j.slot) 2 (lodeGeode j g.val) e.slot 0) ∧
        f.y.cells = smOf 0 (sectUnits (s.lodeOf j.slot) 3 (lodeGeode j g.val) e.slot 0)) := by
  obtain ⟨over_, hover, hexec⟩ := execSpareImageCopyComplete_next hx hd hrun hj he hsp hcop
  have hlt : 9 * g.val + sp < s.cores.length := (List.getElem?_eq_some_iff.mp hb).1
  have hsz (f : Geode → Geode) (k : U32) : (((s.spareLoaded j e g.val sp over_).onGeode g.val f).prepTable j g.val k).sizes =
      s.sizes := by simp
  have hdg := State.prepTable_duty ((s.spareLoaded j e g.val sp over_).onGeode g.val
    (fun y => { y with eclipse := some { e with copied := true } })) j g.val (x.beacon.getD 0) g.val
  rw [geode_onGeode _ (geode_of_sizes (s.spareLoaded_sizes j e g.val sp over_) hx)] at hdg
  have hds := s.spareLoaded_duty j e g.val sp over_
  rw [geode_get hx] at hds
  simp only [Geode.duty, Prod.mk.injEq] at hdg hds
  obtain ⟨hrole, hspare, hecl, -⟩ := hdg
  obtain ⟨hrole', hspare', -⟩ := hds
  refine ⟨_, _, _, hexec, geode_of_sizes (hsz _ _) hx, hecl, hrole.trans hrole', hspare.trans hspare',
    coreAt_of_sizes (hsz _ _) hb, ?_, fun hrel => ?_⟩
  · rw [State.prepTable_coreAt]
    exact s.spareLoaded_stop j e over_ hlt
  · rw [State.prepTable_coreAt, hover hrel]
    exact s.spareLoaded_image j e hlt

/-! ### Self-tests -/

/-- The core that has tested itself: reset, and no longer among the eclipsed. -/
def State.tested (s : State) (g c : Nat) : State :=
  (s.coreReset g c).onGeode g (fun y => { y with eclipsed := y.eclipsed.filter (· != c) })

theorem State.tested_duty {s : State} {g : Nat} {x : Geode} (hx : s.geodes[g]? = some x) (c : Nat) :
    ∃ y, (s.tested g c).geodes[g]? = some y ∧ y.duty =
      (x.role, x.spare, x.eclipse, x.lost, x.eclipses, x.wdogMiss, x.eclipsed.filter (· != c), x.retired) := by
  have hz := geode_of_sizes (s.coreReset_sizes g c) hx
  have hd := s.coreReset_duty g c g
  rw [geode_get hx] at hd
  simp only [Geode.duty, Prod.mk.injEq] at hd
  refine ⟨{ (s.coreReset g c).geode g with eclipsed := ((s.coreReset g c).geode g).eclipsed.filter (· != c) }, ?_, ?_⟩
  · rw [State.tested, State.onGeode_geodes, modAt_get_self, hz]
    rfl
  · simp only [Geode.duty, hd]

@[simp] theorem State.resumeSolves_geodes (s : State) (g : Nat) : (s.resumeSolves g).geodes = s.geodes := by
  have hwide : ∀ (l : List Nat) (t : State) (f : Core → Core),
      (l.foldl (fun u k => u.onCoreAt (9 * g + k) f) t).geodes = t.geodes := fun l => by
    induction l with
    | nil => exact fun _ _ => rfl
    | cons k l ih => exact fun t f => ih _ f
  unfold State.resumeSolves
  split
  · exact hwide _ _ _
  · rfl

/-- A self-test that counts (R42, R465): of an eclipsed core, or of the spare between takeovers. -/
theorem execCoreSelfTestComplete_next {s : State} {g : Fin 8} {n : Fin 9} {x : Geode} {c d : Core}
    (hx : s.geodes[g.val]? = some x) (hc : s.cores[coreIdx (.sig g n)]? = some c) (hd : s.cores[72 + g.val]? = some d)
    (hrun : d.isHalted = false) (hret : n.val ∉ x.retired) (hheld : c.held = false)
    (hwas : n.val ∈ x.eclipsed ∨ (x.spare = some n.val ∧ x.eclipse = none)) (pass : Bool) :
    exec (.coreSelfTestComplete g n pass) s = .next (
      if pass then
        ((s.tested g.val n.val).onGeode g.val
          (fun y => { y with spare := if y.spare.isNone then some n.val else y.spare })).resumeSolves g.val
      else
        ((s.tested g.val n.val).onGeode g.val (fun y =>
          { y with retired := y.retired ++ [n.val], spare := if y.spare = some n.val then none else y.spare })).log
          { kind := 0x0F, geode := byteOf g.val, unit := byteOf n.val, a := 0 }) := by
  have hexec : exec (.coreSelfTestComplete g n pass) s = execCoreSelfTestComplete g n pass s := rfl
  have hw : (x.eclipsed.contains n.val || (x.spare == some n.val && x.eclipse.isNone)) = true := by
    rcases hwas with h | ⟨h1, h2⟩
    · simp [List.contains_eq_mem, h]
    · simp [h1, h2]
  have hr : x.retired.contains n.val = false := by simpa [List.contains_eq_mem] using hret
  simp only [hexec, execCoreSelfTestComplete, geode_get hx, core_get hc, hr, hw, hheld, supWaits_of_running hd hrun]
  rfl

/-- A core that passes becomes the spare where there is none (R42, R464 step 6). -/
theorem coreSelfTestComplete_pass {s : State} {g : Fin 8} {n : Fin 9} {x : Geode} {c d : Core}
    (hx : s.geodes[g.val]? = some x) (hc : s.cores[coreIdx (.sig g n)]? = some c) (hd : s.cores[72 + g.val]? = some d)
    (hrun : d.isHalted = false) (hret : n.val ∉ x.retired) (hheld : c.held = false)
    (hwas : n.val ∈ x.eclipsed ∨ (x.spare = some n.val ∧ x.eclipse = none)) :
    ∃ (u : State) (y : Geode), exec (.coreSelfTestComplete g n true) s = .next u ∧ u.geodes[g.val]? = some y ∧
      n.val ∉ y.eclipsed ∧ y.spare = (if x.spare.isNone then some n.val else x.spare) ∧ y.retired = x.retired := by
  obtain ⟨y, hy, hdy⟩ := State.tested_duty hx n.val
  simp only [Geode.duty, Prod.mk.injEq] at hdy
  obtain ⟨-, hspare, -, -, -, -, hecl, hretd⟩ := hdy
  refine ⟨_, { y with spare := if y.spare.isNone then some n.val else y.spare },
    execCoreSelfTestComplete_next hx hc hd hrun hret hheld hwas true, ?_, ?_, ?_, hretd⟩
  · rw [if_pos rfl, State.resumeSolves_geodes, State.onGeode_geodes, modAt_get_self, hy]
    rfl
  · simp [hecl]
  · simp only [hspare]

/-- A core that fails is retired, the spare too (R465). -/
theorem coreSelfTestComplete_fail {s : State} {g : Fin 8} {n : Fin 9} {x : Geode} {c d : Core}
    (hx : s.geodes[g.val]? = some x) (hc : s.cores[coreIdx (.sig g n)]? = some c) (hd : s.cores[72 + g.val]? = some d)
    (hrun : d.isHalted = false) (hret : n.val ∉ x.retired) (hheld : c.held = false)
    (hwas : n.val ∈ x.eclipsed ∨ (x.spare = some n.val ∧ x.eclipse = none)) :
    ∃ (u : State) (y : Geode), exec (.coreSelfTestComplete g n false) s = .next u ∧ u.geodes[g.val]? = some y ∧
      n.val ∉ y.eclipsed ∧ y.retired = x.retired ++ [n.val] ∧
      y.spare = (if x.spare = some n.val then none else x.spare) := by
  obtain ⟨y, hy, hdy⟩ := State.tested_duty hx n.val
  simp only [Geode.duty, Prod.mk.injEq] at hdy
  obtain ⟨-, hspare, -, -, -, -, hecl, hretd⟩ := hdy
  refine ⟨_, { y with retired := y.retired ++ [n.val], spare := if y.spare = some n.val then none else y.spare },
    execCoreSelfTestComplete_next hx hc hd hrun hret hheld hwas false, ?_, ?_, ?_, ?_⟩
  · rw [if_neg (by decide), State.log_geodes, State.onGeode_geodes, modAt_get_self, hy]
    rfl
  · simp [hecl]
  · simp only [hretd]
  · simp only [hspare]

/-- Settles O33: an eclipse is noted (stop, log, counts, report) and the slot cared for (prepared, given, lost); the other
events have their equation. -/
theorem mailboxesAndFailedCores : Obligations.MailboxesAndFailedCores := by
  unfold Obligations.MailboxesAndFailedCores
  intro s g n m rep x c d h j hx hc hd hh
  refine ⟨execHubMailboxMessage_next, rfl, fun hrun hj => ⟨?_, ?_, ?_⟩, fun hrun hret hheld hwas => ⟨?_, ?_⟩⟩
  · exact fun hs hdue => watchdogMiss_eclipses hx hc hd hh hrun hj hs hdue
  · exact fun ha hr => coreAttention_eclipses hx hc hd hh hrun hj ha (replaced_of_duty hr)
  · exact fun e sp b he hsp _ hcop hb => spareImageCopyComplete_copies hx hd hrun hj he hsp hcop hb
  · exact coreSelfTestComplete_pass hx hc hd hrun hret hheld hwas
  · exact coreSelfTestComplete_fail hx hc hd hrun hret hheld hwas

end Sys2Proof.Machine
end

section
/-! PROOFS. The rings' registers, the fetch of packets and the interrupts (R426–R429, R433): what a write of a ring register
leaves, and what a message, an entry and a full ring change of a function. -/

namespace Sys2Proof.Machine
open Sys2Proof Sys2Proof.Laws

/-! ### Ring registers -/

theorem onFn_same {s : State} {n : Nat} {x : Fn} {f : Fn → Fn} (hx : s.fns[n]? = some x) (h : f x = x) : s.onFn n f = s := by
  have hm : modAt s.fns n f = s.fns := modAt_same _ _ _ (fun y hy => by rw [hx] at hy; cases hy; exact h)
  rw [State.onFn, hm]

/-- What a change of one function leaves of it, it leaves of every function. -/
theorem fn_onFn_of {α : Type} {p : Fn → α} {f : Fn → Fn} (h : ∀ x, p (f x) = p x) (s : State) (n k : Nat) :
    p ((s.onFn n f).fn k) = p (s.fn k) := by
  by_cases e : n = k
  · subst e
    cases hx : s.fns[n]? with
    | none => simp [State.fn, State.onFn, List.getD, hx]
    | some x => rw [fn_onFn f hx, fn_get hx, h]
  · exact congrArg p (getD_modAt_ne _ _ _ _ _ e)

@[simp] theorem State.hubLine_fns (s : State) (n : Nat) : (s.hubLine n).fns = s.fns := by
  unfold State.hubLine
  split <;> rfl

/-- A ring with nothing that waits, and that does not show RRFULL, stays as it is when space may have come (R436). -/
theorem State.tryFlush_idle {s : State} {f : Nat} {x : Fn} (hx : s.fns[f]? = some x) (hq : x.waitq = []) (hr : x.rrfull = false) :
    s.tryFlush f = s := by
  have hsame : s.onFn f (fun x => { x with rrfull := false }) = s := onFn_same hx (by cases x; cases hr; rfl)
  unfold State.tryFlush
  split
  · simp only [fn_get hx, hq, State.flushRing]
    split
    · rfl
    · exact hsame
  · rfl

theorem fnOn_of_le {s : State} {f : Nat} (h : f ≤ s.link.vfs) : s.fnOn f = true := decide_eq_true h

theorem ofNat_mod24 (v : U32) : BitVec.ofNat 24 (v.toNat % 2 ^ 24) = v.truncate 24 := by
  apply BitVec.eq_of_toNat_eq
  simp

/-- CRTAIL_DOORBELL at an entry of the ring (R428). -/
theorem execCrtailDoorbell_entry {s : State} {f : Fin 8} {x : Fn} {v : U32} (hx : s.fns[f.val]? = some x)
    (hon : f.val ≤ s.link.vfs) (h16 : v.toNat % 2 ^ 24 % 16 = 0) (hin : v.toNat % 2 ^ 24 < 2 ^ x.crlog2.toNat) :
    exec (.crtailDoorbell f v) s =
      .next ((s.onFn f.val (fun y => { y with crtail := v.truncate 24 })).hubLine (41 + f.val)) := by
  show execCrtailDoorbell f v s = _
  rw [execCrtailDoorbell, if_pos (fnOn_of_le hon)]
  simp only [State.writeCrtail, fn_get hx, ringSize, h16, Nat.not_le.mpr hin, ofNat_mod24]
  rfl

theorem execCrtailDoorbell_bad {s : State} {f : Fin 8} {x : Fn} {v : U32} (hx : s.fns[f.val]? = some x)
    (hon : f.val ≤ s.link.vfs) (hbad : v.toNat % 2 ^ 24 % 16 ≠ 0 ∨ 2 ^ x.crlog2.toNat ≤ v.toNat % 2 ^ 24) :
    exec (.crtailDoorbell f v) s = .next (s.onFn f.val (fun y => { y with cfgerr := true })) := by
  show execCrtailDoorbell f v s = _
  rw [execCrtailDoorbell, if_pos (fnOn_of_le hon)]
  simp only [State.writeCrtail, fn_get hx, ringSize]
  rw [if_pos hbad]
  rfl

/-- RRHEAD_DOORBELL at an entry of the ring, where nothing waits for the space (R428, R436). -/
theorem execRrheadDoorbell_entry {s : State} {f : Fin 8} {x : Fn} {v : U32} (hx : s.fns[f.val]? = some x)
    (hon : f.val ≤ s.link.vfs) (h16 : v.toNat % 2 ^ 24 % 16 = 0) (hin : v.toNat % 2 ^ 24 < 2 ^ x.rrlog2.toNat)
    (hq : x.waitq = []) (hr : x.rrfull = false) :
    exec (.rrheadDoorbell f v) s =
      .next ((s.onFn f.val (fun y => { y with rrhead := v.truncate 24 })).hubLine (41 + f.val)) := by
  have hy : ((s.onFn f.val (fun y => { y with rrhead := v.truncate 24 })).hubLine (41 + f.val)).fns[f.val]? =
      some { x with rrhead := v.truncate 24 } := by
    rw [State.hubLine_fns, State.onFn_fns, modAt_get_self, hx]; rfl
  show execRrheadDoorbell f v s = _
  rw [execRrheadDoorbell, if_pos (fnOn_of_le hon)]
  simp only [State.writeRrhead, fn_get hx, ringSize, h16, Nat.not_le.mpr hin, ofNat_mod24, ne_eq, not_true, or_self, if_false]
  rw [State.tryFlush_idle hy hq hr]

theorem execRrheadDoorbell_bad {s : State} {f : Fin 8} {x : Fn} {v : U32} (hx : s.fns[f.val]? = some x)
    (hon : f.val ≤ s.link.vfs) (hbad : v.toNat % 2 ^ 24 % 16 ≠ 0 ∨ 2 ^ x.rrlog2.toNat ≤ v.toNat % 2 ^ 24) :
    exec (.rrheadDoorbell f v) s = .next (s.onFn f.val (fun y => { y with cfgerr := true })) := by
  show execRrheadDoorbell f v s = _
  rw [execRrheadDoorbell, if_pos (fnOn_of_le hon)]
  simp only [State.writeRrhead, fn_get hx, ringSize]
  rw [if_pos hbad]
  rfl

/-- CREN as it stands, and as it changes (R428). -/
theorem execCren_next {s : State} {f : Fin 8} {x : Fn} (hx : s.fns[f.val]? = some x) (hon : f.val ≤ s.link.vfs) (on : Bool) :
    exec (.cren f on) s = .next (if x.cren == on then s
      else if on then s.onFn f.val (fun y => { y with cren := true, crhead := 0, crtail := 0, crstop := false })
      else s.onFn f.val (fun y => { y with cren := false })) := by
  show execCren f on s = _
  rw [execCren, if_pos (fnOn_of_le hon), State.setCren, fn_get hx]

/-- RREN goes on, where nothing waits (R428). -/
theorem execRren_on {s : State} {f : Fin 8} {x : Fn} (hx : s.fns[f.val]? = some x) (hon : f.val ≤ s.link.vfs)
    (hoff : x.rren = false) (hq : x.waitq = []) (hr : x.rrfull = false) :
    exec (.rren f true) s = .next (((s.dropPosts f.val).onFn f.val (fun y =>
      { y with rren := true, rrhead := 0, rrtail := 0 })).emit (.terminator f.val 0)) := by
  have hy : (((s.dropPosts f.val).onFn f.val (fun y =>
      { y with rren := true, rrhead := 0, rrtail := 0 })).emit (.terminator f.val 0)).fns[f.val]? =
      some { x with rren := true, rrhead := 0, rrtail := 0 } := by
    rw [State.emit_fns, State.onFn_fns, modAt_get_self, show (s.dropPosts f.val).fns = s.fns from rfl, hx]; rfl
  show execRren f true s = _
  rw [execRren, if_pos (fnOn_of_le hon), State.setRren, fn_get hx, hoff]
  exact congrArg _ (State.tryFlush_idle hy hq hr)

theorem execRren_off {s : State} {f : Fin 8} {x : Fn} (hx : s.fns[f.val]? = some x) (hon : f.val ≤ s.link.vfs)
    (h : x.rren = true) :
    exec (.rren f false) s = .next ((s.dropPosts f.val).onFn f.val (fun y => { y with rren := false })) := by
  show execRren f false s = _
  rw [execRren, if_pos (fnOn_of_le hon), State.setRren, fn_get hx, h]
  rfl

/-! ### Messages -/

/-- A vector that is not masked sends its message (R429). -/
theorem State.sendMsix_unmasked {s : State} {f : Nat} {x : Fn} {v : Nat} (hx : s.fns[f]? = some x) (hd : x.d3 = false)
    (hm : bitOf (msixWord x (4 * v + 3)) 0 = false) : s.sendMsix f v = s.emit (.msix f v) := by
  rw [State.sendMsix, fn_get hx, hd, hm]
  rfl

/-- IRQ_MODERATION_TIMEOUT of a vector that is not masked, with records to signal (R429). -/
theorem execIrqModerationTimeout_sends {s : State} {f : Fin 8} {k : Fin 64} {x : Fn} (hx : s.fns[f.val]? = some x)
    (ht : x.irqTime ≠ 0) (hu : unsigOf x k.val ≠ 0) (hd : x.d3 = false)
    (hm : bitOf (msixWord x (4 * k.val + 3)) 0 = false) :
    exec (.irqModerationTimeout f k) s = .next ((s.onFn f.val (fun y =>
      { y with unsig := y.unsig.filter (fun p => p.1 != k.val) })).emit (.msix f.val k.val)) := by
  have hy : (s.onFn f.val (fun y => { y with unsig := y.unsig.filter (fun p => p.1 != k.val) })).fns[f.val]? =
      some { x with unsig := x.unsig.filter (fun p => p.1 != k.val) } := by
    rw [State.onFn_fns, modAt_get_self, hx]; rfl
  show execIrqModerationTimeout f k s = _
  rw [execIrqModerationTimeout, fn_get hx, if_neg (by simpa [hu] using ht), State.sendMsix_unmasked hy hd hm]

/-- What messages, entries and records never take back of a function: its flags of records, a stopped fetch, CRHEAD. -/
structure FnStep (x y : Fn) : Prop where
  gap : x.gap = true → y.gap = true
  late : x.late = true → y.late = true
  crstop : x.crstop = true → y.crstop = true
  crhead : y.crhead = x.crhead

theorem FnStep.refl (x : Fn) : FnStep x x := ⟨id, id, id, rfl⟩

theorem FnStep.trans {x y z : Fn} (h : FnStep x y) (k : FnStep y z) : FnStep x z :=
  ⟨k.gap ∘ h.gap, k.late ∘ h.late, k.crstop ∘ h.crstop, k.crhead.trans h.crhead⟩

/-- What reaches the host from `s` to `u` and what it sets in the functions: the link, and the free values drawn, stay; what
has left has left. -/
structure HostStep (s u : State) : Prop where
  link : u.link = s.link
  free : u.free = s.free
  size : u.fns.length = s.fns.length
  fns : ∀ k, FnStep (s.fn k) (u.fn k)
  out : ∀ o ∈ s.out, o ∈ u.out

theorem HostStep.refl (s : State) : HostStep s s := ⟨rfl, rfl, rfl, fun _ => .refl _, fun _ h => h⟩

theorem HostStep.trans {s t u : State} (h : HostStep s t) (k : HostStep t u) : HostStep s u :=
  ⟨k.link.trans h.link, k.free.trans h.free, k.size.trans h.size, fun n => (h.fns n).trans (k.fns n),
    fun o ho => k.out o (h.out o ho)⟩

theorem HostStep.onFn (s : State) (n : Nat) {f : Fn → Fn} (h : ∀ x, FnStep x (f x)) : HostStep s (s.onFn n f) := by
  refine ⟨rfl, rfl, by simp [State.onFn], fun k => ?_, fun _ ho => ho⟩
  by_cases e : n = k
  · subst e
    cases hx : s.fns[n]? with
    | none =>
      rw [show (s.onFn n f).fn n = s.fn n by simp [State.fn, State.onFn, List.getD, hx]]
      exact .refl _
    | some x => rw [fn_onFn f hx, fn_get hx]; exact h x
  · rw [show (s.onFn n f).fn k = s.fn k from getD_modAt_ne _ _ _ _ _ e]
    exact .refl _

theorem HostStep.after_onFn {s u : State} {n : Nat} {f : Fn → Fn} (k : HostStep (s.onFn n f) u)
    (h : ∀ x, FnStep x (f x)) : HostStep s u := (HostStep.onFn s n h).trans k

theorem HostStep.emit (s : State) (o : Out) : HostStep s (s.emit o) :=
  ⟨rfl, rfl, rfl, fun _ => .refl _, fun _ h => List.mem_cons_of_mem _ h⟩

theorem HostStep.onHub (s : State) (f : Hub → Hub) : HostStep s (s.onHub f) :=
  ⟨rfl, rfl, rfl, fun _ => .refl _, fun _ h => h⟩

theorem HostStep.foldl {α : Type} {f : State → α → State} (h : ∀ t a, HostStep t (f t a)) (l : List α) (s : State) :
    HostStep s (l.foldl f s) := by
  induction l generalizing s with
  | nil => exact .refl s
  | cons a l ih => exact (h s a).trans (ih (f s a))

theorem State.sendMsix_host (s : State) (f v : Nat) : HostStep s (s.sendMsix f v) := by
  unfold State.sendMsix
  extract_lets x w
  split
  · exact .refl s
  · split
    · exact .onFn s f (fun _ => ⟨id, id, id, rfl⟩)
    · exact .emit s _

theorem State.notify_host (s : State) (f : Nat) : HostStep s (s.notify f) := s.sendMsix_host f 1

theorem State.signalEntry_host (s : State) (f v : Nat) : HostStep s (s.signalEntry f v) := by
  unfold State.signalEntry
  extract_lets n rest
  split
  · exact (State.sendMsix_host _ f v).after_onFn (fun _ => ⟨id, id, id, rfl⟩)
  · exact .onFn s f (fun _ => ⟨id, id, id, rfl⟩)

/-- A written entry has left (R434). -/
theorem State.writeEntry_host (s : State) (f : Nat) (e : Entry) :
    HostStep s (s.writeEntry f e) ∧ ∃ a, Out.entry f a e (crcField e.payload) ∈ (s.writeEntry f e).out := by
  unfold State.writeEntry
  extract_lets x z len padded at_ next s1 s2
  have h1 : HostStep s s1 := by
    simp only [s1]
    split
    · exact (HostStep.emit s _).trans (.emit _ _)
    · exact .refl s
  have h2 : HostStep s s2 := h1.trans ((HostStep.emit s1 _).trans (.emit _ _))
  have h3 : HostStep s2 ((s2.onFn f (fun y => { y with rrtail := BitVec.ofNat 24 next })).signalEntry f e.vec.toNat) :=
    (State.signalEntry_host _ f _).after_onFn (fun _ => ⟨id, id, id, rfl⟩)
  exact ⟨h2.trans h3, at_, h3.out _ (List.mem_cons_self ..)⟩

theorem State.flushRing_host (s : State) (f n : Nat) : HostStep s (s.flushRing f n) := by
  induction n generalizing s with
  | zero => exact .refl s
  | succ n ih =>
    unfold State.flushRing
    split
    · exact .refl s
    · split
      · exact .onFn s f (fun _ => ⟨id, id, id, rfl⟩)
      · split
        · exact (s.writeEntry_host f _).1.trans ((ih _).after_onFn (fun _ => ⟨id, id, id, rfl⟩))
        · split
          · exact (State.notify_host _ f).after_onFn (fun _ => ⟨id, id, id, rfl⟩)
          · exact .refl s

theorem State.postEntry_host (s : State) (f : Nat) (e : Entry) : HostStep s (s.postEntry f e) :=
  (State.flushRing_host _ f _).after_onFn (fun _ => ⟨id, id, id, rfl⟩)

theorem State.log_host (s : State) (r : LogReq) : HostStep s (s.log r) := by
  unfold State.log
  split
  · exact .refl s
  · split <;> exact .onHub s _

theorem HostStep.fn_get {s u : State} (h : HostStep s u) {n : Nat} {x : Fn} (hx : s.fns[n]? = some x) :
    u.fns[n]? = some (u.fn n) := by
  have hl : n < u.fns.length := h.size ▸ (List.getElem?_eq_some_iff.mp hx).1
  simp [State.fn, List.getD, List.getElem?_eq_getElem hl]

/-! ### Fetches -/

/-- A failed read of the command ring stops its fetch (R433). -/
theorem execCommandFetch_failed {s : State} {f : Fin 8} {x : Fn} (hx : s.fns[f.val]? = some x)
    (ht : s.fetchTurn = some f.val) (k : BitVec 4) :
    ∃ u y, exec (.commandFetch f (.failed k)) s = .next u ∧ u.fns[f.val]? = some y ∧ y.crstop = true ∧
      y.crhead = x.crhead := by
  have hexec : exec (.commandFetch f (.failed k)) s = execCommandFetch f (.failed k) s := rfl
  have hs : HostStep (s.onFn f.val (fun x => { x with crstop := true })) (s.fetchFailed f.val k) :=
    ((State.notify_host _ f.val).trans (State.log_host _ _)).trans (State.postEntry_host _ f.val _)
  have hy : (s.onFn f.val (fun x => { x with crstop := true })).fns[f.val]? = some { x with crstop := true } := by
    rw [State.onFn_fns, modAt_get_self, hx]; rfl
  have hf := hs.fns f.val
  rw [fn_get hy] at hf
  refine ⟨_, _, ?_, hs.fn_get hy, hf.crstop rfl, hf.crhead⟩
  rw [hexec, execCommandFetch, ht, if_neg (by simp)]

/-- A whole packet that fails no check is kept (R433, R440). -/
theorem execCommandFetch_packet {s : State} {f : Fin 8} {x : Fn} {bs : List Byte} (hx : s.fns[f.val]? = some x)
    (ht : s.fetchTurn = some f.val) (h16 : 16 ≤ bs.length) (hst : packetStatus x (admissible s.link) bs = 0)
    (hw : 16 + (leAt bs 8 4 + 15) / 16 * 16 ≤ bs.length)
    (ha : 16 + (leAt bs 8 4 + 15) / 16 * 16 ≤
      (x.crtail.toNat + 2 ^ x.crlog2.toNat - x.crhead.toNat) % 2 ^ x.crlog2.toNat) :
    ∃ u y, exec (.commandFetch f (.ok bs)) s = .next u ∧ u.fns[f.val]? = some y ∧ u.hub.rrFn = (f.val + 1) % 8 ∧
      y.crhead = BitVec.ofNat 24 ((x.crhead.toNat + (16 + (leAt bs 8 4 + 15) / 16 * 16)) % 2 ^ x.crlog2.toNat) ∧
      y.fetched = x.fetched ++ [⟨BitVec.ofNat 16 (leAt bs 0 2), x.crhead.toNat, hdrOf f bs,
        (bs.drop 16).take (leAt bs 8 4)⟩] := by
  have hexec : exec (.commandFetch f (.ok bs)) s = execCommandFetch f (.ok bs) s := rfl
  rw [hexec, execCommandFetch, ht, if_neg (by simp)]
  simp only [State.packet, fn_get hx, hst, ringSize]
  rw [if_neg (by simp [Nat.not_lt.mpr h16, Nat.not_lt.mpr hw, Nat.not_lt.mpr ha]), if_neg (by simp)]
  refine ⟨_, { x with
    crhead := BitVec.ofNat 24 ((x.crhead.toNat + (16 + (leAt bs 8 4 + 15) / 16 * 16)) % 2 ^ x.crlog2.toNat)
    fetched := x.fetched ++ [⟨BitVec.ofNat 16 (leAt bs 0 2), x.crhead.toNat, hdrOf f bs,
      (bs.drop 16).take (leAt bs 8 4)⟩] }, rfl, ?_, rfl, rfl, rfl⟩
  rw [State.onFn_fns, modAt_get_self, State.onFn_fns, modAt_get_self, State.onHub_fns, hx]
  rfl

end Sys2Proof.Machine
end

section
/-! PROOFS. Posting (R52, R345–R347, R435–R439): a TLP of a record, what drawing a payload's words leaves, and what the end of
each kind of record sets in its job and its function. -/

namespace Sys2Proof.Machine
open Sys2Proof Sys2Proof.Laws

/-! ### What messages and entries leave of the hub -/

@[simp] theorem State.sendMsix_hub (s : State) (f v : Nat) : (s.sendMsix f v).hub = s.hub := by
  unfold State.sendMsix
  extract_lets x w
  split
  · rfl
  · split <;> rfl

@[simp] theorem State.notify_hub (s : State) (f : Nat) : (s.notify f).hub = s.hub := s.sendMsix_hub f 1

@[simp] theorem State.signalEntry_hub (s : State) (f v : Nat) : (s.signalEntry f v).hub = s.hub := by
  unfold State.signalEntry
  extract_lets n rest
  split
  · rw [State.sendMsix_hub]; rfl
  · rfl

@[simp] theorem State.writeEntry_hub (s : State) (f : Nat) (e : Entry) : (s.writeEntry f e).hub = s.hub := by
  unfold State.writeEntry
  extract_lets x z len padded at_ next s1 s2
  have h1 : s1.hub = s.hub := by simp only [s1]; split <;> rfl
  rw [State.signalEntry_hub]
  exact h1

@[simp] theorem State.flushRing_hub (s : State) (f n : Nat) : (s.flushRing f n).hub = s.hub := by
  induction n generalizing s with
  | zero => rfl
  | succ n ih =>
    unfold State.flushRing
    split
    · rfl
    · split
      · rfl
      · split
        · rw [ih]; exact s.writeEntry_hub f _
        · split
          · rw [State.notify_hub]; rfl
          · rfl

@[simp] theorem State.setGap_hub (s : State) (f : Nat) : (s.setGap f).hub = s.hub := by
  unfold State.setGap
  split
  · rfl
  · rw [State.notify_hub]; rfl

@[simp] theorem State.setLate_hub (s : State) (f : Nat) : (s.setLate f).hub = s.hub := by
  unfold State.setLate
  split
  · rfl
  · rw [State.notify_hub]; rfl

theorem State.setGap_host (s : State) (f : Nat) : HostStep s (s.setGap f) := by
  unfold State.setGap
  split
  · exact .refl s
  · exact (State.notify_host _ f).after_onFn (fun _ => ⟨fun _ => rfl, id, id, rfl⟩)

theorem State.setLate_host (s : State) (f : Nat) : HostStep s (s.setLate f) := by
  unfold State.setLate
  split
  · exact .refl s
  · exact (State.notify_host _ f).after_onFn (fun _ => ⟨id, fun _ => rfl, id, rfl⟩)

theorem fn_onFn_lt {s : State} {n : Nat} (f : Fn → Fn) (h : n < s.fns.length) : (s.onFn n f).fn n = f (s.fn n) := by
  rw [fn_onFn f (List.getElem?_eq_getElem h), fn_get (List.getElem?_eq_getElem h)]

/-- GAP and LATE show (R426). -/
theorem State.setGap_gap (s : State) {f : Nat} (h : f < s.fns.length) : ((s.setGap f).fn f).gap = true := by
  unfold State.setGap
  split
  · assumption
  · exact ((State.notify_host _ f).fns f).gap (by rw [fn_onFn_lt _ h])

theorem State.setLate_late (s : State) {f : Nat} (h : f < s.fns.length) : ((s.setLate f).fn f).late = true := by
  unfold State.setLate
  split
  · assumption
  · exact ((State.notify_host _ f).fns f).late (by rw [fn_onFn_lt _ h])

/-- A message leaves RRFULL. -/
theorem State.notify_rrfull (s : State) (f k : Nat) : ((s.notify f).fn k).rrfull = (s.fn k).rrfull := by
  unfold State.notify State.sendMsix
  extract_lets x w
  split
  · rfl
  · split
    · refine fn_onFn_of (p := Fn.rrfull) ?_ s f k
      exact fun _ => rfl
    · rfl

/-! ### A job that is changed -/

theorem jobOf_onJob (s : State) (id : U16) {f : Job → Job} (h : ∀ j, (f j).id = j.id) :
    (s.onJob id f).jobOf id = (s.jobOf id).map f := by
  have hp : (fun j : Job => j.id == id) ∘ (fun j => if j.id == id then f j else j) = fun j => j.id == id := by
    funext j
    simp only [Function.comp]
    split <;> simp [h]
  rw [State.jobOf, State.onJob, State.onHub_hub, List.find?_map, hp]
  cases hj : s.hub.jobs.find? (fun j => j.id == id) with
  | none => simp [State.jobOf, hj]
  | some j => simp [State.jobOf, hj, show j.id = id by simpa using List.find?_some hj]

theorem jobOf_congr {s t : State} (h : t.hub = s.hub) (id : U16) : t.jobOf id = s.jobOf id := by
  rw [State.jobOf, h]; rfl

@[simp] theorem State.log_jobOf (s : State) (r : LogReq) (id : U16) : (s.log r).jobOf id = s.jobOf id := by
  obtain ⟨_, _, h⟩ := s.log_frame r; rw [h]; rfl

theorem State.noteLate_host (s : State) (j : Job) (f : U32) : HostStep s (s.noteLate j f) := by
  unfold State.noteLate
  split
  · exact .refl s
  · exact (HostStep.onHub s _).trans (State.log_host _ _)

/-- The account of a late frame changes what a job has late alone (R347). -/
theorem State.noteLate_jobOf {α : Type} {p : Job → α} (hp : ∀ y n l, p { y with late := n, lateDue := l } = p y) (s : State)
    (j : Job) (f : U32) : ((s.noteLate j f).jobOf j.id).map p = (s.jobOf j.id).map p := by
  unfold State.noteLate
  split
  · rfl
  · rw [State.log_jobOf, jobOf_onJob, Option.map_map]
    · exact congrArg (fun g => Option.map g _) (funext fun y => hp y _ _)
    · exact fun _ => rfl

/-- What a posted frame makes of a job (R347, R443). -/
def framePut (f : U32) (y : Job) : Job :=
  { y with frames := y.frames.filter (fun x => x.num != f), marks := y.marks.filter (fun m => m.frame != f)
           posted := y.posted + 1, lastPost := some f }

theorem State.framePosted_host (s : State) (j : Job) (f : U32) : HostStep s (s.framePosted j f) :=
  (HostStep.onHub s _).trans (State.noteLate_host _ j f)

theorem State.framePosted_jobOf {α : Type} {p : Job → α} (hp : ∀ y n l, p { y with late := n, lateDue := l } = p y)
    (s : State) (j : Job) (f : U32) :
    ((s.framePosted j f).jobOf j.id).map p = (s.jobOf j.id).map (fun y => p (framePut f y)) := by
  refine (State.noteLate_jobOf hp _ j f).trans ?_
  rw [jobOf_onJob, Option.map_map]
  · rfl
  · exact fun _ => rfl

theorem State.resultDone_host (s : State) (j : Job) (f : Frame) : HostStep s (s.resultDone j f) := by
  unfold State.resultDone
  extract_lets rest s1
  split
  · exact (HostStep.onHub s _).trans (State.framePosted_host s1 j f.num)
  · exact .onHub s _

/-! ### The end of a record -/

theorem State.recordDone_host (s : State) (j : Job) (kind : Nat) (it : PostItem) : HostStep s (s.recordDone j kind it) := by
  cases it with
  | late a k => rw [State.recordDone]; exact (s.setLate_host j.fn).trans (.onHub _ _)
  | input g => rw [State.recordDone]; exact .onHub s _
  | gap a k =>
    refine ((s.setGap_host j.fn).trans (.onHub _ _)).trans (.foldl (fun t b => ?_) _ _)
    exact (HostStep.onHub t _).trans (State.noteLate_host _ j b)
  | frame f =>
    simp only [State.recordDone]
    split
    · exact (s.setGap_host j.fn).trans (State.resultDone_host _ j f)
    · exact s.resultDone_host j f
  | ended => rw [State.recordDone]; exact .onHub s _

/-- A delivery-late record goes from those due, and LATE shows (R347). -/
theorem State.recordDone_late (s : State) (j : Job) (kind : Nat) (a : U32) (k : Nat) :
    ((s.recordDone j kind (.late a k)).jobOf j.id).map (fun y => y.lateDue) =
      (s.jobOf j.id).map (fun y => y.lateDue.drop 1) := by
  rw [State.recordDone, jobOf_onJob, jobOf_congr (s.setLate_hub j.fn), Option.map_map]
  · rfl
  · exact fun _ => rfl

theorem State.recordDone_late_flag (s : State) {j : Job} (kind : Nat) (a : U32) (k : Nat) (h : j.fn < s.fns.length) :
    ((s.recordDone j kind (.late a k)).fn j.fn).late = true := s.setLate_late h

/-- An input gap record goes from those to post. -/
theorem State.recordDone_input (s : State) (j : Job) (kind : Nat) (g : InputGap) :
    ((s.recordDone j kind (.input g)).jobOf j.id).map (fun y => y.inputGaps) =
      (s.jobOf j.id).map (fun y => y.inputGaps.erase g) := by
  rw [State.recordDone, jobOf_onJob, Option.map_map]
  · rfl
  · exact fun _ => rfl

/-- A gap record goes from the ranges to post (R346). -/
theorem State.recordDone_gap (s : State) (j : Job) (kind : Nat) (a : U32) (n : Nat) :
    ((s.recordDone j kind (.gap a n)).jobOf j.id).map (fun y => y.gaps) =
      (s.jobOf j.id).map (fun y => dropGap y.k n y.gaps) := by
  have step : ∀ (t : State) (b : U32), ((State.noteLate
      (t.onJob j.id (fun y => { y with marks := y.marks.filter (fun m => m.frame != b) })) j b).jobOf j.id).map
        (fun y => y.gaps) = (t.jobOf j.id).map (fun y => y.gaps) := fun t b => by
    rw [State.noteLate_jobOf (p := fun y => y.gaps) (fun _ _ _ => rfl), jobOf_onJob, Option.map_map]
    · rfl
    · exact fun _ => rfl
  have fold : ∀ (l : List U32) (t : State), ((l.foldl (fun t b => State.noteLate
      (t.onJob j.id (fun y => { y with marks := y.marks.filter (fun m => m.frame != b) })) j b) t).jobOf j.id).map
        (fun y => y.gaps) = (t.jobOf j.id).map (fun y => y.gaps) := fun l => by
    induction l with
    | nil => exact fun _ => rfl
    | cons b l ih => exact fun t => (ih _).trans (step t b)
  refine (fold _ _).trans ?_
  rw [jobOf_onJob, jobOf_congr (s.setGap_hub j.fn), Option.map_map]
  · rfl
  · exact fun _ => rfl

theorem State.recordDone_gap_flag (s : State) {j : Job} (kind : Nat) (a : U32) (n : Nat) (h : j.fn < s.fns.length) :
    ((s.recordDone j kind (.gap a n)).fn j.fn).gap = true := by
  have hs : HostStep (s.setGap j.fn) (s.recordDone j kind (.gap a n)) := by
    refine (HostStep.onHub _ _).trans (.foldl (fun t b => ?_) _ _)
    exact (HostStep.onHub t _).trans (State.noteLate_host _ j b)
  exact (hs.fns j.fn).gap (s.setGap_gap h)

/-- A result record that gives way to a gap record shows GAP (R439). -/
theorem State.recordDone_small_flag (s : State) {j : Job} (f : Frame) (h : j.fn < s.fns.length) :
    ((s.recordDone j 0xF0 (.frame f)).fn j.fn).gap = true :=
  ((State.resultDone_host (s.setGap j.fn) j f).fns j.fn).gap (s.setGap_gap h)

/-- The last result record of a frame posts it (R347). -/
theorem State.recordDone_last (s : State) (j : Job) (kind : Nat) (f : Frame) (h : afterFirst f.left = []) :
    ((s.recordDone j kind (.frame f)).jobOf j.id).map (fun y => y.posted) = (s.jobOf j.id).map (fun y => y.posted + 1) := by
  have hr : ∀ t : State, ((t.resultDone j f).jobOf j.id).map (fun y => y.posted) =
      (t.jobOf j.id).map (fun y => y.posted + 1) := fun t => by
    simp only [State.resultDone, h, List.isEmpty_nil, if_true]
    rw [State.framePosted_jobOf (p := fun y => y.posted) (fun _ _ _ => rfl), jobOf_onJob, Option.map_map]
    · rfl
    · exact fun _ => rfl
  simp only [State.recordDone]
  split
  · rw [hr, jobOf_congr (s.setGap_hub j.fn)]
  · exact hr s

/-- The job-ended record is the last of its job (R345). -/
theorem State.recordDone_ended (s : State) (j : Job) (kind : Nat) : (s.recordDone j kind .ended).jobOf j.id = none := by
  simp [State.recordDone, State.jobOf]

/-! ### Drawing a payload -/

/-- Marks of the jobs of a hub, and its memory's errors and their log, may change while a payload is drawn (R271, R310); free
values are used. -/
structure Drawn (s t : State) : Prop where
  link : t.link = s.link
  aon : t.aon = s.aon
  fns : t.fns = s.fns
  turn : t.hub.postTurn = s.hub.postTurn
  jobs : ∃ φ : Job → List FrameMark, t.hub.jobs = s.hub.jobs.map (fun j => { j with marks := φ j })

theorem Drawn.refl (s : State) : Drawn s s := ⟨rfl, rfl, rfl, rfl, Job.marks, by simp⟩

theorem Drawn.trans {s t u : State} (h : Drawn s t) (k : Drawn t u) : Drawn s u := by
  obtain ⟨φ, hφ⟩ := h.jobs
  obtain ⟨ψ, hψ⟩ := k.jobs
  exact ⟨k.link.trans h.link, k.aon.trans h.aon, k.fns.trans h.fns, k.turn.trans h.turn,
    fun j => ψ { j with marks := φ j }, by rw [hψ, hφ, List.map_map]; rfl⟩

theorem Drawn.of_hub {s t : State} (hl : t.link = s.link) (ha : t.aon = s.aon) (hf : t.fns = s.fns)
    (ht : t.hub.postTurn = s.hub.postTurn) (hj : t.hub.jobs = s.hub.jobs) : Drawn s t :=
  ⟨hl, ha, hf, ht, Job.marks, by simp [hj]⟩

theorem State.fresh_drawn (s : State) : Drawn s s.fresh.2 := .of_hub rfl rfl rfl rfl rfl

theorem State.freshWords_drawn (s : State) (n : Nat) : Drawn s (s.freshWords n).2 := by
  induction n generalizing s with
  | zero => exact .refl s
  | succ n ih => exact s.fresh_drawn.trans (ih _)

theorem State.log_drawn (s : State) (r : LogReq) : Drawn s (s.log r) := by
  obtain ⟨_, _, h⟩ := s.log_frame r
  rw [h]
  exact .of_hub rfl rfl rfl rfl rfl

/-- The marks of a job once a mark has been added to the job `id`. -/
def marksWith (m : FrameMark) (id : U16) (j : Job) : List FrameMark :=
  if j.id == id && !j.marks.contains m then j.marks ++ [m] else j.marks

theorem State.markFrame_drawn (s : State) (id : U16) (frame : U32) (g : Nat) (b : Option Nat) (bits : Byte) :
    Drawn s (s.markFrame id frame g b bits) := by
  refine ⟨rfl, rfl, rfl, rfl, marksWith ⟨frame, g, b, bits⟩ id, List.map_congr_left (fun j _ => ?_)⟩
  by_cases hid : j.id = id
  · subst hid
    by_cases hm : j.marks.contains ⟨frame, g, b, bits⟩ = true
    · simp only [marksWith, hm, beq_self_eq_true, Bool.not_true, Bool.and_false, Bool.false_eq_true, if_true, if_false]
    · simp only [marksWith, hm, beq_self_eq_true, Bool.not_false, Bool.and_self, Bool.false_eq_true, if_true, if_false]
  · simp only [marksWith, beq_eq_false_iff_ne.mpr hid, Bool.false_and, Bool.false_eq_true, if_false]

/-- A word of hub memory that a DMA beat reads (R271, R310). -/
theorem State.hubReadBy_drawn (s : State) (a : Nat) : Drawn s (s.hubReadBy true a).1 := by
  unfold State.hubReadBy
  extract_lets m v s1 s2
  have h1 : Drawn s s1 := .of_hub rfl rfl rfl rfl rfl
  have h2 : Drawn s s2 := h1.trans (s1.log_drawn _)
  split
  · exact .of_hub rfl rfl rfl rfl rfl
  · split
    · split
      · split
        · exact h2.trans (s2.markFrame_drawn _ _ _ _ _)
        · exact h2
      · exact h2
    · exact .refl s

theorem State.hubReadN_drawn (s : State) (a n : Nat) : Drawn s (s.hubReadN a n).2 := by
  induction n generalizing s a with
  | zero => exact .refl s
  | succ n ih => exact (s.hubReadBy_drawn a).trans (ih _ _)

theorem State.resultPayload_drawn (s : State) (j : Job) (f : Frame) (kind : Nat) :
    Drawn s (s.resultPayload j f kind).2 := by
  unfold State.resultPayload
  extract_lets code rings r0 ring g size r1 at_ r2 n0 n r3 mine bidx w d j1
  have h3 : Drawn s r3.2 :=
    ((s.fresh_drawn.trans (State.fresh_drawn _)).trans (State.fresh_drawn _)).trans (State.fresh_drawn _)
  have hd : Drawn r3.2 d.2 := by
    clear_value ring
    cases ring with
    | some p => exact State.hubReadN_drawn _ _ _
    | none => exact State.freshWords_drawn _ _
  exact h3.trans hd

theorem State.endedBytes_drawn (s : State) (j : Job) : Drawn s (s.endedBytes j).2 := by
  unfold State.endedBytes
  extract_lets known r
  clear_value known
  cases known with
  | some f => exact .refl s
  | none => exact s.freshWords_drawn 4

/-! ### Allowance and turn while a payload is drawn -/

theorem Drawn.jobOf {s t : State} (h : Drawn s t) (id : U16) :
    ∃ φ : Job → List FrameMark, t.jobOf id = (s.jobOf id).map (fun j => { j with marks := φ j }) := by
  obtain ⟨φ, hφ⟩ := h.jobs
  exact ⟨φ, by rw [State.jobOf, hφ, List.find?_map]; rfl⟩

theorem Drawn.allowNow {s t : State} (h : Drawn s t) (j : Job) : t.allowNow j = s.allowNow j := by
  simp only [State.allowNow, h.aon]

theorem Drawn.posting {s t : State} (h : Drawn s t) (j : Job) (l : List FrameMark) :
    t.posting { j with marks := l } = s.posting j := by
  have hn : nextItem { j with marks := l } = nextItem j := rfl
  simp only [State.posting, State.fn, h.fns, hn]

theorem Drawn.turnOf {s t : State} (h : Drawn s t) : t.turnOf = s.turnOf := by
  obtain ⟨φ, hφ⟩ := h.jobs
  have hids : (t.hub.jobs.filter t.posting).map (fun j => j.id.toNat) =
      (s.hub.jobs.filter s.posting).map (fun j => j.id.toNat) := by
    have hpost : t.posting ∘ (fun j => { j with marks := φ j }) = s.posting := funext fun j => h.posting j (φ j)
    rw [hφ, List.filter_map, List.map_map, hpost]
    rfl
  simp only [State.turnOf, hids, h.turn]

theorem Drawn.myTurn {s t : State} (h : Drawn s t) (j : Job) : t.myTurn j = s.myTurn j := by
  obtain ⟨φ, hφ⟩ := h.jobs
  have hk : ∀ k : Job, (k.id == j.id || !t.posting { k with marks := φ k } ||
      decide (t.allowNow { k with marks := φ k } < t.nextTlp { k with marks := φ k } * 2 ^ 56)) =
        (k.id == j.id || !s.posting k || decide (s.allowNow k < s.nextTlp k * 2 ^ 56)) := fun k => by
    have hnext : t.nextTlp { k with marks := φ k } = s.nextTlp k := by
      simp only [State.nextTlp, h.link]
    have hallow : t.allowNow { k with marks := φ k } = s.allowNow k := h.allowNow k
    rw [h.posting, hnext, hallow]
  rw [State.myTurn, State.myTurn, h.turnOf, hφ, List.all_map]
  exact congrArg (fun p => s.turnOf == some j.id && s.hub.jobs.all p) (funext hk)

/-! ### What a job has to post next -/

theorem earliestItem_mem {l : List PostItem} {x : PostItem} (h : earliestItem l = some x) : x ∈ l := by
  induction l generalizing x with
  | nil => cases h
  | cons y l ih =>
    simp only [earliestItem] at h
    split at h
    · split at h
      · split at h
        · cases h; exact List.mem_cons_self ..
        · cases h; exact List.mem_cons_of_mem _ (ih ‹_›)
      · cases h; exact List.mem_cons_self ..
    · cases h; exact List.mem_cons_of_mem _ (ih ‹_›)
    · cases h; exact List.mem_cons_self ..

/-- An item with a frame is the first of its list. -/
theorem nextItem_first {j : Job} {x : PostItem} (h : nextItem j = some x) (hl : ∀ a k, x ≠ .late a k) (he : x ≠ .ended) :
    (∃ g ∈ j.inputGaps.take 1, PostItem.input g = x) ∨ (∃ g ∈ j.gaps.take 1, PostItem.gap g.1 g.2 = x) ∨
      ∃ f ∈ j.frames.take 1, PostItem.frame f = x := by
  unfold nextItem at h
  split at h
  · cases h; exact absurd rfl (hl _ _)
  · split at h
    · split at h
      · cases h
      · cases h; exact absurd rfl he
    · rcases List.mem_append.mp (earliestItem_mem h) with hm | hm
      · rcases List.mem_append.mp hm with hi | hg
        · exact .inl (List.mem_map.mp hi)
        · exact .inr (.inl (List.mem_map.mp hg))
      · exact .inr (.inr (List.mem_map.mp hm))

theorem nextItem_input {j : Job} {g : InputGap} (h : nextItem j = some (.input g)) : j.inputGaps.erase g = j.inputGaps.drop 1 := by
  rcases nextItem_first h (fun _ _ => PostItem.noConfusion) PostItem.noConfusion with ⟨a, hm, e⟩ | ⟨a, _, e⟩ | ⟨a, _, e⟩
  · cases e
    cases hl : j.inputGaps with
    | nil => simp [hl] at hm
    | cons b l => simp [hl] at hm; simp [hm]
  · cases e
  · cases e

theorem nextItem_gap {j : Job} {a : U32} {n : Nat} (h : nextItem j = some (.gap a n)) :
    dropGap j.k n j.gaps = j.gaps.drop 1 := by
  rcases nextItem_first h (fun _ _ => PostItem.noConfusion) PostItem.noConfusion with ⟨b, _, e⟩ | ⟨b, hm, e⟩ | ⟨b, _, e⟩
  · cases e
  · cases e
    cases hl : j.gaps with
    | nil => simp [hl] at hm
    | cons c l => simp [hl] at hm; simp [dropGap, hm]
  · cases e

/-! ### RESULT_POSTING -/

theorem jobOf_mem {s : State} {id : U16} {j : Job} (h : s.jobOf id = some j) : j ∈ s.hub.jobs := List.mem_of_find?_eq_some h

/-- A free ring has no record of its function under way. -/
theorem post_none_of_free {s : State} {j : Job} (hj : s.jobOf j.id = some j) (h : s.ringBusy j.fn = false) : j.post = none := by
  have := List.any_eq_false.mp h j (jobOf_mem hj)
  simpa using this

theorem execResultPosting_post {s : State} {j : Job} {q : Posting} (hup : s.hubUp = true) (hj : s.jobOf j.id = some j)
    (hq : j.post = some q) : exec (.resultPosting j.id) s = .next (s.sendTlp s j q) := by
  have hexec : exec (.resultPosting j.id) s = execResultPosting j.id s := rfl
  rw [hexec, execResultPosting, hup, hj]
  simp only [hq, Bool.not_true, Bool.false_eq_true, if_false]

theorem execResultPosting_start {s : State} {j : Job} {p : PostItem} (hup : s.hubUp = true) (hj : s.jobOf j.id = some j)
    (hq : j.post = none) (hp : nextItem j = some p) (hleft : ∀ a, p = .frame a → a.left ≠ []) :
    exec (.resultPosting j.id) s = .next (s.startRecord j p) := by
  have hexec : exec (.resultPosting j.id) s = execResultPosting j.id s := rfl
  rw [hexec, execResultPosting, hup, hj]
  simp only [hq, hp, Bool.not_true, Bool.false_eq_true, if_false]
  cases p with
  | frame a => simp only [List.isEmpty_eq_false_iff.mpr (hleft a rfl), Bool.false_eq_true, if_false]
  | late a k | input g | gap a k | ended => simp only

theorem execResultPosting_empty {s : State} {j : Job} {a : Frame} (hup : s.hubUp = true) (hj : s.jobOf j.id = some j)
    (hq : j.post = none) (hp : nextItem j = some (.frame a)) (hleft : a.left = []) :
    exec (.resultPosting j.id) s = .next (s.framePosted j a.num) := by
  have hexec : exec (.resultPosting j.id) s = execResultPosting j.id s := rfl
  rw [hexec, execResultPosting, hup, hj]
  simp only [hq, hp, hleft, Bool.not_true, Bool.false_eq_true, if_false, List.isEmpty_nil, if_true]

/-! ### A TLP -/

/-- A TLP of `n` bytes of a job has left, and `rest` of its record is to follow (R345). -/
def State.tlpSent (s : State) (j : Job) (n : Nat) (rest : Option Posting) : State :=
  let s1 := (s.onLink (fun l => { l with credits := l.credits - n })).onJob j.id (fun y =>
    { y with allow := if decide (n * 2 ^ 56 ≤ s.allowNow j) then s.allowNow j - n * 2 ^ 56 else s.allowNow j
             allowAt := now56 s.aon, post := rest })
  if decide (n * 2 ^ 56 ≤ s.allowNow j) then s1 else s1.onHub (fun h => { h with postTurn := j.id })

/-- The record of a posting, as the entry of the reply ring that its last TLP makes (R434). -/
def Posting.entry (q : Posting) (j : Job) : Entry :=
  { status := 0, tag := BitVec.ofNat 16 q.kind, job := j.id, type := 2, payload := q.payload, vec := j.vec }

theorem State.sendTlp_uncredited {t s : State} {j : Job} {q : Posting}
    (h : t.link.credits < tlpLen t.link (entryLen q.payload.length) q.sent) : t.sendTlp s j q = s := by
  simp [State.sendTlp, h]

/-- A TLP with its credits, and the allowance or the turn, leaves. -/
theorem State.sendTlp_sent {t s : State} {j : Job} {q : Posting} {n : Nat}
    (hn : n = tlpLen t.link (entryLen q.payload.length) q.sent) (hc : n ≤ t.link.credits)
    (ht : n * 2 ^ 56 ≤ t.allowNow j ∨ t.myTurn j = true) :
    t.sendTlp s j q = if entryLen q.payload.length ≤ q.sent + n then
        (((t.tlpSent j n none).writeEntry j.fn (q.entry j)).recordDone j q.kind q.item).flushRing j.fn
          (((t.tlpSent j n none).fn j.fn).waitq.length + 1)
      else t.tlpSent j n (some { q with sent := q.sent + n }) := by
  have hgo : (decide (t.link.credits < n) || !(decide (n * 2 ^ 56 ≤ t.allowNow j) || t.myTurn j)) = false := by
    rw [decide_eq_false (Nat.not_lt.mpr hc)]
    rcases ht with h | h
    · rw [decide_eq_true h, Bool.true_or]; rfl
    · rw [h, Bool.or_true]; rfl
  subst hn
  unfold State.sendTlp
  extract_lets total n covered whole s1 s2 e
  rw [if_neg (by rw [hgo]; decide)]
  by_cases hw : total ≤ q.sent + n
  · have hwhole : whole = true := decide_eq_true hw
    have h2 : s2 = t.tlpSent j n none := by simp only [s2, s1, covered, hwhole]; rfl
    rw [hwhole, if_neg (by decide), if_pos hw, h2]
    rfl
  · have hwhole : whole = false := decide_eq_false hw
    have h2 : s2 = t.tlpSent j n (some { q with sent := q.sent + n }) := by simp only [s2, s1, covered, hwhole]; rfl
    rw [hwhole, if_pos (by decide), if_neg hw, h2]

/-- The TLP changes the link's credits, the job's account and, beyond the allowance, the turn. -/
theorem State.tlpSent_frame (t : State) (j : Job) (n : Nat) (rest : Option Posting) :
    (t.tlpSent j n rest).link = { t.link with credits := t.link.credits - n } ∧ (t.tlpSent j n rest).free = t.free ∧
      (t.tlpSent j n rest).out = t.out ∧ (t.tlpSent j n rest).fns = t.fns ∧
      (t.tlpSent j n rest).hub.postTurn = (if n * 2 ^ 56 ≤ t.allowNow j then t.hub.postTurn else j.id) := by
  unfold State.tlpSent
  extract_lets s1
  by_cases h : n * 2 ^ 56 ≤ t.allowNow j
  · rw [if_pos (decide_eq_true h), if_pos h]
    exact ⟨rfl, rfl, rfl, rfl, rfl⟩
  · rw [if_neg (by simpa using h), if_neg h]
    exact ⟨rfl, rfl, rfl, rfl, rfl⟩

theorem State.tlpSent_jobOf (t : State) (j : Job) (n : Nat) (rest : Option Posting) :
    (t.tlpSent j n rest).jobOf j.id = (t.jobOf j.id).map (fun y =>
      { y with allow := if n * 2 ^ 56 ≤ t.allowNow j then t.allowNow j - n * 2 ^ 56 else t.allowNow j
               allowAt := now56 t.aon, post := rest }) := by
  have h1 (s1 : State) : (if decide (n * 2 ^ 56 ≤ t.allowNow j) = true then s1
      else s1.onHub (fun h => { h with postTurn := j.id })).jobOf j.id = s1.jobOf j.id := by
    split <;> rfl
  rw [State.tlpSent, h1, jobOf_onJob]
  · simp only [decide_eq_true_eq]
    rfl
  · exact fun _ => rfl

/-- What holds once a record of kind `kind` for the item `it` of job `j` is out, whatever the marks and the account of the job
were, and the entries that waited have followed. -/
def AfterRecord (j : Job) (kind : Nat) (it : PostItem) (more : State → Prop) : Prop :=
  ∀ w u : State, (∃ m a b, w.jobOf j.id = some { j with marks := m, allow := a, allowAt := b, post := none }) →
    j.fn < w.fns.length →
    u.hub = (w.recordDone j kind it).hub → HostStep (w.recordDone j kind it) u → more u

/-- The next TLP of a record `q` of job `j`, its payload drawn in `t` (R345, R435): the statement's own account of it. -/
def Sends (s t : State) (f : Fin 8) (j : Job) (q : Posting) (more : State → Prop) : Prop :=
  let len := entryLen q.payload.length
  let n := tlpLen s.link len q.sent
  let covered := n * 2 ^ 56 ≤ s.allowNow j
  n ≤ s.link.credits → covered ∨ s.myTurn j = true →
  (len ≤ q.sent + n → ∃ u at_, exec (.resultPosting j.id) s = .next u ∧
    Out.entry f.val at_ ⟨0, BitVec.ofNat 16 q.kind, j.id, 2, q.payload, j.vec⟩ (crcField q.payload) ∈ u.out ∧
    u.link.credits = s.link.credits - n ∧ u.free = t.free ∧ more u) ∧
  (q.sent + n < len → ∃ u, exec (.resultPosting j.id) s = .next u ∧ u.link.credits = s.link.credits - n ∧
    u.out = t.out ∧ u.hub.postTurn = (if covered then s.hub.postTurn else j.id) ∧
    (u.jobOf j.id).map (fun y => (y.post, y.allow, y.allowAt)) = some (some { q with sent := q.sent + n },
      (if covered then s.allowNow j - n * 2 ^ 56 else s.allowNow j), now56 s.aon))

/-- A row that sends the next TLP of a record, its payload drawn, keeps that account. -/
theorem sends_of_exec {s t : State} {f : Fin 8} {x : Fn} {j : Job} {q : Posting} {more : State → Prop} (hd : Drawn s t)
    (hx : s.fns[f.val]? = some x) (hj : s.jobOf j.id = some j) (hf : j.fn = f.val)
    (hexec : exec (.resultPosting j.id) s = .next (t.sendTlp s j q)) (hmore : AfterRecord j q.kind q.item more) :
    Sends s t f j q more := by
  unfold Sends
  extract_lets len n covered
  intro hc ht
  have hn : n = tlpLen t.link (entryLen q.payload.length) q.sent := by simp only [n, len, hd.link]
  have hallow : t.allowNow j = s.allowNow j := hd.allowNow j
  have hsent := State.sendTlp_sent (s := s) hn (hd.link ▸ hc) (by rw [hallow, hd.myTurn]; exact ht)
  obtain ⟨φ, hφ⟩ := hd.jobOf j.id
  have hlt : j.fn < t.fns.length := by
    rw [hd.fns, hf]
    exact (List.getElem?_eq_some_iff.mp hx).1
  constructor
  · intro hw
    obtain ⟨hlink, hfree, hout, hfns, -⟩ := t.tlpSent_frame j n none
    obtain ⟨hhost, at_, hentry⟩ := (t.tlpSent j n none).writeEntry_host j.fn (q.entry j)
    have hflush := State.flushRing_host
      (((t.tlpSent j n none).writeEntry j.fn (q.entry j)).recordDone j q.kind q.item) j.fn
      (((t.tlpSent j n none).fn j.fn).waitq.length + 1)
    have hjob := (jobOf_congr ((t.tlpSent j n none).writeEntry_hub j.fn (q.entry j)) j.id).trans (t.tlpSent_jobOf j n none)
    rw [hφ, hj] at hjob
    have hall := (State.recordDone_host _ j q.kind q.item).trans hflush
    rw [if_pos hw] at hsent
    refine ⟨_, at_, hexec.trans (congrArg _ hsent), ?_, ?_, ?_, hmore _ _ ⟨_, _, _, hjob⟩ ?_ (State.flushRing_hub _ _ _) hflush⟩
    · exact hf ▸ hall.out _ hentry
    · rw [hall.link, hhost.link, hlink, hd.link]
    · rw [hall.free, hhost.free, hfree]
    · rw [hhost.size, hfns]
      exact hlt
  · intro hp
    obtain ⟨hlink, -, hout, -, hturn⟩ := t.tlpSent_frame j n (some { q with sent := q.sent + n })
    rw [if_neg (Nat.not_le.mpr hp)] at hsent
    refine ⟨_, hexec.trans (congrArg _ hsent), ?_, hout, ?_, ?_⟩
    · rw [hlink, hd.link]
    · rw [hturn, hallow, hd.turn]
    · rw [State.tlpSent_jobOf, hφ, hj, hallow, hd.aon]
      rfl

/-! ### What each kind of record leaves -/

theorem afterRecord_late (j : Job) (kind : Nat) (a : U32) (k : Nat) (f : Nat) (hf : j.fn = f) :
    AfterRecord j kind (.late a k) (fun u =>
      (u.jobOf j.id).map (fun y => y.lateDue) = some (j.lateDue.drop 1) ∧ (u.fn f).late = true) := by
  intro w u ⟨m, b, c, hw⟩ hlt hu hs
  refine ⟨?_, ?_⟩
  · rw [jobOf_congr hu, State.recordDone_late, hw]; rfl
  · exact hf ▸ (hs.fns j.fn).late (w.recordDone_late_flag kind a k hlt)

theorem afterRecord_input {j : Job} {g : InputGap} (kind : Nat) (h : nextItem j = some (.input g)) :
    AfterRecord j kind (.input g) (fun u =>
      (u.jobOf j.id).map (fun y => y.inputGaps) = some (j.inputGaps.drop 1)) := by
  intro w u ⟨m, b, c, hw⟩ _ hu _
  rw [jobOf_congr hu, State.recordDone_input, hw, ← nextItem_input h]
  rfl

theorem afterRecord_gap {j : Job} {a : U32} {k : Nat} (kind : Nat) (h : nextItem j = some (.gap a k)) (f : Nat)
    (hf : j.fn = f) : AfterRecord j kind (.gap a k) (fun u =>
      (u.jobOf j.id).map (fun y => y.gaps) = some (j.gaps.drop 1) ∧ (u.fn f).gap = true) := by
  intro w u ⟨m, b, c, hw⟩ hlt hu hs
  refine ⟨?_, ?_⟩
  · rw [jobOf_congr hu, State.recordDone_gap, hw, ← nextItem_gap h]; rfl
  · exact hf ▸ (hs.fns j.fn).gap (w.recordDone_gap_flag kind a k hlt)

theorem afterRecord_small (j : Job) (a : Frame) (f : Nat) (hf : j.fn = f) :
    AfterRecord j 0xF0 (.frame a) (fun u => (u.fn f).gap = true) := by
  intro w u _ hlt _ hs
  exact hf ▸ (hs.fns j.fn).gap (w.recordDone_small_flag a hlt)

theorem afterRecord_result (j : Job) {a : Frame} {kind k : Nat} {rest : List (Nat × Nat)} (ha : a.left = (kind, k) :: rest) :
    AfterRecord j kind (.frame a) (fun u => k ≤ 1 → rest = [] →
      (u.jobOf j.id).map (fun y => y.posted) = some (j.posted + 1)) := by
  intro w u ⟨m, b, c, hw⟩ _ hu _ hk hrest
  have hleft : afterFirst a.left = [] := by simp [ha, afterFirst, hk, hrest]
  rw [jobOf_congr hu, State.recordDone_last _ _ _ _ hleft, hw]
  rfl

theorem afterRecord_ended (j : Job) (kind : Nat) : AfterRecord j kind .ended (fun u => u.jobOf j.id = none) := by
  intro w u _ _ hu _
  rw [jobOf_congr hu, State.recordDone_ended]

/-! ### The start of a record -/

/-- The start of a job's next record, with kind `tag` and payload `bytes` drawn in `t` (R345, R436): the statement's own
account of it. -/
def Posts (s : State) (f : Fin 8) (x : Fn) (j : Job) (p : PostItem) (t : State) (tag : Nat) (bytes : List Byte)
    (more : State → Prop) : Prop :=
  x.waitq = [] →
    (entryFits x bytes.length = true → Sends s t f j ⟨p, tag, bytes, 0⟩ more) ∧
    (entryFits x bytes.length = false → x.rren = true → x.d3 = false →
      ∃ u, exec (.resultPosting j.id) s = .next u ∧ (u.fn f.val).rrfull = true)

/-- A record that fits begins with its first TLP. -/
theorem State.startRecord_fits {s t : State} {f : Nat} {x : Fn} {j : Job} {p : PostItem} {tag : Nat} {bytes : List Byte}
    (hx : s.fns[f]? = some x) (hf : j.fn = f) (hrec : s.recordFor j p = (tag, bytes, t)) (hq : x.waitq = [])
    (hfree : s.ringBusy f = false) (hfit : entryFits x bytes.length = true) :
    s.startRecord j p = t.sendTlp s j ⟨p, tag, bytes, 0⟩ := by
  rw [State.startRecord, hrec, hf, fn_get hx, hq, hfree]
  simp only [hfit, List.isEmpty_nil, Bool.not_true, Bool.or_self, Bool.false_eq_true, if_false]

/-- One that does not shows RRFULL (R436). -/
theorem State.startRecord_full {s t : State} {f : Nat} {x : Fn} {j : Job} {p : PostItem} {tag : Nat} {bytes : List Byte}
    (hx : s.fns[f]? = some x) (hf : j.fn = f) (hrec : s.recordFor j p = (tag, bytes, t)) (hq : x.waitq = [])
    (hfree : s.ringBusy f = false) (hfit : entryFits x bytes.length = false) (hon : x.rren = true) (hd : x.d3 = false) :
    ((s.startRecord j p).fn f).rrfull = true := by
  rw [State.startRecord, hrec, hf, fn_get hx, hq, hfree]
  simp only [hfit, hon, hd, List.isEmpty_nil, Bool.not_true, Bool.not_false, Bool.or_self, Bool.false_eq_true, if_false,
    if_true, Bool.true_and]
  split
  · rw [State.notify_rrfull, fn_onFn _ hx]
  · rw [fn_get hx]; simpa using ‹¬ (!x.rrfull) = true›

/-- A free ring begins the record of a job's next item. -/
theorem posts_of_recordFor {s t : State} {f : Fin 8} {x : Fn} {j : Job} {p : PostItem} {tag : Nat} {bytes : List Byte}
    {more : State → Prop} (hx : s.fns[f.val]? = some x) (hup : s.hubUp = true) (hj : s.jobOf j.id = some j)
    (hf : j.fn = f.val) (hfree : s.ringBusy f.val = false) (hp : nextItem j = some p)
    (hleft : ∀ a, p = .frame a → a.left ≠ []) (hrec : s.recordFor j p = (tag, bytes, t)) (hd : Drawn s t)
    (hmore : AfterRecord j tag p more) : Posts s f x j p t tag bytes more := by
  have hstart := execResultPosting_start hup hj (post_none_of_free hj (hf ▸ hfree)) hp hleft
  intro hq
  constructor
  · intro hfit
    rw [State.startRecord_fits hx hf hrec hq hfree hfit] at hstart
    exact sends_of_exec hd hx hj hf hstart hmore
  · intro hfit hon hd3
    exact ⟨_, hstart, State.startRecord_full hx hf hrec hq hfree hfit hon hd3⟩

/-- A frame without records is posted at once. -/
theorem resultPosting_empty {s : State} {j : Job} {a : Frame} (hup : s.hubUp = true) (hj : s.jobOf j.id = some j)
    (hq : j.post = none) (hp : nextItem j = some (.frame a)) (hleft : a.left = []) :
    ∃ u, exec (.resultPosting j.id) s = .next u ∧ u.link = s.link ∧
      (u.jobOf j.id).map (fun y => (y.posted, y.frames, y.lastPost)) =
        some (j.posted + 1, j.frames.filter (fun y => y.num != a.num), some a.num) := by
  refine ⟨_, execResultPosting_empty hup hj hq hp hleft, (s.framePosted_host j a.num).link, ?_⟩
  rw [State.framePosted_jobOf (p := fun y => (y.posted, y.frames, y.lastPost)) (fun _ _ _ => rfl), hj]
  rfl

/-- The record of a frame's next result, or of the gap in its place (R438, R439). -/
theorem recordFor_frame {s : State} {f : Nat} {x : Fn} {j : Job} {a : Frame} {kind k : Nat} {rest : List (Nat × Nat)}
    (hx : s.fns[f]? = some x) (hf : j.fn = f) (ha : a.left = (kind, k) :: rest) :
    s.recordFor j (.frame a) =
      if 2 ^ x.rrlog2.toNat < 16 + (s.resultPayload j a kind).1.length + 32 then
        (0xF0, s.gapBytes j a.num 1, (s.resultPayload j a kind).2)
      else (kind, (s.resultPayload j a kind).1, (s.resultPayload j a kind).2) := by
  simp only [State.recordFor, hf, fn_get hx, ha, List.headD_cons, ringSize]

/-- Settles O40: the registers by their equations; a record by its TLPs, the payload's draw leaving allowance and turn. -/
theorem ringsAndPosting : Obligations.RingsAndPosting := by
  unfold Obligations.RingsAndPosting
  intro s f x v hx hon
  extract_lets o bad
  refine ⟨execCrtailDoorbell_entry hx hon, execCrtailDoorbell_bad hx hon, execRrheadDoorbell_entry hx hon,
    execRrheadDoorbell_bad hx hon, ?_, ?_, execRren_on hx hon, execRren_off hx hon, fun k np => rfl,
    fun k => execIrqModerationTimeout_sends hx, ?_, ?_⟩
  · intro h
    rw [execCren_next hx hon, h]
    rfl
  · intro h
    exact ⟨by rw [execCren_next hx hon, h]; rfl, by rw [execCren_next hx hon, h]; rfl⟩
  · intro ht
    exact ⟨fun bs h16 hst hw ha => execCommandFetch_packet hx ht h16 hst hw ha, execCommandFetch_failed hx ht⟩
  · intro j hup hj hf
    refine ⟨fun q hq => ⟨fun hc => ?_, ?_⟩, fun p hfree hp => ?_⟩
    · rw [execResultPosting_post hup hj hq, State.sendTlp_uncredited hc]
    · exact sends_of_exec (.refl s) hx hj hf (execResultPosting_post hup hj hq) (fun _ _ _ _ _ _ => trivial)
    have hpost := post_none_of_free hj (hf ▸ hfree)
    refine ⟨fun a k e => ?_, fun g e => ?_, fun a k e => ?_, fun a e hl => ?_, fun a kind k rest e hl => ?_, fun e => ?_⟩
    all_goals subst e
    · exact posts_of_recordFor hx hup hj hf hfree hp (fun _ => PostItem.noConfusion) rfl (.refl s)
        (afterRecord_late j _ a k _ hf)
    · exact posts_of_recordFor hx hup hj hf hfree hp (fun _ => PostItem.noConfusion) rfl (.refl s)
        (afterRecord_input _ hp)
    · exact posts_of_recordFor hx hup hj hf hfree hp (fun _ => PostItem.noConfusion) rfl (.refl s)
        (afterRecord_gap _ hp _ hf)
    · exact resultPosting_empty hup hj hpost hp hl
    · have hleft : ∀ b, PostItem.frame a = .frame b → b.left ≠ [] := fun b e => by cases e; simp [hl]
      have hd := s.resultPayload_drawn j a kind
      have hrec := recordFor_frame hx hf hl
      refine ⟨fun hsmall => ?_, fun hsmall => ?_⟩
      · exact posts_of_recordFor hx hup hj hf hfree hp hleft (hrec.trans (if_pos hsmall)) hd (afterRecord_small j a _ hf)
      · exact posts_of_recordFor hx hup hj hf hfree hp hleft (hrec.trans (if_neg hsmall)) hd (afterRecord_result j hl)
    · exact posts_of_recordFor hx hup hj hf hfree hp (fun _ => PostItem.noConfusion) rfl (s.endedBytes_drawn j)
        (afterRecord_ended j _)

end Sys2Proof.Machine
end

section
/-! PROOFS. Core resets (R85, R456): what the bench monitor, the images of a lode and a geode's reset leave of the cores, and
the prediction state of a core that is reset. -/

namespace Sys2Proof.Machine
open Sys2Proof Sys2Proof.Laws

/-! ### Changes of the device that reach no core -/

theorem foldl_cores {α : Type} {f : State → α → State} (h : ∀ t a, (f t a).cores = t.cores) (l : List α) (s : State) :
    (l.foldl f s).cores = s.cores := by
  induction l generalizing s with
  | nil => rfl
  | cons a l ih => rw [List.foldl_cons, ih, h]

@[simp] theorem State.ite_cores (p : Prop) [Decidable p] (s t : State) :
    (if p then s else t).cores = if p then s.cores else t.cores := apply_ite State.cores p s t

@[simp] theorem State.log_cores (s : State) (r : LogReq) : (s.log r).cores = s.cores := by
  obtain ⟨_, _, h⟩ := s.log_frame r; rw [h]; rfl

@[simp] theorem State.freshWords_cores (s : State) (n : Nat) : (s.freshWords n).2.cores = s.cores := by
  induction n generalizing s with
  | zero => rfl
  | succ n ih => exact ih s.fresh.2

@[simp] theorem State.fixPeriod_cores (s : State) : s.fixPeriod.cores = s.cores := by
  simp [State.fixPeriod]

@[simp] theorem State.mailRelease_cores (s : State) (j : Job) (r : U32) : (s.mailRelease j r).cores = s.cores := by
  unfold State.mailRelease State.mailAll
  apply foldl_cores
  exact fun _ _ => rfl

@[simp] theorem State.freeImages_cores (s : State) (n : Nat) : (s.freeImages n).cores = s.cores := by
  unfold State.freeImages State.onSlot
  apply foldl_cores
  exact fun _ _ => rfl

@[simp] theorem State.emptySlot_cores (s : State) (n : Nat) : (s.emptySlot n).cores = s.cores := s.freeImages_cores n

@[simp] theorem State.fillPage_cores (s : State) (g page : Nat) : (s.fillPage g page).cores = s.cores := by
  unfold State.fillPage
  extract_lets r
  rw [foldl_cores]
  · exact s.freshWords_cores 4096
  · exact fun _ _ => rfl

@[simp] theorem State.takePages_cores (s : State) (slot g n : Nat) : (s.takePages slot g n).cores = s.cores := by
  unfold State.takePages
  rw [foldl_cores (fun t k => t.fillPage_cores g k)]
  rfl

/-- Images are placed in the pages of geodes (R318). -/
@[simp] theorem State.bytesIn_cores (s : State) (n : Nat) : (s.bytesIn n).cores = s.cores := by
  unfold State.bytesIn State.placeImages
  extract_lets x gs
  rw [State.ite_cores, State.ite_cores, foldl_cores, ite_self, ite_self]
  exact fun t p => t.takePages_cores n p.1 _

/-! ### What the bench monitor's text reaches -/

@[simp] theorem State.say_cores (s : State) (p : Port) (bs : List Byte) : (s.say p bs).cores = s.cores := by
  cases p <;> rfl

@[simp] theorem MonAns.send_cores (a : MonAns) (p : Port) : (a.send p).cores = a.st.cores := by
  simp only [MonAns.send, State.prompt, State.sayLine, State.say_cores]
  exact foldl_cores (fun t l => t.say_cores p _) _ _

@[simp] theorem State.monClear_cores (s : State) (p : Port) : (s.monClear p).cores = s.cores := by cases p <;> rfl

@[simp] theorem State.beginLode_cores (s : State) (slot : Fin 16) (mask : Byte) (len : Nat) :
    (s.beginLode slot mask len).cores = s.cores := by
  simp [State.beginLode, State.sayLine, State.onSlot]

@[simp] theorem State.abortLode_cores (s : State) (l : MonLode) (code : Nat) : (s.abortLode l code).cores = s.cores := by
  simp [State.abortLode]

@[simp] theorem State.lodeLine_cores (s : State) (l : MonLode) (line : List Byte) : (s.lodeLine l line).cores = s.cores := by
  unfold State.lodeLine
  split <;> simp [State.onSlot]

@[simp] theorem State.lineEnd_cores (s : State) : s.lineEnd.cores = s.cores := by
  unfold State.lineEnd
  extract_lets m s1 wrong
  split
  · simp [s1]
  · split
    · simp [s1]
    · split
      · exact s1.say_cores _ _
      · split <;> simp [s1]

@[simp] theorem State.lineIn_cores (s : State) (x : MonIn) : (s.lineIn x).cores = s.cores := by
  cases x <;> simp [State.lineIn]

/-- Buffered characters reach no core (R481). -/
@[simp] theorem State.drainMon_cores (s : State) : s.drainMon.cores = s.cores := by
  unfold State.drainMon
  generalize s.mon.buf.length = n
  induction n generalizing s with
  | zero => rfl
  | succ n ih =>
    unfold State.drainBuf
    split
    · rfl
    · split
      · rfl
      · rw [ih, State.lineIn_cores, State.onMon_cores]

/-- A command of the monitor changes of the cores what it does itself. -/
theorem State.monDo_cores {s : State} {p : Port} {i : MonCmd} (act : State → MonAns) (h : s.monTakes p i = true) :
    (s.monDo p i act).cores = (act (s.monClear p)).st.cores := by
  simp [State.monDo, h]

/-! ### Geode resets -/

@[simp] theorem State.dropGeodeJobs_cores (s : State) (g : Nat) : (s.dropGeodeJobs g).cores = s.cores := by
  simp only [State.dropGeodeJobs, State.fixPeriod_cores]
  exact foldl_cores (fun t j => t.mailRelease_cores j _) _ _

@[simp] theorem State.dropGeodeSlots_cores (s : State) (g : Nat) : (s.dropGeodeSlots g).cores = s.cores :=
  foldl_cores (fun t n => by simp) _ _

@[simp] theorem State.reseed_cores (s : State) (b : Nat) : (s.reseed b).cores = s.cores := by
  simp [State.reseed, State.seedEst]

/-- A geode reset gives its signal cores and its supervisor their reset state (R456). -/
theorem State.beginGeodeReset_cores {s : State} (g : Nat) (hr : s.aon.inReset = false) (hi : s.aon.islandsOff = false) :
    (s.beginGeodeReset g).cores =
      modAt (modRange s.cores (9 * g) 9 (fun c => { Core.signalReset with beacons := c.beacons })) (72 + g)
        (fun _ => Core.supReset) := by
  simp only [State.beginGeodeReset, hr, hi, Bool.or_self, Bool.false_eq_true, if_false, State.log_cores, State.onQuad_cores]
  rw [foldl_cores (fun t l => t.reseed_cores _)]
  simp

/-- The device's signal cores after a power-up reset. -/
theorem reset_signalCore (g : Fin 8) (k : Fin 9) : State.reset.cores[coreIdx (.sig g k)]? = some Core.signalReset := by
  have h : coreIdx (.sig g k) < 72 := by simp only [coreIdx]; omega
  simp only [State.reset, List.append_assoc]
  rw [List.getElem?_append_left (by simpa using h), List.getElem?_replicate_of_lt h]

/-! ### The prediction state after a reset -/

/-- A core whose threads and direction counters are those of a reset predicts as R85 wants it. -/
theorem predicts_of_reset {d : Core} (ht : d.threads = Core.signalReset.threads) (hc : d.dirctr = []) :
    d.threads.length = 4 ∧ (∀ n, n < 1024 → dirCtr d n = 1) ∧
      ∀ t ∈ d.threads, (∀ n, n < 8 → smGet t.rstk n = 0) ∧ t.rsp = 0 ∧ bitOf t.stat 11 = true := by
  refine ⟨by rw [ht]; rfl, fun n _ => by simp [dirCtr, hc], fun t hm => ?_⟩
  rw [ht, Core.signalReset, List.mem_replicate] at hm
  rw [hm.2]
  exact ⟨fun _ _ => rfl, rfl, by decide⟩

/-- Settles O51: each of the three resets leaves the core with the threads and the counters of a reset core. -/
theorem coreResetPrediction : Obligations.CoreResetPrediction := by
  intro s p g k c hc
  refine ⟨fun hm ho => ⟨_, rfl, resetCoreData c, ?_, rfl, predicts_of_reset rfl rfl⟩, fun hr hi =>
    ⟨_, rfl, { Core.signalReset with beacons := c.beacons }, ?_, rfl, predicts_of_reset rfl rfl⟩, fun hr =>
    ⟨_, rfl, Core.signalReset, ?_, rfl, predicts_of_reset rfl rfl⟩⟩
  · have hoff : (s.monClear p).targetOff (.sig g k) = false := by cases p <;> exact ho
    rw [State.monDo_cores _ hm]
    simp only [hoff, Bool.false_eq_true, if_false, State.coreReset, State.onGeode_cores, State.onCoreAt_cores,
      State.monClear_cores]
    exact (modAt_get_self _ _ _).trans (by rw [show 9 * g.val + k.val = coreIdx (.sig g k) from rfl, hc]; rfl)
  · rw [State.beginGeodeReset_cores g.val hr hi, modAt_get_ne _ _ _ _ (by simp only [coreIdx]; omega), modRange_get, hc]
    exact congrArg some (if_pos (by simp only [coreIdx]; omega))
  · simp only [State.deviceReset, hr, Bool.false_and, Bool.false_eq_true, if_false]
    exact reset_signalCore g k

end Sys2Proof.Machine
end

section
/-! PROOFS. Operations of the units (R57, R68, R168–R170, R213): such an operation leaves its unit's owed result and nothing
else. -/

namespace Sys2Proof.Machine
open Sys2Proof Sys2Proof.Laws

/-! ### The state behind an issue -/

theorem issuedWith_congr {s : State} {i : Site} {c : Core} (h : s.cores[coreIdx i.core]? = some c) (k : Nat)
    (ws : List (RegW × Nat)) {g g' : Core → Core} (hg : g c = g' c) : issuedWith s i k ws g = issuedWith s i k ws g' :=
  onCore_congr h (by rw [hg])

@[simp] theorem withRequests_nil (s : State) (r : CoreRef) : withRequests s r [] [] [] = s := by
  cases r <;> simp [withRequests, coreGeode, State.onGeode, State.serveHub]

/-- The core with a unit's owed result: of the F28 divide and square-root unit, or of the divider. -/
def owing (fdiv : Bool) (u : UnitPend) (c : Core) : Core :=
  if fdiv then { c with fdivu := some u } else { c with divu := some u }

/-- An operation whose only effect occupies a unit leaves the unit's owed result alone (R57, R68). -/
theorem issueOp_unit {s : State} {i : Site} {op : Instr} {k : Nat} {c : Core} {t : Thread} {f : IssueCtx → OpOut}
    (h : Quiet s i op k c t) (hm : opMeaning op = some (i, f)) {o : OpOut} (ho : f (viewOf i op k c t) = o)
    {fdiv : Bool} {lat : Nat} {ws : List RegW} (hacts : o.acts = [.unit fdiv lat ws]) (hexc : o.excs = [])
    (hvec : o.vec = false) (hf : o.fuse = true → FReady c k t) (hrep : o.isRep = false) :
    issueOp i op s = issuedWith s i k [] (owing fdiv ⟨k, t.seq, lat, ws⟩) := by
  subst ho
  have ho : owing fdiv ⟨k, t.seq, lat, ws⟩ c = withParts c c.x c.y c.sb c.nextId
      (owing fdiv ⟨k, t.seq, lat, ws⟩ c).divu (owing fdiv ⟨k, t.seq, lat, ws⟩ c).fdivu := by cases fdiv <;> rfl
  rw [issueOp_plain h hm _ rfl hexc (by simp [hvec]) hf (by simp [hrep]) (.inr hvec) [] c.x c.y c.sb c.nextId
    (owing fdiv ⟨k, t.seq, lat, ws⟩ c).divu (owing fdiv ⟨k, t.seq, lat, ws⟩ c).fdivu [] [] [], withRequests_nil]
  · exact issuedWith_congr h.core k [] ho.symm
  · simp [ctlOf, hacts]
  · simp [hacts]
  · simp
  · simp [h.sb]
  · intro d hx hy hsb hn hdu hfu
    rw [hacts, applyActs, ordered_rank0 _ (by simp [actRank]), List.foldl_cons, List.foldl_nil, applyAct,
      onThread_same _ _ _ (fun _ _ => by simp [pends])]
    cases fdiv <;> simp only [owing, withParts, ← hx, ← hy, ← hsb, ← hn, ← hdu, ← hfu] <;> rfl
  · exact fun _ => rfl

/-- The record and the FSTAT flags of an F28 result are those of the statements (R206, R215–R217). -/
theorem fFlagW_eq (i : Site) (op : Instr) (k : Nat) (c : Core) (t : Thread) (r : FOut) (opc dst : Nat) (a b d : DWord) :
    fFlagW t r (fRecord (viewOf i op k c t) opc dst a b d) = fFlagWrites c k t r opc dst a b d := by
  unfold fFlagW fFlagWrites fRecord trapRecord viewOf
  cases c.kind <;> simp

@[simp] theorem whenLegal_true (sl : List SlotK) (o : OpOut) : whenLegal true sl o = o := rfl

theorem okZero_of {w : Nat} {x : BitVec w} (h : x = 0) : okZero x = true := by simp [okZero, h]

/-- What a divide owes, in the words of the statements (R148, R169, R170). -/
theorem divWrites_eq (t : Thread) (n : Nat) (q r : Word) (v dz : Bool) :
    divWrites t n q r v dz =
      [.d (dPhys t.wpos n) q, .d (dPhys t.wpos (n + 1)) r, .flag .n q.msb, .flag .z (q == 0), .flag .v v] ++
        (if dz then [.sticky .dz] else []) := by
  simp [divWrites, bitOf, BitVec.msb_eq_getLsbD_last]

/-- A legal D-slot operation that writes flags, and a legal F-slot operation that may set flags of FSTAT. -/
theorem dOut_legal {ok : Bool} (h : ok = true) (reads : List WName) (acts : List Act) :
    dOut ok reads acts true = { slots := [.d], reads := reads, acts := acts, wflags := true } := by
  rw [dOut, h, whenLegal_true]
theorem fFlagOut_legal {ok : Bool} (h : ok = true) (reads : List WName) (acts : List Act) :
    fFlagOut ok reads acts = { slots := [.f], reads := reads, acts := acts, fuse := true, later := [.sys 2] } := by
  rw [fFlagOut, fOut, h, whenLegal_true]

/-- Settles O5: each answer occupies its unit, for its latency, with the writes that the unit then owes. -/
theorem unitsStart : Obligations.UnitsStart := by
  intro f s i k c t hb owes
  have hb0 := okZero_of hb
  refine ⟨fun he hq => ?_, fun he hq => ?_, fun hx hy hF => ⟨fun hz hq => ?_, fun hz hq => ?_⟩⟩
  · have hok : (okZero f.b && okEven f.x) = true := by simp [hb0, okEven, he]
    simp only [owes, ← divWrites_eq]
    exact congrArg Host.Outcome.next (issueOp_unit (fdiv := false) hq rfl (dOut_legal hok _ _) rfl rfl rfl nofun rfl)
  · have hok : (okZero f.b && okEven f.x) = true := by simp [hb0, okEven, he]
    simp only [owes, ← divWrites_eq]
    exact congrArg Host.Outcome.next (issueOp_unit (fdiv := false) hq rfl (dOut_legal hok _ _) rfl rfl rfl nofun rfl)
  · have hok : (okZero f.b && ok16 f.x && ok16 f.y && ok16 f.z) = true := by simp [hb0, ok16, hx, hy, hz]
    simp only [← fFlagW_eq i (.fdiv i f)]
    exact congrArg Host.Outcome.next
      (issueOp_unit (fdiv := true) hq rfl (fFlagOut_legal hok _ _) rfl rfl rfl (fun _ => hF) rfl)
  · have hok : (okZero f.b && okZero f.z && ok16 f.x && ok16 f.y) = true := by simp [hb0, okZero_of hz, ok16, hx, hy]
    simp only [← fFlagW_eq i (.fsqrt i f)]
    exact congrArg Host.Outcome.next
      (issueOp_unit (fdiv := true) hq rfl (fFlagOut_legal hok _ _) rfl rfl rfl (fun _ => hF) rfl)

end Sys2Proof.Machine
end

section
/-! PROOFS. The issue of one operation that transfers control (R75–R102, R130): what its bundle leaves of its core and of its
thread, said once for every such operation by what `flow` answers for it, and what the device keeps of a core's change. -/

namespace Sys2Proof.Machine
open Sys2Proof Sys2Proof.Laws

/-! ### What the device keeps of a core's change -/

/-- No context faults where every context that is faulted was faulted before. -/
theorem newFault_none {c d : Core} (h : ∀ (k : Nat) (a b : Thread), c.threads[k]? = some a → d.threads[k]? = some b →
    b.tstate = .faulted → a.tstate = .faulted) : newFault c d = none := by
  unfold newFault
  rw [List.find?_eq_none]
  intro k _
  cases ha : c.threads[k]? with
  | none => simp
  | some a =>
    cases hb : d.threads[k]? with
    | none => simp
    | some b => simpa using fun hn hf => hn (h k a b ha hb hf)

/-- What the device keeps of a core's change that stops nothing, asks for no attention and faults no context: the changed core,
with line 3 pending where a counter has come to its limit (R473). -/
theorem take_get {s : State} {r : CoreRef} {c d : Core} (hc : s.cores[coreIdx r]? = some c) (hm : d.markOut = [])
    (ha : d.attn = c.attn) (hs : d.stop = none) (hn : r = .hub → newFault c d = none) :
    ∃ e, (s.take r { core := d }).cores[coreIdx r]? = some e ∧ (e = d ∨ (counterFull c d = true ∧ e = raiseLine d 3)) := by
  have hdm : ({ d with markOut := [] } : Core) = d := by rw [← hm]
  have hkeep : ∀ u : State, u.cores = modAt s.cores (coreIdx r) (fun _ => d) →
      ∃ e, (u.settle r c).cores[coreIdx r]? = some e ∧ (e = d ∨ (counterFull c d = true ∧ e = raiseLine d 3)) := by
    intro u hu
    have hget : u.cores[coreIdx r]? = some d := by rw [hu, modAt_get_self, hc]; rfl
    unfold State.settle
    simp only [core_get hget]
    cases r with
    | sig g m =>
      simp only [ha, Bool.and_not_self, Bool.false_eq_true, if_false]
      split
      next hf => exact ⟨_, by rw [State.raise, State.onCore_cores, modAt_get_self, hget]; rfl, .inr ⟨hf, rfl⟩⟩
      next => exact ⟨d, hget, .inl rfl⟩
    | sup g => simp only [hs]; exact ⟨d, hget, .inl rfl⟩
    | hub => simp only [hs, hn rfl]; exact ⟨d, hget, .inl rfl⟩
  unfold State.take
  simp only [core_get hc, hdm, State.eccLog]
  cases r <;> exact hkeep _ rfl

/-- The changed core alone, where no counter can have come to its limit. -/
theorem take_get_plain {s : State} {r : CoreRef} {c d : Core} (hc : s.cores[coreIdx r]? = some c) (hm : d.markOut = [])
    (ha : d.attn = c.attn) (hs : d.stop = none) (hn : r = .hub → newFault c d = none) (hf : counterFull c d = false) :
    (s.take r { core := d }).cores[coreIdx r]? = some d := by
  obtain ⟨e, he, rfl | ⟨hfull, -⟩⟩ := take_get hc hm ha hs hn
  · exact he
  · simp [hf] at hfull

/-- A line that becomes pending leaves a thread as it is, or ends its wait (R142). -/
theorem raiseLine_thread (d : Core) (n : Nat) {k : Nat} {v : Thread} (h : d.threads[k]? = some v) :
    ∃ w ts, (raiseLine d n).threads[k]? = some w ∧ w = { v with tstate := ts } ∧ (v.tstate ≠ .waiting → w = v) := by
  have hwait : ∀ (c : Core) (m : Nat), c.threads = d.threads → ∃ w ts, (endWait c m).threads[k]? = some w ∧
      w = { v with tstate := ts } ∧ (v.tstate ≠ .waiting → w = v) := by
    intro c m hc
    unfold endWait
    split
    · (repeat' split) <;> exact ⟨v, v.tstate, hc ▸ h, rfl, fun _ => rfl⟩
    · simp only [onThread, hc, modAt_get]
      split
      · rw [h]
        exact ⟨_, if v.tstate = .waiting then .ready else v.tstate, rfl, by dsimp only; split <;> rfl, fun hv => if_neg hv⟩
      · exact ⟨v, v.tstate, h, rfl, fun _ => rfl⟩
  unfold raiseLine
  extract_lets c1
  split
  · exact hwait c1 _ rfl
  · exact ⟨v, v.tstate, h, rfl, fun _ => rfl⟩

/-! ### The law of issue for a transfer of control -/

/-- What `flow` answers of the core and of the thread that issues: the parts of the core that a transfer changes, the thread's
change, and the bubbles and stall cycles behind. -/
structure FlowOut where
  x : EMem 14
  dirctr : SMap 2
  flushed : Nat
  thread : Thread → Thread
  bubbles : Nat := 0
  stall : Nat := 0

/-- A core with those parts. -/
def FlowOut.core (r : FlowOut) (d : Core) : Core := { d with x := r.x, dirctr := r.dirctr, flushed := r.flushed }

/-- A thread whose bundle has sent its register writes on their way (R65). -/
def sent (t : Thread) (ws : List (RegW × Nat)) (u : Thread) : Thread :=
  { u with seq := u.seq + 1, flight := u.flight ++ pends t ws }

/-- The core on which the control flow of the bundle is made. -/
def begun (c : Core) (k : Nat) (t : Thread) (ws : List (RegW × Nat)) : Core :=
  onThread ({ c.leaveRd with issued := c.issued + 1 } : Core) k (sent t ws)

/-- The core behind the bundle. -/
def FlowOut.behind (r : FlowOut) (c : Core) (k : Nat) (t : Thread) (ws : List (RegW × Nat)) : Core :=
  onThread ((r.core { c.leaveRd with issued := c.issued + 1 }).spend (1 + r.bubbles + r.stall)) k
    (fun u => { r.thread (sent t ws u) with adv := t.adv + 1 + r.bubbles, micro := none })

/-- The control flow `kf` of the bundle of `n` syllables answers `r`. -/
def FlowsAs (c : Core) (k : Nat) (t : Thread) (ws : List (RegW × Nat)) (n : Nat) (kf : Ctl) (r : FlowOut) : Prop :=
  flow (begun c k t ws) k t t.pc n (some kf) = (onThread (r.core (begun c k t ws)) k r.thread, r.bubbles, r.stall)

/-- The thread stays the one that runs: nothing lands before its next bundle, no trap or stop waits. -/
structure FlowOut.GoesOn (r : FlowOut) (t : Thread) (ws : List (RegW × Nat)) : Prop where
  due : ∀ p ∈ (r.thread (sent t ws t)).flight, t.adv + r.bubbles < p.due
  trap : (r.thread (sent t ws t)).trapDue = none
  stop : (r.thread (sent t ws t)).stopReq = false
  tstate : ∀ u, (r.thread u).tstate = u.tstate
  held : ∀ u, (r.thread u).held = u.held

/-- What is sought among register writes and a transfer is found at the transfer alone. -/
theorem findSome_wrActs {α : Type} (g : Act → Option α) (hg : ∀ w lat, g (.wr w lat) = none) (ws : List (RegW × Nat))
    (kf : Ctl) : (wrActs ws ++ [Act.ctl kf]).findSome? g = g (.ctl kf) := by
  have hw : (wrActs ws).findSome? g = none := by
    rw [List.findSome?_eq_none_iff]
    intro a ha
    obtain ⟨w, -, rfl⟩ := List.mem_map.1 ha
    exact hg _ _
  rw [List.findSome?_append, hw]
  simp

/-- The effects of such an operation: its register writes, on their way. -/
theorem applyActs_wrActs (o : Outside) (k : Nat) (t : Thread) (d : Core) (ws : List (RegW × Nat)) (kf : Ctl) :
    applyActs o k t.adv t.seq false { core := d } (wrActs ws ++ [.ctl kf]) =
      { core := onThread d k (fun u => { u with flight := u.flight ++ pends t ws }) } := by
  have hrank : ∀ a ∈ wrActs ws ++ [Act.ctl kf], actRank a = 0 := by
    intro a ha
    rcases List.mem_append.1 ha with ha | ha
    · obtain ⟨w, -, rfl⟩ := List.mem_map.1 ha; rfl
    · rw [List.mem_singleton.1 ha]; rfl
  rw [applyActs, ordered_rank0 _ hrank, List.foldl_append, fold_wr _ _ _ _ _ t ws rfl rfl]
  rfl

/-- The bundle of an operation that writes registers and transfers control leaves what `flow` answers. -/
theorem commit_flow {s : State} {i : Site} {op : Instr} {k : Nat} {c : Core} {t : Thread} (h : Quiet s i op k c t)
    (o : Outside) {p : OpOut} {ws : List (RegW × Nat)} {kf : Ctl} {r : FlowOut} (hacts : p.acts = wrActs ws ++ [.ctl kf])
    (hvec : p.vec = false) (hctl : ∀ d, doCtl d k (some kf) = d) (hflow : FlowsAs c k t ws (i.syl.toNat + 1) kf r)
    (hr : r.GoesOn t ws) :
    commit o { c with asm := [op] } k t (i.syl.toNat + 1) [p] = { core := r.behind c k t ws } := by
  have hcnt : ctrAdd 48 c.issued 1 = c.issued + 1 := Nat.min_eq_left (by have := h.issued; omega)
  have hbegun : onThread (onThread ({ ({ c with asm := [op] } : Core).leaveRd with issued := ctrAdd 48 c.issued 1 } : Core) k
      (fun u => { u with seq := u.seq + 1 })) k (fun u => { u with flight := u.flight ++ pends t ws }) = begun c k t ws := by
    rw [hcnt]; exact onThread_onThread _ _ _ _
  have hrows : bundleRows [p] = 0 := by simp [bundleRows, hvec]
  have hctlOf : ctlOf [p] = some kf := by
    rw [ctlOf, List.flatMap_singleton, hacts, findSome_wrActs _ (fun _ _ => rfl)]
  unfold commit
  simp only [List.flatMap_singleton, hctlOf, hacts, hrows, countFar, if_true, applyActs_wrActs]
  rw [findSome_wrActs _ (fun _ _ => rfl), hbegun, hflow]
  generalize hd : r.behind c k t ws = d
  have hcore : ((onThread (onThread (r.core (begun c k t ws)) k r.thread) k (fun u =>
      { u with adv := t.adv + 1 + r.bubbles, micro := none })).spend (1 + r.bubbles + r.stall)) = d := by
    rw [onThread_onThread, ← hd]
    exact congrArg (fun e : Core => e.spend (1 + r.bubbles + r.stall))
      (onThread_onThread (r.core { c.leaveRd with issued := c.issued + 1 }) k (sent t ws) _)
  have hthread : d.threads[k]? =
      some { r.thread (sent t ws t) with adv := t.adv + 1 + r.bubbles, micro := none } := by
    rw [← hd]; simp [FlowOut.behind, onThread, Core.spend, FlowOut.core, Core.leaveRd, h.thread]
  have hland : landUpTo d k (t.adv + r.bubbles) = d := landUpTo_none _ _ _ _ hthread hr.due
  have hready : readyLevel d k = true := by
    rw [← hd, readyLevel_plain c _ k (fun u => { r.thread (sent t ws u) with adv := t.adv + 1 + r.bubbles, micro := none })]
    case hs => exact fun u => hr.tstate _
    case hh => exact fun u => hr.held _
    · exact h.ready
    all_goals rfl
  have hkeep : keepLate k { core := d } = { core := d } := keepLate_same k _ (by
    rw [← hd]; show c.sb.length ≤ 4; simp [h.sb]) (by simp)
  simp only [hcore, hland, Option.map_none]
  rw [microRun_none o k _ _ hthread rfl, hkeep, hctl, afterBundle_stays d k _ hthread hready hr.trap hr.stop,
    countStep_none d (by rw [← hd]; exact h.steps)]

/-- The answer `p` of an operation that writes registers and transfers control, and nothing else. -/
structure Transfers (p : OpOut) (ws : List (RegW × Nat)) (kf : Ctl) : Prop where
  acts : p.acts = wrActs ws ++ [.ctl kf]
  excs : p.excs = []
  vec : p.vec = false
  fuse : p.fuse = false

/-- THE LAW OF TRANSFERS. On a core that stands ready, such an operation leaves of its core what `flow` answers; a counter of
discarded bundles that comes to its limit raises line 3 (R473). -/
theorem issueOp_flow {s : State} {i : Site} {op : Instr} {k : Nat} {c : Core} {t : Thread} {f : IssueCtx → OpOut}
    (h : Quiet s i op k c t) (hm : opMeaning op = some (i, f)) {p : OpOut} (hp : f (viewOf i op k c t) = p)
    {ws : List (RegW × Nat)} {kf : Ctl} (ht : Transfers p ws kf) (hrep : p.isRep = true → i.syl = 0)
    (hctl : ∀ d, doCtl d k (some kf) = d) {r : FlowOut} (hflow : FlowsAs c k t ws (i.syl.toNat + 1) kf r)
    (hr : r.GoesOn t ws) :
    ∃ e, (issueOp i op s).cores[coreIdx i.core]? = some e ∧
      (e = r.behind c k t ws ∨
        (counterFull c (r.behind c k t ws) = true ∧ e = raiseLine (r.behind c k t ws) 3)) := by
  subst hp
  have htry := (tryIssue_quiet h hm ht.excs (by simp [ht.vec]) (by simp [ht.fuse]) hrep).trans
    (commit_flow h (s.outside i.core) ht.acts ht.vec hctl hflow hr)
  have hasm : ({ c with asm := c.ghost ++ c.asm ++ [op], ghost := [] } : Core) = { c with asm := [op] } := by
    rw [h.asm, h.ghost]; rfl
  have hissue : issueOp i op s = s.take i.core { core := r.behind c k t ws } := by
    unfold issueOp offer
    simp only [core_of h.core, h.takes, if_true, Bool.not_true, Bool.false_eq_true, if_false, h.last]
    rw [hasm, htry]
  rw [hissue]
  exact take_get h.core h.marks rfl (takes_live h.takes).1
    (fun _ => newFault_plain c _ k (fun u => { r.thread (sent t ws u) with adv := t.adv + 1 + r.bubbles, micro := none }) rfl
      (fun u => hr.tstate _))

/-- Where the counter of discarded bundles stays, the core is exactly what `flow` answers. -/
theorem issueOp_flow_plain {s : State} {i : Site} {op : Instr} {k : Nat} {c : Core} {t : Thread} {f : IssueCtx → OpOut}
    (h : Quiet s i op k c t) (hm : opMeaning op = some (i, f)) {p : OpOut} (hp : f (viewOf i op k c t) = p)
    {ws : List (RegW × Nat)} {kf : Ctl} (ht : Transfers p ws kf) (hrep : p.isRep = true → i.syl = 0)
    (hctl : ∀ d, doCtl d k (some kf) = d) {r : FlowOut} (hflow : FlowsAs c k t ws (i.syl.toNat + 1) kf r)
    (hr : r.GoesOn t ws) (hfl : r.flushed = c.flushed) :
    (issueOp i op s).cores[coreIdx i.core]? = some (r.behind c k t ws) := by
  have hfull : counterFull c (r.behind c k t ws) = false :=
    counterFull_plain c _ (by have := h.issued; show c.issued + 1 + 1 < 2 ^ 48; omega) hfl rfl rfl rfl
  obtain ⟨e, he, rfl | ⟨hf, -⟩⟩ := issueOp_flow h hm hp ht hrep hctl hflow hr
  · exact he
  · rw [hfull] at hf; cases hf

/-- The thread that `flow` leaves, behind the bundle. -/
def FlowOut.after (r : FlowOut) (t : Thread) (ws : List (RegW × Nat)) : Thread :=
  { r.thread (sent t ws t) with adv := t.adv + 1 + r.bubbles, micro := none }

theorem FlowOut.behind_thread (r : FlowOut) {c : Core} {k : Nat} {t : Thread} (h : c.threads[k]? = some t)
    (ws : List (RegW × Nat)) : (r.behind c k t ws).threads[k]? = some (r.after t ws) := by
  simp only [FlowOut.behind, onThread, spend_threads, modAt_get_self]
  show c.threads[k]?.map _ = _
  rw [h]
  rfl

/-! ### Delay slots -/

/-- What a windowed transfer makes of X memory and of its thread's RES, SPP and D registers, and its stall cycles (R130). -/
structure Turn where
  x : EMem 14
  res : BitVec 2
  spp : BitVec 17
  d : SMap 14
  stall : Nat := 0

/-- No windowed transfer: all stays. -/
def Turn.still (c : Core) (t : Thread) : Turn := { x := c.x, res := t.res, spp := t.spp, d := t.d }

/-- The thread in front of a delay slot: the return stack as its branch leaves it, and the slot to come (R75, R81). -/
def slotThread (w : Turn) (st : SMap 14 × BitVec 3) (sl : DSlot) (next : Nat) (u : Thread) : Thread :=
  { goSeq u next with rstk := st.1, rsp := st.2, res := w.res, spp := w.spp, d := w.d, dslot := some sl }

/-- What `flow` answers of a transfer that a delay slot follows. -/
def slotOut (c : Core) (dc : SMap 2) (w : Turn) (st : SMap 14 × BitVec 3) (sl : DSlot) (next : Nat) : FlowOut :=
  { x := w.x, dirctr := dc, flushed := c.flushed, thread := slotThread w st sl next, stall := w.stall }

/-- A write that lands later than the issue cycle is not due in it. -/
theorem due_pends {t : Thread} {ws : List (RegW × Nat)} {n : Nat} (h : ∀ p ∈ t.flight, t.adv + n < p.due)
    (hw : ∀ w ∈ ws, n < w.2) : ∀ p ∈ t.flight ++ pends t ws, t.adv + n < p.due := by
  intro p hp
  rcases List.mem_append.1 hp with hp | hp
  · exact h p hp
  · obtain ⟨w, hm, rfl⟩ := List.mem_map.1 hp
    have := hw w hm
    show t.adv + n < t.adv + w.2
    omega

theorem slotOut_goesOn {s : State} {i : Site} {op : Instr} {k : Nat} {c : Core} {t : Thread} (h : Quiet s i op k c t)
    (dc : SMap 2) (w : Turn) (st : SMap 14 × BitVec 3) (sl : DSlot) (next : Nat) {ws : List (RegW × Nat)}
    (hlat : ∀ w ∈ ws, 1 ≤ w.2) : (slotOut c dc w st sl next).GoesOn t ws :=
  ⟨due_pends h.due hlat, h.trap, h.stop, fun _ => rfl, fun _ => rfl⟩

/-- A transfer behind which a delay slot comes leaves its core and thread so. -/
theorem issueOp_slot {s : State} {i : Site} {op : Instr} {k : Nat} {c : Core} {t : Thread} {f : IssueCtx → OpOut}
    (h : Quiet s i op k c t) (hm : opMeaning op = some (i, f)) {p : OpOut} (hp : f (viewOf i op k c t) = p)
    {ws : List (RegW × Nat)} {kf : Ctl} (ht : Transfers p ws kf) (hrep : p.isRep = false) (hlat : ∀ w ∈ ws, 1 ≤ w.2)
    (hctl : ∀ d, doCtl d k (some kf) = d) {dc : SMap 2} {w : Turn} {st : SMap 14 × BitVec 3} {sl : DSlot}
    (hflow : FlowsAs c k t ws (i.syl.toNat + 1) kf (slotOut c dc w st sl (t.pc.toNat + (i.syl.toNat + 1)))) :
    ((issueOp i op s).core i.core).dirctr = dc ∧ ((issueOp i op s).core i.core).x = w.x ∧
      (issueOp i op s).threadAt i.core k =
        some ((slotOut c dc w st sl (t.pc.toNat + (i.syl.toNat + 1))).after t ws) := by
  have hc := issueOp_flow_plain h hm hp ht (by simp [hrep]) hctl hflow (slotOut_goesOn h dc w st sl _ hlat) rfl
  rw [core_get hc]
  exact ⟨rfl, rfl, (threadAt_get hc).trans (FlowOut.behind_thread _ h.thread ws)⟩


/-! ### What `flow` answers of branches, calls and returns -/

/-- A transfer leaves no loop where none is active (R93). -/
theorem leaveLoops_idle (im : SMap 28) {t : Thread} (h0 : t.loop0.act = false) (h1 : t.loop1.act = false) (a tgt : Nat) :
    leaveLoops im t a tgt = t := by
  simp [leaveLoops, h0, h1]

theorem dirUpdate_onThread (c : Core) (k : Nat) (g : Thread → Thread) (n : Nat) (taken : Bool) :
    dirUpdate (onThread c k g) n taken = onThread (dirUpdate c n taken) k g := rfl

theorem begun_thread {c : Core} {k : Nat} {t : Thread} (h : c.threads[k]? = some t) (ws : List (RegW × Nat)) :
    (begun c k t ws).threads[k]? = some (sent t ws t) := by
  simp [begun, onThread, Core.leaveRd, h]

/-- A change of the thread that makes of it what a delay slot wants. -/
theorem slot_flow {c d : Core} {k : Nat} {t : Thread} (h : c.threads[k]? = some t) {ws : List (RegW × Nat)} {dc : SMap 2}
    {w : Turn} {st : SMap 14 × BitVec 3} {sl : DSlot} {next : Nat} {g : Thread → Thread}
    (hd : d = (slotOut c dc w st sl next).core (begun c k t ws))
    (hg : g (sent t ws t) = slotThread w st sl next (sent t ws t)) :
    onThread d k g = onThread ((slotOut c dc w st sl next).core (begun c k t ws)) k (slotThread w st sl next) := by
  subst hd
  refine onThread_congr _ _ _ _ fun u hu => ?_
  have : u = sent t ws t := by
    have hb : ((slotOut c dc w st sl next).core (begun c k t ws)).threads[k]? = some (sent t ws t) := begun_thread h ws
    rw [hb] at hu
    exact (Option.some.inj hu).symm
  rw [this, hg]

/-- The return stack behind the DC actions of the bundle at the thread's address (R81). -/
def dcStack (d : Core) (t : Thread) : SMap 14 × BitVec 3 :=
  ((decoded d t t.pc.toNat).rstk, (decoded d t t.pc.toNat).rsp)

/-- The direction counters behind a branch of counter `n` (R79); STAT.PB = 1 leaves them. -/
def branchCtrs (c : Core) (t : Thread) (n : Nat) (taken : Bool) : SMap 2 :=
  if t.pb then c.dirctr else (dirUpdate c n taken).dirctr

section
variable {s : State} {i : Site} {op : Instr} {k : Nat} {c : Core} {t : Thread}

theorem flow_branch (h : Quiet s i op k c t) (ws : List (RegW × Nat)) (n ctr : Nat) (taken annul : Bool) (tgt : IAddr) :
    ∃ st sl, sl.cont = (if taken then some tgt else none) ∧ sl.annul = (annul && !taken) ∧ sl.window = 0 ∧
      FlowsAs c k t ws n (.branch taken annul tgt ctr)
        (slotOut c (branchCtrs c t ctr taken) (.still c t) st sl (t.pc.toNat + n)) := by
  generalize hb : begun c k t ws = d
  let d1 := passDc d k t t.pc.toNat
  let d2 := if t.pb then d1 else dirUpdate d1 ctr taken
  let d3 := if taken then onThread d2 k (fun u => leaveLoops d.imem.cells u t.pc.toNat tgt.toNat) else d2
  obtain ⟨sl, hsl, h1, h2, h3⟩ : ∃ sl, flowBranch d k t t.pc (t.pc.toNat + n) taken annul tgt ctr =
      withSlot d3 k (t.pc.toNat + n) sl ∧ sl.cont = (if taken then some tgt else none) ∧ sl.annul = (annul && !taken) ∧
      sl.window = 0 := ⟨_, rfl, rfl, rfl, rfl⟩
  refine ⟨dcStack d t, sl, h1, h2, h3, ?_⟩
  unfold FlowsAs
  rw [hb]
  refine Prod.ext (hsl.trans ?_) rfl
  subst hb
  cases hpb : t.pb <;> cases taken <;>
    simp only [d3, d2, d1, hpb, if_true, Bool.false_eq_true, if_false, passDc, withSlot, dirUpdate_onThread,
      onThread_onThread, branchCtrs]
  all_goals refine slot_flow h.thread rfl ?_
  · rfl
  · rw [leaveLoops_idle]
    exacts [rfl, h.loop0, h.loop1]
  · rfl
  · rw [leaveLoops_idle]
    exacts [rfl, h.loop0, h.loop1]

theorem flow_goto (h : Quiet s i op k c t) (ws : List (RegW × Nat)) (n : Nat) (tgt : IAddr) (inE1 : Bool) :
    ∃ st sl, sl.cont = some tgt ∧ sl.annul = false ∧ sl.window = 0 ∧
      FlowsAs c k t ws n (.goto tgt inE1) (slotOut c c.dirctr (.still c t) st sl (t.pc.toNat + n)) := by
  generalize hb : begun c k t ws = d
  let d1 := onThread (passDc d k t t.pc.toNat) k (fun u => leaveLoops d.imem.cells u t.pc.toNat tgt.toNat)
  obtain ⟨sl, hsl, h1, h2, h3⟩ : ∃ sl, flowGoto d k t t.pc (t.pc.toNat + n) tgt inE1 =
      withSlot d1 k (t.pc.toNat + n) sl ∧ sl.cont = some tgt ∧ sl.annul = false ∧ sl.window = 0 := ⟨_, rfl, rfl, rfl, rfl⟩
  refine ⟨dcStack d t, sl, h1, h2, h3, ?_⟩
  unfold FlowsAs
  rw [hb]
  refine Prod.ext (hsl.trans ?_) rfl
  subst hb
  simp only [d1, passDc, withSlot, onThread_onThread]
  refine slot_flow h.thread rfl ?_
  rw [leaveLoops_idle]
  exacts [rfl, h.loop0, h.loop1]

/-- A window operation of a bundle, on whatever core it is made, answers `w` (R130). -/
def TurnsAs (c : Core) (k : Nat) (t : Thread) (turn : Core → Core × Nat) (w : Turn) : Prop :=
  ∀ (d : Core) (u : Thread), d.x = c.x → d.threads[k]? = some u → u.res = t.res → u.spp = t.spp → u.d = t.d →
    turn d = (onThread { d with x := w.x } k (fun v => { v with res := w.res, spp := w.spp, d := w.d }), w.stall)

/-- A bundle that turns the window, or not, and transfers control behind a delay slot. -/
theorem turn_flow (h : Quiet s i op k c t) {ws : List (RegW × Nat)} {n : Nat} {turn : Core → Core × Nat} {w : Turn}
    (hw : TurnsAs c k t turn w) {d : Core} (hd : d = begun c k t ws) (sl : DSlot) :
    (withSlot (turn (passDc d k t t.pc.toNat)).1 k (t.pc.toNat + n) sl, (turn (passDc d k t t.pc.toNat)).2) =
      (onThread ((slotOut c c.dirctr w (dcStack d t) sl
        (t.pc.toNat + n)).core (begun c k t ws)) k
        (slotThread w (dcStack d t) sl (t.pc.toNat + n)), w.stall) := by
  have ht : (passDc d k t t.pc.toNat).threads[k]? = some { sent t ws t with
      rstk := (decoded d t t.pc.toNat).rstk, rsp := (decoded d t t.pc.toNat).rsp } := by
    simp [passDc, onThread, hd, begun_thread h.thread ws]
  rw [hw _ _ (by rw [hd]; rfl) ht rfl rfl rfl]
  refine Prod.ext ?_ rfl
  have hx : ({ passDc d k t t.pc.toNat with x := w.x } : Core) = onThread { d with x := w.x } k (fun u =>
      { u with rstk := (decoded d t t.pc.toNat).rstk, rsp := (decoded d t t.pc.toNat).rsp }) := rfl
  rw [hx, withSlot, onThread_onThread, onThread_onThread]
  exact slot_flow h.thread (by rw [hd]; rfl) rfl

theorem flow_call (h : Quiet s i op k c t) (ws : List (RegW × Nat)) (n : Nat) (tgt : IAddr) (inE1 window : Bool) {w : Turn}
    (hw : TurnsAs c k t (fun d => if window then windowCall d k t else (d, 0)) w) :
    ∃ st sl, sl.cont = some tgt ∧ sl.annul = false ∧ sl.window = (if window then 1 else 0) ∧
      FlowsAs c k t ws n (.call tgt inE1 window) (slotOut c c.dirctr w st sl (t.pc.toNat + n)) := by
  generalize hb : begun c k t ws = d
  let r : Core × Nat := if window then windowCall (passDc d k t t.pc.toNat) k t else (passDc d k t t.pc.toNat, 0)
  obtain ⟨sl, hsl, h1, h2, h3⟩ : ∃ sl, flowCall d k t t.pc (t.pc.toNat + n) tgt inE1 window =
      (withSlot r.1 k (t.pc.toNat + n) sl, r.2) ∧ sl.cont = some tgt ∧ sl.annul = false ∧
      sl.window = (if window then 1 else 0) := ⟨_, rfl, rfl, rfl, rfl⟩
  refine ⟨dcStack d t, sl, h1, h2, h3, ?_⟩
  unfold FlowsAs
  rw [hb]
  have := hsl.trans (turn_flow h hw hb.symm sl)
  exact congrArg (fun q : Core × Nat => (q.1, 0, q.2)) (hb ▸ this)

theorem flow_ret (h : Quiet s i op k c t) (ws : List (RegW × Nat)) (n : Nat) (tgt : IAddr) (window : Bool) {w : Turn}
    (hw : TurnsAs c k t (fun d => if window then windowRet d k t else (d, 0)) w) :
    ∃ st sl, sl.cont = some tgt ∧ sl.annul = false ∧ sl.window = (if window then 3 else 0) ∧
      FlowsAs c k t ws n (.ret tgt window) (slotOut c c.dirctr w st sl (t.pc.toNat + n)) := by
  generalize hb : begun c k t ws = d
  let r : Core × Nat := if window then windowRet (passDc d k t t.pc.toNat) k t else (passDc d k t t.pc.toNat, 0)
  obtain ⟨sl, hsl, h1, h2, h3⟩ : ∃ sl, flowRet d k t t.pc (t.pc.toNat + n) tgt window =
      (withSlot r.1 k (t.pc.toNat + n) sl, r.2) ∧ sl.cont = some tgt ∧ sl.annul = false ∧
      sl.window = (if window then 3 else 0) := ⟨_, rfl, rfl, rfl, rfl⟩
  refine ⟨dcStack d t, sl, h1, h2, h3, ?_⟩
  unfold FlowsAs
  rw [hb]
  have := hsl.trans (turn_flow h hw hb.symm sl)
  exact congrArg (fun q : Core × Nat => (q.1, 0, q.2)) (hb ▸ this)

end

/-! ### Windowed transfers (R130) -/

/-- A window operation that changes RES, SPP and the D registers of its thread alone. -/
theorem turnsAs_of {c : Core} {k : Nat} {t : Thread} {turn : Core → Core × Nat} {w : Turn} {g : Thread → Thread}
    (hturn : ∀ d : Core, d.x = c.x → turn d = (onThread { d with x := w.x } k g, w.stall))
    (hg : ∀ u : Thread, u.res = t.res → u.spp = t.spp → u.d = t.d → g u = { u with res := w.res, spp := w.spp, d := w.d }) :
    TurnsAs c k t turn w := by
  intro d u hx hu hr hs hd
  rw [hturn d hx]
  refine Prod.ext (onThread_congr _ _ _ _ fun v hv => ?_) rfl
  have : v = u := Option.some.inj (hv.symm.trans hu)
  rw [this, hg u hr hs hd]

theorem turnsAs_still (c : Core) (k : Nat) (t : Thread) : TurnsAs c k t (fun d => (d, 0)) (.still c t) :=
  turnsAs_of (g := fun u => u) (fun d hx => by simp [Turn.still, ← hx, onThread]) (fun u hr hs hd => by
    simp [Turn.still, ← hr, ← hs, ← hd])

theorem windowCall_counts {c : Core} {k : Nat} {t : Thread} (h : t.res ≠ 2) :
    TurnsAs c k t (fun d => windowCall d k t) { Turn.still c t with res := t.res + 1 } :=
  turnsAs_of (g := fun u => { u with res := u.res + 1 })
    (fun d hx => by simp only [windowCall, if_neg h, Turn.still, ← hx]) (fun u hr hs hd => by
    simp only [Turn.still, ← hr, ← hs, ← hd])

/-- The oldest pair of frames stored at SPP (R131). -/
def spilled (c : Core) (t : Thread) : Turn :=
  { x := c.x.writeList t.spp.toNat ((pairRegs (t.wpos - 2)).map (fun r => smGet t.d r)), res := 2, spp := t.spp + 16,
    d := t.d, stall := 6 }

theorem windowCall_spills {c : Core} {k : Nat} {t : Thread} (h : t.res = 2) :
    TurnsAs c k t (fun d => windowCall d k t) (spilled c t) :=
  turnsAs_of (g := fun u => { u with spp := u.spp + 16 })
    (fun d hx => by simp only [windowCall, if_pos h, spilled, ← hx]) (fun u hr hs hd => by
    simp only [spilled, ← h, ← hr, ← hs, ← hd])

theorem windowRet_counts {c : Core} {k : Nat} {t : Thread} (h : t.res ≠ 0) :
    TurnsAs c k t (fun d => windowRet d k t) { Turn.still c t with res := t.res - 1 } :=
  turnsAs_of (g := fun u => { u with res := u.res - 1 })
    (fun d hx => by simp only [windowRet, if_neg h, Turn.still, ← hx]) (fun u hr hs hd => by
    simp only [Turn.still, ← hr, ← hs, ← hd])

/-- The pair of frames below SPP, as its fill reads it (R131). -/
def frameBelow (c : Core) (t : Thread) : List (Nat × BitVec 14) :=
  ((pairRegs (t.wpos - 1)).zip (List.range 16)).map (fun p => (p.1, smGet c.x.cells (t.spp.toNat - 16 + p.2)))

/-- The pair of frames below SPP filled (R131). -/
def filled (c : Core) (t : Thread) : Turn :=
  { Turn.still c t with spp := t.spp - 16, d := smPutAll t.d (frameBelow c t), stall := 6 }

theorem windowRet_fills {c : Core} {k : Nat} {t : Thread} (h : t.res = 0) :
    TurnsAs c k t (fun d => windowRet d k t) (filled c t) :=
  turnsAs_of (g := fun u => { u with d := smPutAll u.d (frameBelow c t), spp := u.spp - 16 })
    (fun d hx => by
      change windowRet d k t = (onThread { d with x := c.x } k _, 6)
      unfold frameBelow
      rw [← hx, windowRet, if_pos h])
    (fun u hr hs hd => by simp only [filled, Turn.still, ← hr, ← hs, ← hd])

/-! ### What a transfer leaves of the device -/

/-- The issue leaves the direction counters `dc`, X memory and window state as `w` says, and a delay slot to come, behind which
control goes to `cont`, or on (R75). -/
def LeavesSlot (s : State) (i : Site) (op : Instr) (k : Nat) (c : Core) (t : Thread) (ws : List (RegW × Nat)) (dc : SMap 2)
    (w : Turn) (cont : Option IAddr) (annul : Bool) (window : BitVec 2) : Prop :=
  ∃ st sl, sl.cont = cont ∧ sl.annul = annul ∧ sl.window = window ∧ ((issueOp i op s).core i.core).dirctr = dc ∧
    ((issueOp i op s).core i.core).x = w.x ∧
    (issueOp i op s).threadAt i.core k = some ((slotOut c dc w st sl (t.pc.toNat + (i.syl.toNat + 1))).after t ws)

/-- What that says of the thread: the rest of it stays. -/
theorem LeavesSlot.thread {s : State} {i : Site} {op : Instr} {k : Nat} {c : Core} {t : Thread} {ws : List (RegW × Nat)}
    {dc : SMap 2} {w : Turn} {cont : Option IAddr} {annul : Bool} {window : BitVec 2}
    (h : LeavesSlot s i op k c t ws dc w cont annul window) :
    ∃ v d, (issueOp i op s).threadAt i.core k = some v ∧ v.dslot = some d ∧ d.cont = cont ∧ d.annul = annul ∧
      d.window = window ∧ v.pc = BitVec.ofNat 14 (t.pc.toNat + i.syl.toNat + 1) ∧ v.adv = t.adv + 1 ∧
      v.flight = t.flight ++ pends t ws ∧ v.wpos = t.wpos ∧ v.stat = t.stat ∧ sameBank t v ∧
      v.res = w.res ∧ v.spp = w.spp ∧ v.d = w.d := by
  obtain ⟨st, sl, h1, h2, h3, -, -, hthread⟩ := h
  exact ⟨_, sl, hthread, rfl, h1, h2, h3, rfl, rfl, rfl, rfl, rfl,
    ⟨rfl, rfl, rfl, rfl, rfl, rfl, rfl, rfl, rfl, rfl, rfl, rfl, rfl⟩, rfl, rfl, rfl⟩

theorem LeavesSlot.core {s : State} {i : Site} {op : Instr} {k : Nat} {c : Core} {t : Thread} {ws : List (RegW × Nat)}
    {dc : SMap 2} {w : Turn} {cont : Option IAddr} {annul : Bool} {window : BitVec 2}
    (h : LeavesSlot s i op k c t ws dc w cont annul window) :
    ((issueOp i op s).core i.core).dirctr = dc ∧ ((issueOp i op s).core i.core).x = w.x := by
  obtain ⟨st, sl, -, -, -, hd, hx, -⟩ := h
  exact ⟨hd, hx⟩

section
variable {s : State} {i : Site} {op : Instr} {k : Nat} {c : Core} {t : Thread}

theorem leavesSlot_of_flow {f : IssueCtx → OpOut} (h : Quiet s i op k c t) (hm : opMeaning op = some (i, f)) {p : OpOut}
    (hp : f (viewOf i op k c t) = p) {ws : List (RegW × Nat)} {kf : Ctl} (ht : Transfers p ws kf) (hrep : p.isRep = false)
    (hlat : ∀ w ∈ ws, 1 ≤ w.2) (hctl : ∀ d, doCtl d k (some kf) = d) {dc : SMap 2} {w : Turn} {cont : Option IAddr}
    {annul : Bool} {window : BitVec 2} (hflow : ∃ st sl, sl.cont = cont ∧ sl.annul = annul ∧ sl.window = window ∧
      FlowsAs c k t ws (i.syl.toNat + 1) kf (slotOut c dc w st sl (t.pc.toNat + (i.syl.toNat + 1)))) :
    LeavesSlot s i op k c t ws dc w cont annul window := by
  obtain ⟨st, sl, h1, h2, h3, hflow⟩ := hflow
  obtain ⟨hd, hx, hthread⟩ := issueOp_slot h hm hp ht hrep hlat hctl hflow
  exact ⟨st, sl, h1, h2, h3, hd, hx, hthread⟩

end

section
variable {s : State} {i : Site} {k : Nat} {c : Core} {t : Thread} {a : Bool}

theorem leavesSlot_bCc {cc : BitVec 4} {taken : Bool} {disp : BitVec 12} (h : Quiet s i (.bCc i cc a disp) k c t)
    (hcc : condition t cc = some taken) :
    LeavesSlot s i (.bCc i cc a disp) k c t [] (branchCtrs c t ((t.pc.toNat + i.syl.toNat) % 1024) taken) (.still c t)
      (if taken then some (t.pc + disp.signExtend 14) else none) (a && !taken) 0 :=
  leavesSlot_of_flow h rfl (p := cOut true [] [.ctl (.branch taken a (t.pc + disp.signExtend 14)
    ((t.pc.toNat + i.syl.toNat) % 1024))] true) (by simp only [opBCc, viewOf, hcc]) ⟨rfl, rfl, rfl, rfl⟩ rfl (by simp)
    (fun _ => rfl) (flow_branch h [] _ _ _ _ _)

theorem leavesSlot_bra {disp : IAddr} (h : Quiet s i (.bra i false disp) k c t) :
    LeavesSlot s i (.bra i false disp) k c t [] c.dirctr (.still c t) (some (t.pc + disp)) false 0 :=
  leavesSlot_of_flow h rfl rfl ⟨rfl, rfl, rfl, rfl⟩ rfl (by simp) (fun _ => rfl) (flow_goto h [] _ _ _)

theorem leavesSlot_jmp {an : BitVec 4} (h : Quiet s i (.jmp i false an) k c t) :
    LeavesSlot s i (.jmp i false an) k c t [] c.dirctr (.still c t) (some ((smGet t.a an.toNat).truncate 14)) false 0 :=
  leavesSlot_of_flow h rfl rfl ⟨rfl, rfl, rfl, rfl⟩ rfl (by simp) (fun _ => rfl) (flow_goto h [] _ _ _)

end

/-! ### Branches -/

theorem dirCtr_congr {c d : Core} (h : d.dirctr = c.dirctr) (j : Nat) : dirCtr d j = dirCtr c j := by
  simp only [dirCtr, h]

/-- The direction counter of a branch moves by one towards the outcome, the others stay (R79). -/
theorem dirCtr_dirUpdate (c : Core) (n j : Nat) (taken : Bool) (h : smWf c.dirctr = true) :
    dirCtr (dirUpdate c n taken) j =
      if j = n then (if taken then Nat.min 3 (dirCtr c n + 1) else dirCtr c n - 1) else dirCtr c j := by
  have hread : ∀ m : Nat, m ≤ 3 → (BitVec.ofNat 2 m ^^^ 1#2 ^^^ 1#2).toNat = m := by decide
  have hle : dirCtr c n ≤ 3 := Nat.le_of_lt_succ (BitVec.isLt _)
  by_cases hj : j = n
  · subst hj
    simp only [dirUpdate, if_true]
    rw [dirCtr, smGet_smPut_self _ _ _ h]
    refine hread _ ?_
    split
    · exact Nat.min_le_left _ _
    · omega
  · simp only [dirUpdate, if_neg hj]
    rw [dirCtr, smGet_smPut_ne _ _ _ _ h hj, dirCtr]

/-- Settles O18: the thread and the counters that the flow of the transfer answers are those that its issue leaves. -/
theorem branches : Obligations.Branches := by
  unfold Obligations.Branches
  intro s i k c t cc a taken d12 d14 an goes
  have hgoes : ∀ {op : Instr} {cont : Option IAddr} {annul : Bool} {dc : SMap 2}, exec op s = .next (issueOp i op s) →
      (Quiet s i op k c t → LeavesSlot s i op k c t [] dc (.still c t) cont annul 0) →
      ((t.pb = true ∨ ∀ b e h, op ≠ .bCc i b e h) → dc = c.dirctr) → goes op cont annul := by
    intro op cont annul dc hexec hleaves hdc hq
    obtain ⟨v, d, hthread, hslot, h1, h2, h3, hpc, hadv, hfl, -, hst, hbank, -, -, hd⟩ := (hleaves hq).thread
    exact ⟨_, v, d, hexec, hthread, hslot, h1, h2, h3, hpc, hadv, hfl.trans (List.append_nil _), hd, hst, hbank,
      fun j hj => dirCtr_congr ((hleaves hq).core.1.trans (hdc hj)) j⟩
  refine ⟨fun hcc => hgoes rfl (leavesSlot_bCc · hcc) ?_, fun hcc hpb hwf hq => ?_,
    hgoes rfl leavesSlot_bra fun _ => rfl, hgoes rfl leavesSlot_jmp fun _ => rfl⟩
  · rintro (hpb | hne)
    · simp [branchCtrs, hpb]
    · exact absurd rfl (hne cc a d12)
  · obtain ⟨hd, -⟩ := (leavesSlot_bCc hq hcc).core
    have hdir : ∀ m, dirCtr ((issueOp i (.bCc i cc a d12) s).core i.core) m = _ := fun m =>
      (dirCtr_congr (d := (issueOp i (.bCc i cc a d12) s).core i.core)
        (c := dirUpdate c ((t.pc.toNat + i.syl.toNat) % 1024) taken) (by simpa [branchCtrs, hpb] using hd) m).trans
        (dirCtr_dirUpdate c _ m taken hwf)
    exact ⟨_, rfl, (hdir _).trans (if_pos rfl), fun m hm => (hdir m).trans (if_neg hm)⟩

/-! ### Calls and returns -/

section
variable {s : State} {i : Site} {op : Instr} {k : Nat} {c : Core} {t : Thread}

/-- The return address of a call (R78). -/
def backOf (i : Site) (c : Core) (t : Thread) : IAddr :=
  BitVec.ofNat 14 (t.pc.toNat + i.syl.toNat + 1 + bundleSize c.imem.cells (t.pc.toNat + i.syl.toNat + 1))

/-- No exception where a windowed call needs no spill, or finds room for it (R131). -/
def SpillsWell (c : Core) (k : Nat) (t : Thread) (window : Bool) : Prop :=
  window = true → t.res = 2 → t.spp.toNat + 16 ≤ t.splim.toNat ∧ (c.kind = .signal → k ≠ 3)

/-- A call leaves its return address on its way to A15 and a delay slot to come (R78). -/
theorem leavesSlot_call {inE1 window : Bool} {tgt : IAddr} {w : Turn} {q : BitVec 2} (h : Quiet s i op k c t)
    (hm : ∃ f, opMeaning op = some (i, f) ∧
      f (viewOf i op k c t) = callOut (viewOf i op k c t) false inE1 window tgt)
    (hsp : SpillsWell c k t window) (hw : TurnsAs c k t (fun d => if window then windowCall d k t else (d, 0)) w)
    (hq : (if window then 1 else 0) = q) :
    LeavesSlot s i op k c t [(.a 15 ((backOf i c t).setWidth 24), 1)] c.dirctr w (some tgt) false q := by
  subst hq
  obtain ⟨f, hm, hf⟩ := hm
  have hexcs : (callOut (viewOf i op k c t) false inE1 window tgt).excs = [] := by
    refine if_neg fun hx => ?_
    simp only [viewOf, Bool.and_eq_true, Bool.or_eq_true, beq_iff_eq] at hx
    obtain ⟨⟨hwin, hr⟩, hbad⟩ := hx
    obtain ⟨hroom, hl3⟩ := hsp hwin hr
    rcases hbad with ⟨hk, h3⟩ | hfull
    · exact hl3 hk h3
    · exact absurd (of_decide_eq_true hfull) (Nat.not_lt.2 hroom)
  exact leavesSlot_of_flow h hm hf ⟨rfl, hexcs, rfl, rfl⟩ rfl (by simp) (fun _ => rfl) (flow_call h _ _ _ _ _ hw)

/-- No exception where a windowed return needs no fill, or finds a pair of frames (R131). -/
def FillsWell (t : Thread) (window : Bool) : Prop :=
  window = true → t.res = 0 → t.spbase.toNat + 16 ≤ t.spp.toNat

/-- A return goes to A15 behind its delay slot (R78). -/
theorem leavesSlot_ret {window : Bool} {w : Turn} {q : BitVec 2} (h : Quiet s i op k c t)
    (hm : opMeaning op = some (i, fun x => retOut x false window)) (hsp : FillsWell t window)
    (hw : TurnsAs c k t (fun d => if window then windowRet d k t else (d, 0)) w) (hq : (if window then 3 else 0) = q) :
    LeavesSlot s i op k c t [] c.dirctr w (some ((smGet t.a 15).truncate 14)) false q := by
  subst hq
  have hexcs : (retOut (viewOf i op k c t) false window).excs = [] := by
    refine if_neg fun hx => ?_
    simp only [viewOf, Bool.and_eq_true, beq_iff_eq] at hx
    obtain ⟨⟨hwin, hr⟩, hempty⟩ := hx
    exact absurd (of_decide_eq_true hempty) (Nat.not_lt.2 (hsp hwin hr))
  exact leavesSlot_of_flow h hm rfl ⟨rfl, hexcs, rfl, rfl⟩ rfl (by simp) (fun _ => rfl) (flow_ret h _ _ _ _ hw)

end

/-- Settles O19: the window is turned, or not, in front of the delay slot, and the rest of the thread stays. -/
theorem callsAndReturns : Obligations.CallsAndReturns := by
  unfold Obligations.CallsAndReturns
  intro s i k c t d14 an after ret turns still call callo
  have hturns : ∀ (w : Turn) {op : Instr} {tgt : IAddr} {q : BitVec 2} {ws : List (RegW × Nat)},
      exec op s = .next (issueOp i op s) → (Quiet s i op k c t → LeavesSlot s i op k c t ws c.dirctr w (some tgt) false q) →
      turns op tgt q ws (fun e v => v.res = w.res ∧ v.spp = w.spp ∧ v.d = w.d ∧ e.x = w.x) := by
    intro w op tgt q ws hexec hleaves hq
    obtain ⟨v, d, hthread, hslot, h1, h2, h3, hpc, -, hfl, hwp, hst, hbank, hr, hs, hd⟩ := (hleaves hq).thread
    exact ⟨_, v, d, hexec, hthread, hslot, h1, h2, h3, hpc, hfl, hwp, hst, hbank, hr, hs, hd, (hleaves hq).core.2⟩
  have hstill := turnsAs_still c k t
  have hcall : ∀ {op : Instr} {tgt : IAddr} {inE1 : Bool}, exec op s = .next (issueOp i op s) →
      (∃ f, opMeaning op = some (i, f) ∧ f (viewOf i op k c t) = callOut (viewOf i op k c t) false inE1 false tgt) →
      call op tgt := fun hexec hm => hturns (.still c t) hexec (leavesSlot_call · hm (fun h => by cases h) hstill rfl)
  have hcallo : ∀ {op : Instr} {tgt : IAddr} {inE1 : Bool}, exec op s = .next (issueOp i op s) →
      (∃ f, opMeaning op = some (i, f) ∧ f (viewOf i op k c t) = callOut (viewOf i op k c t) false inE1 true tgt) →
      callo op tgt := fun hexec hm =>
    ⟨fun hres => hturns { Turn.still c t with res := t.res + 1 } hexec
        (leavesSlot_call · hm (fun _ hr => absurd hr hres) (windowCall_counts hres) rfl),
      fun hres hroom hl3 => hturns (spilled c t) hexec
        (leavesSlot_call · hm (fun _ _ => ⟨hroom, hl3⟩) (windowCall_spills hres) rfl)⟩
  refine ⟨hcall rfl ⟨_, rfl, rfl⟩, hcall rfl ⟨_, rfl, rfl⟩, hcallo rfl ⟨_, rfl, rfl⟩, hcallo rfl ⟨_, rfl, rfl⟩, ?_,
    fun hres => ?_, fun hres hroom hq => ?_⟩
  · exact hturns (.still c t) rfl (leavesSlot_ret · rfl (fun h => by cases h) hstill rfl)
  · exact hturns { Turn.still c t with res := t.res - 1 } rfl
      (leavesSlot_ret · rfl (fun _ hr => absurd hr hres) (windowRet_counts hres) rfl)
  · obtain ⟨u, v, d, hexec, hthread, hslot, h1, h2, h3, hpc, hfl, hwp, hst, hbank, hr, hs, hd, hx⟩ :=
      hturns (filled c t) rfl (leavesSlot_ret · rfl (fun _ _ => hroom) (windowRet_fills hres) rfl) hq
    simp only [filled, Turn.still, frameBelow] at hr hs hd hx
    exact ⟨u, v, d, hexec, hthread, hslot, h1, h2, h3, hpc, hfl, hwp, hst, hbank, hr.trans hres, hs, hx, hd⟩

/-! ### Loops, repetition and the predictors -/

/-- What `flow` answers of a transfer that changes its thread alone, with bubbles behind. -/
def threadOut (c : Core) (g : Thread → Thread) (bubbles : Nat) : FlowOut :=
  { x := c.x, dirctr := c.dirctr, flushed := c.flushed, thread := g, bubbles := bubbles }

/-- The thread behind a LOOP that starts its body at `next`, on a free level 0 (R87, R88). -/
def inLoop (l : LoopLvl) (next : Nat) (u : Thread) : Thread := { goSeq u next with loop0 := l }

/-- The thread behind a REP that repeats the bundle at `next` (R95). -/
def inRep (n : Nat) (intr : Bool) (next : Nat) (u : Thread) : Thread := { goSeq u next with rep := some ⟨n, intr, true⟩ }

/-- The thread at `next`, its return stack `st` (R81). -/
def withStackAt (st : SMap 14 × BitVec 3) (next : Nat) (u : Thread) : Thread :=
  { goSeq u next with rstk := st.1, rsp := st.2 }

/-- The thread at `next`, its predictor bit `b` (R83). -/
def withPb (b : Bool) (next : Nat) (u : Thread) : Thread := { goSeq u next with stat := setBit u.stat 11 b }

/-- What FLUSHP's flow answers (R83). -/
def flushOut (c : Core) (next : Nat) : FlowOut :=
  { x := c.x, dirctr := [], flushed := c.flushed, thread := withStackAt ([], 0) next, bubbles := 4 }

/-- What the flow of a LOOP answers that skips its body (R91): the discarded bundles count (R101). -/
def skipOut (c : Core) (flushed : Nat) (st : SMap 14 × BitVec 3) (next : Nat) : FlowOut :=
  { x := c.x, dirctr := c.dirctr, flushed := flushed, thread := withStackAt st next, bubbles := 5 }

section
variable {s : State} {i : Site} {op : Instr} {k : Nat} {c : Core} {t : Thread}

theorem flow_loop (h : Quiet s i op k c t) (m : Nat) {n : Nat} (hn : n ≠ 0) (reg : Bool) (tl : IAddr) :
    FlowsAs c k t [] m (.loop n reg tl)
      (threadOut c (inLoop (loopOf c.imem.cells reg n (t.pc.toNat + m) tl.toNat) (t.pc.toNat + m)) 0) := by
  have hloop : flowLoop (begun c k t []) k t t.pc (t.pc.toNat + m) n reg tl = (onThread (begun c k t []) k (fun u =>
      startLoop (goSeq u (t.pc.toNat + m)) (loopOf c.imem.cells reg n (t.pc.toNat + m) tl.toNat)), 0) := if_neg hn
  unfold FlowsAs flow
  dsimp only
  rw [hloop]
  refine Prod.ext (onThread_congr (begun c k t []) _ _ _ fun u hu => ?_) rfl
  have : u = sent t [] t := Option.some.inj (hu.symm.trans (begun_thread h.thread []))
  have hfree : (goSeq (sent t [] t) (t.pc.toNat + m)).loop0.act = false := h.loop0
  rw [this]
  exact if_neg (by simp [hfree])

theorem flow_loop_skip (m : Nat) {n : Nat} (hn : n = 0) (reg : Bool) (tl : IAddr) :
    ∃ fl st, FlowsAs c k t [] m (.loop n reg tl)
      (skipOut c fl st (tl.toNat + bundleSize c.imem.cells tl.toNat)) := by
  subst hn
  generalize hp : frontAtRedirect (dcEnv (begun c k t []) t) (dcEnv (begun c k t []) t) t t.pc.toNat false = p
  have hloop : flowLoop (begun c k t []) k t t.pc (t.pc.toNat + m) 0 reg tl =
      (addFlushed (onThread (begun c k t []) k (fun u =>
        (goSeq u (tl.toNat + bundleSize c.imem.cells tl.toNat)).withStack p)) p.held, 5) := by
    rw [← hp, flowLoop, if_pos rfl]
    rfl
  refine ⟨ctrAdd 48 c.flushed p.held, (p.rstk, p.rsp), ?_⟩
  unfold FlowsAs flow
  dsimp only
  rw [hloop]
  rfl

theorem flow_rep (m : Nat) {n : Nat} (hn : n ≠ 0) (intr : Bool) :
    FlowsAs c k t [] m (.rep n intr) (threadOut c (inRep n intr (t.pc.toNat + m)) 0) := by
  have hrep : flowRep (begun c k t []) k t (t.pc.toNat + m) n intr =
      (onThread (begun c k t []) k (inRep n intr (t.pc.toNat + m)), 0) := if_neg hn
  unfold FlowsAs flow
  dsimp only
  rw [hrep]
  rfl

theorem flow_rep_skip (m : Nat) {n : Nat} (hn : n = 0) (intr : Bool) :
    ∃ st, FlowsAs c k t [] m (.rep n intr)
      (threadOut c (withStackAt st (t.pc.toNat + m + bundleSize c.imem.cells (t.pc.toNat + m))) 1) := by
  subst hn
  generalize hu : decoded (begun c k t []) t (t.pc.toNat + m) = u
  have hrep : flowRep (begun c k t []) k t (t.pc.toNat + m) 0 intr = (onThread (begun c k t []) k
      (withStackAt (u.rstk, u.rsp) (t.pc.toNat + m + bundleSize c.imem.cells (t.pc.toNat + m))), 1) := by
    rw [flowRep, if_pos rfl, passDc, onThread_onThread, hu]
    rfl
  refine ⟨(u.rstk, u.rsp), ?_⟩
  unfold FlowsAs flow
  dsimp only
  rw [hrep]
  rfl

/-- Behind a bundle in no delay slot, loop or REP, control goes straight on. -/
theorem flowOn_straight {u : Thread} (h1 : u.dslot = none) (h2 : u.rep = none) (h3 : u.loop0.act = false)
    (h4 : u.loop1.act = false) (a : IAddr) (next : Nat) : flowOn u a next = (goSeq u next, 0) := by
  have ht : tailCommit u a = (u, none, 0) := by simp [tailCommit, loopsPass, LoopLvl.hit, h3, h4]
  simp [flowOn, h2, ht, h1, goOn]

/-- The flow of a bundle that changes its thread by `g` and goes straight on. -/
theorem straight_flow (h : Quiet s i op k c t) {d : Core} (hd : d.threads[k]? = some (sent t [] t)) {g : Thread → Thread}
    (h1 : (g (sent t [] t)).dslot = t.dslot) (h2 : (g (sent t [] t)).rep = t.rep)
    (h3 : (g (sent t [] t)).loop0 = t.loop0) (h4 : (g (sent t [] t)).loop1 = t.loop1) (n : Nat) :
    (match (slotRedirect (onThread d k g) k t).threads[k]? with
      | some u => (onThread (slotRedirect (onThread d k g) k t) k (fun _ => (flowOn u t.pc n).1), (flowOn u t.pc n).2 + 4, 0)
      | none => (slotRedirect (onThread d k g) k t, 0, 0)) = (onThread d k (fun u => goSeq (g u) n), 4, 0) := by
  have hslot : slotRedirect (onThread d k g) k t = onThread d k g := by simp only [slotRedirect, h.dslot]
  have hu : (onThread d k g).threads[k]? = some (g (sent t [] t)) := by simp [onThread, hd]
  rw [hslot, hu]
  dsimp only
  rw [flowOn_straight (h1.trans h.dslot) (h2.trans h.rep) (h3 ▸ h.loop0) (h4 ▸ h.loop1), onThread_onThread]
  refine Prod.ext (onThread_congr _ _ _ _ fun u hu => ?_) rfl
  rw [Option.some.inj (hu.symm.trans hd)]

theorem flow_barp (h : Quiet s i op k c t) (m : Nat) (b : Bool) :
    FlowsAs c k t [] m (.barp b) (threadOut c (withPb b (t.pc.toNat + m)) 4) :=
  straight_flow h (begun_thread h.thread []) (g := fun u => { u with stat := setBit u.stat 11 b }) rfl rfl rfl rfl _

theorem flow_flushp (h : Quiet s i op k c t) (m : Nat) :
    FlowsAs c k t [] m .flushp (flushOut c (t.pc.toNat + m)) :=
  straight_flow h (d := { begun c k t [] with dirctr := [] }) (begun_thread h.thread [])
    (g := fun u => { u with rstk := [], rsp := 0 }) rfl rfl rfl rfl _

/-- A change of a thread that keeps its registers, what is on its way and whether it runs. -/
structure Keeps (g : Thread → Thread) : Prop where
  flight : ∀ u, (g u).flight = u.flight
  d : ∀ u, (g u).d = u.d
  bank : ∀ u, sameBank u (g u)
  dslot : ∀ u, (g u).dslot = u.dslot
  trap : ∀ u, (g u).trapDue = u.trapDue
  stop : ∀ u, (g u).stopReq = u.stopReq
  tstate : ∀ u, (g u).tstate = u.tstate
  held : ∀ u, (g u).held = u.held

/-- A bank that stays: each register as it was. -/
theorem sameBank_refl (u : Thread) : sameBank u u := by simp [sameBank]

theorem keeps_inLoop (l : LoopLvl) (n : Nat) : Keeps (inLoop l n) :=
  ⟨fun _ => rfl, fun _ => rfl, sameBank_refl, fun _ => rfl, fun _ => rfl, fun _ => rfl, fun _ => rfl, fun _ => rfl⟩

theorem keeps_inRep (m : Nat) (b : Bool) (n : Nat) : Keeps (inRep m b n) :=
  ⟨fun _ => rfl, fun _ => rfl, sameBank_refl, fun _ => rfl, fun _ => rfl, fun _ => rfl, fun _ => rfl, fun _ => rfl⟩

theorem keeps_withStackAt (st : SMap 14 × BitVec 3) (n : Nat) : Keeps (withStackAt st n) :=
  ⟨fun _ => rfl, fun _ => rfl, sameBank_refl, fun _ => rfl, fun _ => rfl, fun _ => rfl, fun _ => rfl, fun _ => rfl⟩

theorem keeps_withPb (b : Bool) (n : Nat) : Keeps (withPb b n) :=
  ⟨fun _ => rfl, fun _ => rfl, sameBank_refl, fun _ => rfl, fun _ => rfl, fun _ => rfl, fun _ => rfl, fun _ => rfl⟩

/-- A flow that keeps what is on its way and asks for no dispatch keeps its thread running. -/
theorem Keeps.goesOn {r : FlowOut} (hk : Keeps r.thread) (h : Quiet s i op k c t)
    (hdue : ∀ p ∈ t.flight, t.adv + r.bubbles < p.due) : r.GoesOn t [] := by
  refine ⟨fun p hp => ?_, (hk.trap _).trans h.trap, (hk.stop _).trans h.stop, hk.tstate, hk.held⟩
  rw [hk.flight] at hp
  rcases List.mem_append.1 hp with hp | hp
  · exact hdue p hp
  · simp [pends] at hp

/-- The issue leaves the thread and the direction counters that `flow` answers; a counter that comes to its limit may end the
thread's wait beside. -/
theorem leaves_flow {f : IssueCtx → OpOut} (h : Quiet s i op k c t) (hm : opMeaning op = some (i, f)) {p : OpOut}
    (hp : f (viewOf i op k c t) = p) {kf : Ctl} (ht : Transfers p [] kf) (hrep : p.isRep = true → i.syl = 0)
    (hctl : ∀ d, doCtl d k (some kf) = d) {r : FlowOut} (hflow : FlowsAs c k t [] (i.syl.toNat + 1) kf r)
    (hk : Keeps r.thread) (hdue : ∀ p ∈ t.flight, t.adv + r.bubbles < p.due) :
    ∃ v ts, (issueOp i op s).threadAt i.core k = some v ∧ v = { r.after t [] with tstate := ts } ∧ v.flight = t.flight ∧
      v.d = t.d ∧ sameBank t v ∧ v.dslot = none ∧ ((issueOp i op s).core i.core).dirctr = r.dirctr := by
  have hthread := r.behind_thread h.thread []
  have hfl : (r.thread (sent t [] t)).flight = t.flight := (hk.flight _).trans (List.append_nil _)
  have hsl : (r.thread (sent t [] t)).dslot = none := (hk.dslot _).trans h.dslot
  have hcore : ∃ e ts, (issueOp i op s).cores[coreIdx i.core]? = some e ∧
      e.threads[k]? = some { r.after t [] with tstate := ts } ∧ e.dirctr = r.dirctr := by
    obtain ⟨e, he, rfl | ⟨-, rfl⟩⟩ := issueOp_flow h hm hp ht hrep hctl hflow (hk.goesOn h hdue)
    · exact ⟨_, _, he, hthread, rfl⟩
    · obtain ⟨w, ts, hw, rfl, -⟩ := raiseLine_thread _ 3 hthread
      obtain ⟨_, _, _, hraise⟩ := raiseLine_frame (r.behind c k t []) 3
      exact ⟨_, ts, he, hw, by rw [hraise]; rfl⟩
  obtain ⟨e, ts, he, hv, hdir⟩ := hcore
  exact ⟨_, ts, (threadAt_get he).trans hv, rfl, hfl, hk.d _, hk.bank _, hsl, (core_get he).symm ▸ hdir⟩

end

end Sys2Proof.Machine
end

section
/-! PROOFS. LOOP, REP, BARP, FLUSHP, SIGNAL and NOP (R83, R87–R91, R95, R96, R275). -/

namespace Sys2Proof.Machine
open Sys2Proof Sys2Proof.Laws

/-! ### SIGNAL and NOP -/

section
variable {s : State} {i : Site} {k : Nat} {c : Core} {t : Thread}

/-- SIGNAL waits in the store buffer (R275). -/
theorem issueOp_signal {u3 : BitVec 6} (h : Quiet s i (.signal i u3) k c t) (hu : u3.toNat < 8) :
    issueOp i (.signal i u3) s = issuedWith s i k [] (fun d =>
      withParts d c.x c.y [⟨c.nextId, .signal (u3.truncate 3)⟩] (c.nextId + 1) c.divu c.fdivu) := by
  have ho : opSignal i u3 (viewOf i (.signal i u3) k c t) = cOut true [] [.signal (u3.truncate 3)] false := by
    rw [opSignal, decide_eq_true hu]
  rw [issueOp_plain (s := s) (op := .signal i u3) h rfl _ rfl (by rw [ho]; rfl) (by rw [ho]; exact fun h => by cases h)
    (by rw [ho]; exact fun h => by cases h) (by rw [ho]; exact fun h => by cases h) (by rw [ho]; exact .inr rfl) [] c.x c.y
    [⟨c.nextId, .signal (u3.truncate 3)⟩] (c.nextId + 1) c.divu c.fdivu [] [] [], withRequests_nil]
  · rw [ho]; rfl
  · rw [ho]; simp [cOut]
  · simp
  · simp
  · intro d hx hy hsb hn hdu hfu
    rw [ho]
    have hnone : d.sb = [] := hsb.trans h.sb
    have hsame : ∀ e : Core, onThread e k (fun u => { u with flight := u.flight ++ pends t [] }) = e := fun e =>
      onThread_same _ _ _ (fun _ _ => by simp [pends])
    rw [hsame, withParts, ← hx, ← hy, ← hn, ← hdu, ← hfu]
    change applyAct (s.outside i.core) k t.adv t.seq false { core := d } (.signal (u3.truncate 3)) = _
    simp only [applyAct, hnone, List.nil_append]
  · exact fun _ => rfl

theorem issueOp_nop (h : Quiet s i (.nop i) k c t) : issueOp i (.nop i) s = landing s i k [] := by
  have ho : (opNop i (viewOf i (.nop i) k c t)).acts = [] ∧ (opNop i (viewOf i (.nop i) k c t)).excs = [] ∧
      (opNop i (viewOf i (.nop i) k c t)).vec = false ∧ (opNop i (viewOf i (.nop i) k c t)).fuse = false ∧
      (opNop i (viewOf i (.nop i) k c t)).isRep = false := by
    unfold opNop; split <;> exact ⟨rfl, rfl, rfl, rfl, rfl⟩
  obtain ⟨hacts, hexc, hvec, hf, hrep⟩ := ho
  exact issueOp_landing h rfl [] (by simp) _ rfl hacts hexc (by simp [hvec]) (by simp [hf]) (by simp [hrep])

/-- A bundle that only changes its core leaves the thread one bundle on. -/
theorem issuedWith_get (hc : s.cores[coreIdx i.core]? = some c) (ht : c.threads[k]? = some t)
    {g : Core → Core} (hg : (g c).threads = c.threads) (ws : List (RegW × Nat)) :
    (issuedWith s i k ws g).threadAt i.core k = some (nextThread (i.syl.toNat + 1) ws t) ∧
      (issuedWith s i k ws g).core i.core = onThread (nextCore (g c)) k (nextThread (i.syl.toNat + 1) ws) := by
  have hget : (issuedWith s i k ws g).cores[coreIdx i.core]? =
      some (onThread (nextCore (g c)) k (nextThread (i.syl.toNat + 1) ws)) := by
    rw [issuedWith, State.onCore_cores, modAt_get_self, hc]; rfl
  refine ⟨(threadAt_get hget).trans ?_, core_get hget⟩
  simp only [onThread, modAt_get_self, nextCore, spend_threads]
  show (g c).threads[k]?.map _ = _
  rw [hg, ht]
  rfl

end

/-! ### LOOP and REP -/

/-- The count and the displacement of a LOOP, the count of a REP and its interrupt bit (R87, R95). -/
def loopCount (t : Thread) : LoopF → Nat
  | .imm n _ => n.toNat + 1
  | .reg ds _ => (t.rd ds.toNat).toNat

def loopDisp : LoopF → Nat
  | .imm _ d => d.toNat
  | .reg _ d => d.toNat

def repCount (t : Thread) : RepF → Nat
  | .imm n _ => n.toNat + 1
  | .reg ds _ => (t.rd ds.toNat).toNat

def repIntr : RepF → Bool
  | .imm _ j => j
  | .reg _ j => j

/-- An operation of the C slot that is legal and transfers control does nothing else. -/
theorem cOut_transfers {ok : Bool} (h : ok = true) (reads : List WName) (kf : Ctl) (excl : Bool) :
    Transfers (cOut ok reads [.ctl kf] excl) [] kf ∧ (cOut ok reads [.ctl kf] excl).isRep = false := by
  subst h
  exact ⟨⟨rfl, rfl, rfl, rfl⟩, rfl⟩

/-- A legal LOOP transfers control with its count and its tail (R87). -/
theorem opLoop_transfers {i : Site} {f : LoopF} {x : IssueCtx} (hsize : x.size ≤ loopDisp f)
    (htail : x.pc.toNat + loopDisp f ≤ 0x3FFF) (hfree : x.t.loop0.act = false) :
    ∃ reg, Transfers (opLoop i f x) [] (.loop (loopCount x.t f) reg (BitVec.ofNat 14 (x.pc.toNat + loopDisp f))) ∧
      (opLoop i f x).isRep = false := by
  have hlegal : (decide (x.size ≤ loopDisp f) && decide (x.pc.toNat + loopDisp f ≤ 0x3FFF) &&
      !(x.t.loop0.act && x.t.loop1.act)) = true := by simp [hsize, htail, hfree]
  cases f with
  | imm n d => exact ⟨false, cOut_transfers hlegal _ _ _⟩
  | reg ds d => exact ⟨true, cOut_transfers hlegal _ _ _⟩

/-- A legal REP transfers control with its count (R95, R96). -/
theorem opRep_transfers {i : Site} {g : RepF} {x : IssueCtx} (h : repIntr g = true ∨ repCount x.t g ≤ 1024) :
    Transfers (opRep i g x) [] (.rep (repCount x.t g) (repIntr g)) := by
  cases g with
  | imm n j => exact ⟨rfl, rfl, rfl, rfl⟩
  | reg ds j =>
    have hlegal : (j || decide ((x.t.rd ds.toNat).toNat ≤ 1024)) = true := by
      rw [Bool.or_eq_true, decide_eq_true_eq]
      exact h
    obtain ⟨⟨h1, h2, h3, h4⟩, -⟩ := cOut_transfers hlegal [dName x.t ds.toNat] (.rep (x.t.rd ds.toNat).toNat j) true
    exact ⟨h1, h2, h3, h4⟩

/-! ### What each of them leaves -/

/-- The operation completes; its thread keeps its registers and what is on its way, no delay slot comes, and `post` holds. -/
def Leaves (s : State) (i : Site) (op : Instr) (k : Nat) (t : Thread) (post : Core → Thread → Prop) : Prop :=
  ∃ u v, exec op s = .next u ∧ u.threadAt i.core k = some v ∧ v.flight = t.flight ∧ v.d = t.d ∧ sameBank t v ∧
    v.dslot = none ∧ post (u.core i.core) v

section
variable {s : State} {i : Site} {k : Nat} {c : Core} {t : Thread} {f : LoopF} {g : RepF}

theorem loop_starts (h : Quiet s i (.loop i f) k c t) (hsize : i.syl.toNat + 1 ≤ loopDisp f)
    (htail : t.pc.toNat + loopDisp f ≤ 0x3FFF) (hne : loopCount t f ≠ 0) :
    Leaves s i (.loop i f) k t (fun _ v => v.pc = BitVec.ofNat 14 (t.pc.toNat + i.syl.toNat + 1) ∧ v.loop1 = t.loop1 ∧
      v.loop0.act = true ∧ v.loop0.run = BitVec.ofNat 14 (loopCount t f) ∧
      v.loop0.head = BitVec.ofNat 14 (t.pc.toNat + i.syl.toNat + 1) ∧
      v.loop0.tail = BitVec.ofNat 14 (t.pc.toNat + loopDisp f) ∧ v.adv = t.adv + 1) := by
  obtain ⟨reg, ht, hrep⟩ := opLoop_transfers (i := i) (x := viewOf i (.loop i f) k c t) hsize htail h.loop0
  obtain ⟨v, ts, hv, rfl, hfl, hd, hbank, hds, -⟩ := leaves_flow h rfl rfl ht (by simp [hrep]) (fun _ => rfl)
    (flow_loop h _ hne reg _) (keeps_inLoop _ _) h.due
  have hcut : BitVec.ofNat 14 (BitVec.ofNat 14 (t.pc.toNat + loopDisp f)).toNat = BitVec.ofNat 14 (t.pc.toNat + loopDisp f) := by
    rw [BitVec.ofNat_toNat, BitVec.setWidth_eq]
  exact ⟨_, _, rfl, hv, hfl, hd, hbank, hds, rfl, rfl, rfl, rfl, rfl, hcut, rfl⟩

theorem loop_skips (h : Quiet s i (.loop i f) k c t) (hdue : ∀ p ∈ t.flight, t.adv + 5 < p.due)
    (hsize : i.syl.toNat + 1 ≤ loopDisp f) (htail : t.pc.toNat + loopDisp f ≤ 0x3FFF) (hz : loopCount t f = 0) :
    Leaves s i (.loop i f) k t (fun _ v => v.loop0 = t.loop0 ∧ v.loop1 = t.loop1 ∧ v.adv = t.adv + 6 ∧
      v.pc = BitVec.ofNat 14 (t.pc.toNat + loopDisp f + bundleSize c.imem.cells (t.pc.toNat + loopDisp f))) := by
  obtain ⟨reg, ht, hrep⟩ := opLoop_transfers (i := i) (x := viewOf i (.loop i f) k c t) hsize htail h.loop0
  have htl : (BitVec.ofNat 14 (t.pc.toNat + loopDisp f)).toNat = t.pc.toNat + loopDisp f := by
    rw [BitVec.toNat_ofNat, Nat.mod_eq_of_lt (by omega)]
  obtain ⟨fl, st, hflow⟩ := flow_loop_skip (c := c) (k := k) (t := t) (i.syl.toNat + 1) hz reg
    (BitVec.ofNat 14 (t.pc.toNat + loopDisp f))
  rw [htl] at hflow
  obtain ⟨v, ts, hv, rfl, hfl, hd, hbank, hds, -⟩ := leaves_flow h rfl rfl ht (by simp [hrep]) (fun _ => rfl)
    hflow (keeps_withStackAt _ _) hdue
  refine ⟨_, _, rfl, hv, hfl, hd, hbank, hds, ?_, ?_, ?_, ?_⟩ <;> rfl

theorem rep_starts (h : Quiet s i (.rep i g) k c t) (hsyl : i.syl = 0) (hleg : repIntr g = true ∨ repCount t g ≤ 1024)
    (hne : repCount t g ≠ 0) :
    Leaves s i (.rep i g) k t (fun _ v => v.pc = BitVec.ofNat 14 (t.pc.toNat + i.syl.toNat + 1) ∧ v.adv = t.adv + 1 ∧
      v.rep = some ⟨repCount t g, repIntr g, true⟩) := by
  have ht := opRep_transfers (i := i) (x := viewOf i (.rep i g) k c t) hleg
  obtain ⟨v, ts, hv, rfl, hfl, hd, hbank, hds, -⟩ := leaves_flow h rfl rfl ht (fun _ => hsyl) (fun _ => rfl)
    (flow_rep _ hne _) (keeps_inRep _ _ _) h.due
  exact ⟨_, _, rfl, hv, hfl, hd, hbank, hds, rfl, rfl, rfl⟩

theorem rep_skips (h : Quiet s i (.rep i g) k c t) (hdue : ∀ p ∈ t.flight, t.adv + 1 < p.due) (hsyl : i.syl = 0)
    (hleg : repIntr g = true ∨ repCount t g ≤ 1024) (hz : repCount t g = 0) :
    Leaves s i (.rep i g) k t (fun _ v => v.rep = none ∧ v.adv = t.adv + 2 ∧ v.pc = BitVec.ofNat 14
      (t.pc.toNat + i.syl.toNat + 1 + bundleSize c.imem.cells (t.pc.toNat + i.syl.toNat + 1))) := by
  have ht := opRep_transfers (i := i) (x := viewOf i (.rep i g) k c t) hleg
  obtain ⟨st, hflow⟩ := flow_rep_skip (c := c) (k := k) (t := t) (i.syl.toNat + 1) hz (repIntr g)
  obtain ⟨v, ts, hv, rfl, hfl, hd, hbank, hds, -⟩ := leaves_flow h rfl rfl ht (fun _ => hsyl) (fun _ => rfl)
    hflow (keeps_withStackAt _ _) hdue
  exact ⟨_, _, rfl, hv, hfl, hd, hbank, hds, h.rep, rfl, rfl⟩

theorem barp_leaves {b : Bool} (h : Quiet s i (.barp i b) k c t) (hdue : ∀ p ∈ t.flight, t.adv + 4 < p.due) :
    Leaves s i (.barp i b) k t (fun _ v => v.stat = setBit t.stat 11 b ∧ v.adv = t.adv + 5) := by
  obtain ⟨v, ts, hv, rfl, hfl, hd, hbank, hds, -⟩ := leaves_flow h rfl rfl ⟨rfl, rfl, rfl, rfl⟩ (fun h => by cases h)
    (fun _ => rfl) (flow_barp h _ b) (keeps_withPb _ _) hdue
  exact ⟨_, _, rfl, hv, hfl, hd, hbank, hds, rfl, rfl⟩

theorem flushp_leaves (h : Quiet s i (.flushp i) k c t) (hdue : ∀ p ∈ t.flight, t.adv + 4 < p.due) :
    Leaves s i (.flushp i) k t (fun e v => (∀ j, dirCtr e j = 1) ∧ v.rstk = [] ∧ v.rsp = 0 ∧ v.adv = t.adv + 5) := by
  obtain ⟨v, ts, hv, rfl, hfl, hd, hbank, hds, hdir⟩ := leaves_flow h rfl rfl ⟨rfl, rfl, rfl, rfl⟩ (fun h => by cases h)
    (fun _ => rfl) (flow_flushp h _) (keeps_withStackAt _ _) hdue
  exact ⟨_, _, rfl, hv, hfl, hd, hbank, hds, fun j => by simp [dirCtr, hdir, flushOut], rfl, rfl, rfl⟩

theorem signal_leaves {u3 : BitVec 6} (h : Quiet s i (.signal i u3) k c t) (hu : u3.toNat < 8) :
    Leaves s i (.signal i u3) k t (fun e v => e.sb = [⟨c.nextId, .signal (u3.truncate 3)⟩] ∧ v.adv = t.adv + 1) := by
  obtain ⟨hv, hcore⟩ := issuedWith_get (i := i) h.core h.thread (g := fun d => withParts d c.x c.y
    [⟨c.nextId, .signal (u3.truncate 3)⟩] (c.nextId + 1) c.divu c.fdivu) rfl []
  exact ⟨_, _, congrArg Host.Outcome.next (issueOp_signal h hu), hv, List.append_nil _, rfl, sameBank_refl t, h.dslot,
    hcore ▸ rfl, rfl⟩

theorem nop_leaves (h : Quiet s i (.nop i) k c t) :
    Leaves s i (.nop i) k t (fun e v => e.sb = [] ∧ v.adv = t.adv + 1 ∧ v.stat = t.stat ∧
      v.pc = BitVec.ofNat 14 (t.pc.toNat + i.syl.toNat + 1)) := by
  obtain ⟨hv, hcore⟩ := issuedWith_get (i := i) h.core h.thread (g := fun d => d) rfl []
  exact ⟨_, _, congrArg Host.Outcome.next (issueOp_nop h), hv, List.append_nil _, rfl, sameBank_refl t, h.dslot,
    hcore ▸ h.sb, rfl, rfl, rfl⟩

end

/-- Settles O20: each operation by what its flow, or the store buffer, is left with. -/
theorem loopsAndBarriers : Obligations.LoopsAndBarriers := by
  unfold Obligations.LoopsAndBarriers
  intro s i k c t f g b u3 hdue after leaves count disp tail reps intr
  have hcount : count = loopCount t := by funext f; cases f <;> rfl
  have hdisp : disp = loopDisp := by funext f; cases f <;> rfl
  have hreps : reps = repCount t := by funext g; cases g <;> rfl
  have hintr : intr = repIntr := by funext g; cases g <;> rfl
  clear_value count disp reps intr
  subst hcount hdisp hreps hintr
  have hlate : ∀ n ≤ 5, ∀ p ∈ t.flight, t.adv + n < p.due := fun n hn p hp => Nat.lt_of_le_of_lt (by omega) (hdue p hp)
  exact ⟨fun hsize htail => ⟨fun hne h => loop_starts h hsize htail hne, fun hz h => loop_skips h hdue hsize htail hz⟩,
    fun hsyl hleg => ⟨fun hne h => rep_starts h hsyl hleg hne,
      fun hz h => rep_skips h (hlate 1 (by decide)) hsyl hleg hz⟩,
    fun h => barp_leaves h (hlate 4 (by decide)), fun h => flushp_leaves h (hlate 4 (by decide)),
    fun hu h => signal_leaves h hu, fun h => nop_leaves h⟩

end Sys2Proof.Machine
end

section
/-! PROOFS. The obstacle to the entry of precise exceptions (R117, R182): a bundle with a vector operation, legal or not, first
waits for the vector unit's power, and the condition `Quiet` says nothing of that power. -/

namespace Sys2Proof.Machine
open Sys2Proof Sys2Proof.Laws

/-- A thread at level L2 whose next bundle stands at 0x10. -/
def wakingThread : Thread := { pc := 0x10 }

/-- A signal core that runs it, its vector unit unpowered. -/
def unpoweredCore : Core :=
  { Core.signalReset with
    threads := (List.replicate 4 ({} : Thread)).set 2 wakingThread, halted := false, run := .lvl 2, l2act := true
    vpow := false }

/-- A device with that core. -/
def unpoweredState : State := { State.reset with cores := State.reset.cores.set 0 unpoweredCore }

/-- A whole bundle of one operation on that core. -/
def unpoweredSite : Site := ⟨.sig 0 0, 0, false, .last, false⟩

/-- The core stands ready for any operation. -/
theorem quiet_unpowered (op : Instr) : Quiet unpoweredState unpoweredSite op 2 unpoweredCore wakingThread where
  last := rfl
  bits := rfl
  form h := by cases h
  core := by decide
  thread := rfl
  run := rfl
  takes := by decide
  ready := by decide
  asm := rfl
  ghost := rfl
  brk := by decide
  steps := rfl
  due := by decide
  divu := rfl
  fdivu := rfl
  dslot := rfl
  rep := rfl
  micro := rfl
  loop0 := rfl
  loop1 := rfl
  past := rfl
  room := by decide
  trap := rfl
  stop := rfl
  sb := rfl
  waiting := by decide
  late := rfl
  marks := rfl
  imem := ⟨rfl, rfl⟩
  xmem := ⟨rfl, rfl⟩
  ymem := ⟨rfl, rfl⟩
  tables := ⟨rfl, rfl⟩
  ecc := by decide
  issued := by decide

/-- VADD, illegal at level L2, waits there for the vector unit: no exception is taken. -/
theorem vadd_waits_unpowered :
    ((issueOp unpoweredSite (.vadd unpoweredSite ⟨0, 0, 0, 0⟩) unpoweredState).core (.sig 0 0)).run = .lvl 2 := by decide

/-- Refutes O23: with the vector unit unpowered, VADD at level L2 waits for its power (R182) and level L3 does not begin. -/
theorem not_exceptionEntry : ¬ Obligations.ExceptionEntry := by
  unfold Obligations.ExceptionEntry
  intro hall
  obtain ⟨-, -, hvadd, -⟩ := hall unpoweredState unpoweredSite 2 unpoweredCore wakingThread {} ⟨0, 0, 0, 0⟩ ⟨.a0, 0, 0, 0, 0⟩
    0 0 false 0 none false 0 rfl (by decide) rfl
  obtain ⟨u, -, -, hexec, hrun, -⟩ := hvadd rfl (quiet_unpowered _)
  obtain rfl : issueOp unpoweredSite (.vadd unpoweredSite ⟨0, 0, 0, 0⟩) unpoweredState = u := Host.Outcome.next.inj hexec
  have hlvl : Running.lvl 2 = .lvl 3 := vadd_waits_unpowered.symm.trans hrun
  exact absurd hlvl (by decide)

end Sys2Proof.Machine
end

section
/-! PROOFS. Events inside a core that time brings (R57, R68, R121, R125, R136, R137, R182, R183, R197, R258). -/

namespace Sys2Proof.Machine
open Sys2Proof Sys2Proof.Laws

/-! ### A bundle that waits -/

/-- A change of a core that keeps what it waits for and whether it lives lets the waiting bundle go on where it waited for `k`. -/
theorem onCore_retryIf {s : State} {r : CoreRef} {c : Core} (hc : s.cores[coreIdx r]? = some c) {f : Core → Core}
    (hs : (f c).stall = c.stall) (hl : (f c).live = c.live) (k : Stall) :
    (s.onCore r f).retryIf r k = if c.stall = some k ∧ c.live = true then (s.onCore r f).retry r else s.onCore r f := by
  simp only [State.retryIf, core_onCore f hc, hs, hl, Bool.and_eq_true, decide_eq_true_eq]

/-- It stays as it is where no bundle waits. -/
theorem onCore_retryIf_none {s : State} {r : CoreRef} {c : Core} (hc : s.cores[coreIdx r]? = some c) {f : Core → Core}
    (hs : (f c).stall = none) (k : Stall) : (s.onCore r f).retryIf r k = s.onCore r f := by
  simp [State.retryIf, core_onCore f hc, hs]

/-! ### Results of the units -/

/-- The level's thread with the owed result on its way (R68). -/
def owedTo (u : UnitPend) (ws : List RegW) (d : Core) : Core :=
  onThread d u.tid (fun t => { t with flight := t.flight ++ ws.map (fun w => { due := t.adv, seq := u.seq, w := w }) })

/-- A result for the level that runs is on its way. -/
theorem landUnit_running {c : Core} {u : UnitPend} (hl : c.live = true) (hr : c.run = .lvl u.tid) :
    landUnit c u = owedTo u u.ws c := by
  simp [landUnit, owedTo, hl, hr]

/-- A result for another level is in its register at once. -/
theorem landUnit_parked {c : Core} {u : UnitPend} {p : Nat} {v : Word} (hr : c.run ≠ .lvl u.tid) (hw : u.ws = [.d p v]) :
    landUnit c u = setLevel (owedTo u u.ws c) u.tid (fun t => { t with d := smPut t.d p v }) := by
  have hrun : (c.run == .lvl u.tid) = false := by simpa using hr
  simp only [landUnit, hrun, Bool.and_false, hw, owedTo]
  rfl

theorem landUnit_parked_thread {c : Core} {u : UnitPend} {p : Nat} {v : Word} {t : Thread} (hr : c.run ≠ .lvl u.tid)
    (hw : u.ws = [.d p v]) (ht : c.threads[u.tid]? = some t) :
    (landUnit c u).stall = c.stall ∧ ∃ y, (landUnit c u).threads[u.tid]? = some y ∧ y.d = smPut t.d p v := by
  rw [landUnit_parked hr hw]
  have howed : (owedTo u u.ws c).threads[u.tid]? =
      some { t with flight := t.flight ++ u.ws.map (fun w => { due := t.adv, seq := u.seq, w := w }) } := by
    simp [owedTo, onThread, ht]
  exact ⟨rfl, _, (modAt_get_self _ _ _).trans (congrArg _ howed), rfl⟩

/-! ### Window data -/

/-- Without words of a gather that page-faulted behind them, arrived words leave the registers. -/
theorem keepArrived_plain {rid : Nat} {t : Thread} (h : ∀ p ∈ t.flight, ∀ m q, p.w ≠ .load rid m (.kept q))
    (els : List (Nat × Word)) : keepArrived rid els t = t := by
  unfold keepArrived
  split
  next n hn =>
    obtain ⟨p, hp, hpn⟩ := List.exists_of_findSome?_eq_some hn
    split at hpn
    next r m q hpw =>
      split at hpn
      next hr => exact absurd (hr ▸ hpw) (h p hp m q)
      next => cases hpn
    next => cases hpn
  next => rfl

/-- The words of such a gather are written as they arrive (R197). -/
theorem keepArrived_kept {rid m q : Nat} {t : Thread} {p : Pend} (h : t.flight = [p]) (hw : p.w = .load rid m (.kept q))
    (els : List (Nat × Word)) : keepArrived rid els t = { t with v := putEls t.v (32 * q) els } := by
  simp [keepArrived, h, hw]

theorem keepArrived_d (rid : Nat) (els : List (Nat × Word)) (t : Thread) :
    (keepArrived rid els t).d = t.d ∧ (keepArrived rid els t).retbuf = t.retbuf := by
  unfold keepArrived
  split <;> exact ⟨rfl, rfl⟩

/-- What the oldest load's arrived words leave of the core and of their level's thread (R258). -/
theorem deliverInbox_thread {c : Core} {tid rid el : Nat} {w : Word} {rest : List (Nat × Nat × Nat × Word)} {t : Thread}
    (hin : c.inbox = (tid, rid, el, w) :: rest) (ht : c.threads[tid]? = some t) :
    (deliverInbox c).stall = c.stall ∧ (deliverInbox c).live = c.live ∧
      (deliverInbox c).inbox = c.inbox.filter (fun e => !(e.1 == tid && e.2.1 == rid)) ∧
      (deliverInbox c).threads[tid]? = some (keepArrived rid
        ((c.inbox.filter (fun e => e.1 == tid && e.2.1 == rid)).map (fun e => e.2.2))
        { t with retbuf := t.retbuf ++ (c.inbox.filter (fun e => e.1 == tid && e.2.1 == rid)).map (fun e => e.2) }) := by
  have hmine : c.inbox.filter (fun e => e.1 == tid && e.2.1 == rid) =
      (tid, rid, el, w) :: rest.filter (fun e => e.1 == tid && e.2.1 == rid) := by simp [hin]
  have hrest : c.inbox.filter (fun e => !(e.1 == tid && e.2.1 == rid)) =
      rest.filter (fun e => !(e.1 == tid && e.2.1 == rid)) := by simp [hin]
  have hd : deliverInbox c = onThread { c with inbox := c.inbox.filter (fun e => !(e.1 == tid && e.2.1 == rid)) } tid
      (fun t => keepArrived rid ((c.inbox.filter (fun e => e.1 == tid && e.2.1 == rid)).map (fun e => e.2.2))
        { t with retbuf := t.retbuf ++ (c.inbox.filter (fun e => e.1 == tid && e.2.1 == rid)).map (fun e => e.2) }) := by
    rw [hmine, hrest]
    unfold deliverInbox
    rw [hin]
  rw [hd]
  exact ⟨rfl, rfl, rfl, by simp [onThread, ht]⟩

/-! ### Event lines -/

/-- The other lines stay as they are (R142). -/
theorem linePending_raiseLine_ne (c : Core) {n m : Nat} (h : m ≠ n) : linePending (raiseLine c n) m = linePending c m := by
  have hbit : (1#128 <<< n).getLsbD m = false := by
    rw [BitVec.getLsbD_shiftLeft, BitVec.getLsbD_one]
    simp; omega
  rw [linePending, raiseLine_evpend, BitVec.getLsbD_or, hbit, Bool.or_false, linePending]

/-! ### The lazy F sequence -/

/-- Values put for the elements of a list are read back. -/
theorem smGet_putEach {w : Nat} (g : Nat → BitVec w) (l : List Nat) (m : SMap w) (h : smWf m = true) (j : Nat) :
    smGet (smPutAll m (l.map (fun i => (i, g i)))) j = if j ∈ l then g j else smGet m j := by
  induction l generalizing m with
  | nil => simp [smPutAll]
  | cons i l ih =>
    have hcons : smPutAll m ((i :: l).map (fun i => (i, g i))) = smPutAll (smPut m i (g i)) (l.map (fun i => (i, g i))) := rfl
    rw [hcons, ih _ (smPut_wf _ _ _ h), smGet_smPut _ _ _ _ h]
    by_cases hj : j = i <;> by_cases hl : j ∈ l <;> simp [hj, hl]

/-- A word written marks no error and leaves none where none was. -/
theorem writeList_marks {w : Nat} (m : EMem w) (a : Nat) (vs : List (BitVec w)) (h : m.corr = [] ∧ m.unc = []) :
    (m.writeList a vs).corr = [] ∧ (m.writeList a vs).unc = [] := by
  induction vs generalizing m a with
  | nil => exact h
  | cons v vs ih => exact ih _ _ (by simp [EMem.write, h])

/-- X memory as the sequence for level `k` leaves it. -/
def lazyX (c : Core) (k : Nat) : EMem 14 :=
  if c.fownv && c.fown != k then c.x.writeList (fArea c c.fown) (fWords c) else c.x

theorem lazySaved_eq (c : Core) (k : Nat) : lazySaved c k = { c with x := lazyX c k } := by
  unfold lazySaved lazyX saveF
  split <;> rfl

theorem lazyX_marks {c : Core} (k : Nat) (h : c.x.corr = [] ∧ c.x.unc = []) :
    (lazyX c k).corr = [] ∧ (lazyX c k).unc = [] := by
  unfold lazyX
  split
  · exact writeList_marks _ _ _ h
  · exact h

theorem eccBad_area {c : Core} (h : c.x.unc = []) (d : Core) (k : Nat) : eccBad c 0 0 (areaWords d k) = none := by
  have hfind : (areaWords d k).find? (fun p => (c.marks p.1).unc.contains p.2) = none := by
    rw [List.find?_eq_none]
    intro p hp
    obtain ⟨j, -, rfl⟩ := List.mem_map.1 hp
    simp [Core.marks, h]
  simp only [eccBad, hfind, List.range_zero, List.find?_nil, Option.map_none]

theorem eccClean_area {c : Core} (h : c.x.corr = []) (d : Core) (k : Nat) :
    ∃ n, eccClean c 0 0 (areaWords d k) = { c with eccCorr := n } := by
  have hfilter : (areaWords d k).filter (fun p => (c.marks p.1).corr.contains p.2) = [] := by
    rw [List.filter_eq_nil_iff]
    intro p hp
    obtain ⟨j, -, rfl⟩ := List.mem_map.1 hp
    simp [Core.marks, h]
  exact ⟨_, by simp only [eccClean, hfilter]; rfl⟩

/-- Word `j` of the level's save area. -/
def areaWord (c : Core) (x : EMem 14) (k j : Nat) : Word := smGet x.cells (fArea c k + j)

/-- The F file as that area holds it. -/
def areaFile (c : Core) (x : EMem 14) (k : Nat) : SMap 28 :=
  smPutAll [] ((List.range 16).map (fun i => (i, areaWord c x k (2 * i + 1) ++ areaWord c x k (2 * i))))

/-- The core whose F file belongs to level `k` (R136, R137). -/
def lazyOwned (c : Core) (k n : Nat) : Core :=
  { c with
    x := lazyX c k, eccCorr := n, fown := k, fownv := true, f := areaFile c (lazyX c k) k
    fstat := areaWord c (lazyX c k) k 32 &&& 0x1F1F }

/-- What the sequence for level `k` leaves. -/
theorem lazyF_eq {c : Core} (k : Nat) (h : c.x.corr = [] ∧ c.x.unc = []) :
    ∃ n, lazyF c k = onThread ((lazyOwned c k n).spend (if c.fownv && c.fown != k then 20 else 10)) k
      (fun t => { t with stat := setBit t.stat 12 true }) := by
  obtain ⟨n, hn⟩ := eccClean_area (c := lazySaved c k) (by rw [lazySaved_eq]; exact (lazyX_marks k h).1) (lazySaved c k) k
  refine ⟨n, ?_⟩
  unfold lazyF
  dsimp only
  rw [hn, lazySaved_eq]
  simp only [restoreF, lazyOwned, areaFile, areaWord, fArea]

/-- Each F register is read from its two words. -/
theorem smGet_areaFile (c : Core) (x : EMem 14) (k : Nat) {i : Nat} (h : i < 16) :
    smGet (areaFile c x k) i = areaWord c x k (2 * i + 1) ++ areaWord c x k (2 * i) := by
  rw [areaFile, smGet_putEach _ _ _ rfl, if_pos (List.mem_range.2 h)]

/-- Bit 12 of a word that is set there. -/
theorem bitOf_setBit_self (w : Word) : bitOf (setBit w 12 true) 12 = true := by
  simp [bitOf, setBit]

/-- The sequence runs where the bundle of level `k` waits for it and no divide is owed (R136). -/
theorem exec_lazyF {s : State} {g : Fin 8} {n : Fin 9} {c : Core} {k : Nat} (hc : s.cores[coreIdx (.sig g n)]? = some c)
    (hstall : c.stall = some .lazyF) (hrun : c.run = .lvl k) (hlive : c.live = true) (hfd : c.fdivu = none)
    (hx : c.x.corr = [] ∧ c.x.unc = []) :
    exec (.lazyFSequence g n) s = .next ((s.onCore (.sig g n) (fun _ => lazyF c k)).retry (.sig g n)) := by
  obtain ⟨m, hm⟩ := lazyF_eq k hx
  have hbad : eccBad (lazySaved c k) 0 0 (areaWords c k) = none :=
    eccBad_area (by rw [lazySaved_eq]; exact (lazyX_marks k hx).2) c k
  have hretry := onCore_retryIf (k := .lazyF) (f := fun d => lazyF d k) hc (by rw [hm]; rfl) (by rw [hm]; rfl)
  rw [if_pos ⟨hstall, hlive⟩] at hretry
  rw [← onCore_congr (f := fun d => lazyF d k) hc rfl, ← hretry]
  show execLazyFSequence g n s = _
  unfold execLazyFSequence
  simp only [core_get hc, hstall, hrun, hlive, hfd, hbad, Bool.not_false, Bool.and_self, if_true]

/-- The level's thread and F file behind the sequence (R136, R137). -/
theorem lazyF_leaves {c : Core} {k : Nat} {t : Thread} (ht : c.threads[k]? = some t) (hx : c.x.corr = [] ∧ c.x.unc = []) :
    ∃ y, ((lazyF c k).fownv = true ∧ (lazyF c k).fown = k ∧ (lazyF c k).x = lazyX c k) ∧
      (lazyF c k).threads[k]? = some y ∧ bitOf y.stat 12 = true ∧ y.d = t.d ∧ sameBank t y ∧
      (lazyF c k).fstat = smGet (lazyX c k).cells (t.fsave.toNat + 32) &&& 0x1F1F ∧
      ∀ i, i < 16 → smGet (lazyF c k).f i = smGet (lazyX c k).cells (t.fsave.toNat + 2 * i + 1) ++
        smGet (lazyX c k).cells (t.fsave.toNat + 2 * i) := by
  obtain ⟨n, hn⟩ := lazyF_eq k hx
  have harea : fArea c k = t.fsave.toNat := by simp only [fArea, ht]
  have hthread : (lazyF c k).threads[k]? = some { t with stat := setBit t.stat 12 true } := by
    rw [hn]
    simp [onThread, lazyOwned, ht]
  have hown : (lazyF c k).fownv = true ∧ (lazyF c k).fown = k ∧ (lazyF c k).x = lazyX c k ∧
      (lazyF c k).fstat = areaWord c (lazyX c k) k 32 &&& 0x1F1F ∧ (lazyF c k).f = areaFile c (lazyX c k) k := by
    rw [hn]
    simp only [onThread, Core.spend, lazyOwned, and_self]
  obtain ⟨hv, ho, hx, hfs, hf⟩ := hown
  refine ⟨_, ⟨hv, ho, hx⟩, hthread, bitOf_setBit_self _, rfl, sameBank_refl t, ?_, fun i hi => ?_⟩
  · rw [hfs, areaWord, harea]
  · rw [hf, smGet_areaFile c _ k hi, areaWord, areaWord, harea, Nat.add_assoc]

section
variable {s : State} {r : CoreRef} {c : Core}

theorem exec_divideResultLands (hc : s.cores[coreIdx r]? = some c) {u : UnitPend} (hu : c.divu = some u) :
    exec (.divideResultLands r) s = .next ((s.onCore r (fun d => { landUnit d u with divu := none })).retryIf r .divider) := by
  show execDivideResultLands r s = _
  simp only [execDivideResultLands, core_get hc, hu]

theorem exec_divideSquareRootLands (hc : s.cores[coreIdx r]? = some c) {u : UnitPend} (hu : c.fdivu = some u) :
    exec (.divideSquareRootLands r) s =
      .next ((s.onCore r (fun d => { landUnit d u with fdivu := none })).retryIf r .fdivider) := by
  show execDivideSquareRootLands r s = _
  simp only [execDivideSquareRootLands, core_get hc, hu]

end

/-- Settles O24, event by event, a waiting bundle going on behind the change where its reason has ended. -/
theorem coreTimeEvents : Obligations.CoreTimeEvents := by
  unfold Obligations.CoreTimeEvents
  intro s r c g n hc again owed
  refine ⟨fun u hu hl hr => ?_, fun u hu hl hr => ?_, fun u p v t hu hr ht hw hs => ?_,
    fun tid rid el w rest t hin ht => ?_, fun htmr => ?_, fun hr hwin => ?_, fun hr => ?_, fun hv => ?_, fun hv => ?_,
    fun hv => ?_, fun k t hr hstall hrun hlive hfd ht hcorr hunc => ?_⟩
  · rw [exec_divideResultLands hc hu, onCore_retryIf hc (by rw [landUnit_running hl hr]; rfl)
      (by rw [landUnit_running hl hr]; rfl)]
    rw [onCore_congr (g := fun d => { owed u d with divu := none }) hc (by rw [landUnit_running hl hr]; rfl)]
  · rw [exec_divideSquareRootLands hc hu, onCore_retryIf hc (by rw [landUnit_running hl hr]; rfl)
      (by rw [landUnit_running hl hr]; rfl)]
    rw [onCore_congr (g := fun d => { owed u d with fdivu := none }) hc (by rw [landUnit_running hl hr]; rfl)]
  · obtain ⟨hst, y, hy, hd⟩ := landUnit_parked_thread hr hw ht
    rw [exec_divideResultLands hc hu, onCore_retryIf_none hc (hst.trans hs)]
    exact ⟨_, y, rfl, by rw [core_onCore _ hc], (threadAt_onCore _ hc).trans hy, hd⟩
  · obtain ⟨hst, hlv, hib, hth⟩ := deliverInbox_thread hin ht
    refine ⟨s.onCore r deliverInbox, _, congrArg Host.Outcome.next (onCore_retryIf hc hst hlv _), ?_,
      (threadAt_onCore _ hc).trans hth, (keepArrived_d _ _ _).2, (keepArrived_d _ _ _).1, fun hno => ?_, fun p m q hp hw => ?_⟩
    · rw [core_onCore _ hc, hib]
    · rw [keepArrived_plain (by exact hno)]
      exact sameBank_refl t
    · rw [keepArrived_kept (by exact hp) hw]
  · have hcore := core_onCore (fun d => if d.tmr = 0 then d else raiseLine { d with tmr := 0 } (timerLine d.kind)) hc
    rw [if_neg htmr] at hcore
    have hlt : timerLine c.kind < 128 := by cases c.kind <;> decide
    refine ⟨_, rfl, ?_⟩
    rw [hcore]
    change _ ∧ linePending _ (timerLine c.kind) = true ∧ ∀ m, m ≠ timerLine c.kind → _
    obtain ⟨_, _, _, hraise⟩ := raiseLine_frame { c with tmr := 0 } (timerLine c.kind)
    exact ⟨by rw [hraise], linePending_raiseLine _ hlt, fun m hm => linePending_raiseLine_ne _ hm⟩
  · subst hr
    exact congrArg Host.Outcome.next (onCore_congr hc (if_neg hwin))
  · subst hr
    rfl
  · exact congrArg Host.Outcome.next (onCore_congr hc (by simp [hv]))
  · exact congrArg Host.Outcome.next ((onCore_congr (g := fun d => d) hc (by simp [hv])).trans
      (by simp [State.onCore, State.onCoreAt]))
  · show execVectorUnitWake r s = _
    simp only [execVectorUnitWake, core_get hc, hv, if_true]
    exact congrArg Host.Outcome.next (onCore_retryIf hc rfl rfl _)
  · subst hr
    obtain ⟨y, hx, hy, hst, hd, hbank, hfs, hf⟩ := lazyF_leaves ht ⟨hcorr, hunc⟩
    exact ⟨_, y, exec_lazyF hc hstall hrun hlive hfd ⟨hcorr, hunc⟩, hx.1, hx.2.1, hx.2.2, hy, hst, hd, hbank, hfs, hf⟩

end Sys2Proof.Machine
end

section
/-! PROOFS. The dispatch of levels and contexts (R69, R124, R127, R141) and the trap taken at a dispatch point (R216). -/

namespace Sys2Proof.Machine
open Sys2Proof Sys2Proof.Laws

/-! ### The switch -/

/-- A thread that parks, `n` bundles behind its next one in DC (R69). -/
def parkedThread (c : Core) (n : Nat) (t : Thread) : Thread :=
  { t with
    repc := match t.rep with | some r => (if r.intr then BitVec.ofNat 14 r.left else 0) | none => 0
    rstk := (parkedStack c t n).1
    rsp := (parkedStack c t n).2
    tstate := if t.tstate = .running then .ready else t.tstate }

theorem park_eq (c : Core) (k n : Nat) : park c k n = onThread c k (parkedThread c n) := rfl

/-- Level L2 begins where it takes the core and is not active (R127). -/
def beginsL2 (c : Core) (k : Nat) : Bool := c.kind == .signal && k == 2 && !c.l2act

/-- A thread that takes the core as level or context `k` (R127, R136, R141). -/
def enteredThread (c : Core) (k : Nat) (t : Thread) : Thread :=
  let sig := c.kind == .signal
  let t1 := if sig && k != c.runShown then { t with stat := setBit t.stat 12 false } else t
  let t2 := if beginsL2 c k then { goTo t1 c.l2vec with dslot := none, rep := none, micro := none } else t1
  if sig then t2 else { t2 with tstate := .running }

/-- The core that `k` takes, the threads left aside. -/
def enteredCore (c : Core) (k : Nat) : Core :=
  ({ c with run := .lvl k, runShown := k, l2act := c.l2act || beginsL2 c k, fresh := true, brkPass := false } : Core).spend 5

theorem enter_eq (c : Core) (k : Nat) : enter c k = onThread (enteredCore c k) k (enteredThread c k) := rfl

/-- What entering keeps of a thread. -/
theorem enteredThread_keeps (c : Core) (k : Nat) (t : Thread) :
    (enteredThread c k t).d = t.d ∧ sameBank t (enteredThread c k t) ∧ (enteredThread c k t).xpc = t.xpc ∧
      (enteredThread c k t).xcause = t.xcause ∧ (enteredThread c k t).xaddr = t.xaddr ∧
      (enteredThread c k t).pc = (if beginsL2 c k then c.l2vec else t.pc) := by
  unfold enteredThread
  dsimp only
  split <;> split <;> split <;> exact ⟨rfl, sameBank_refl t, rfl, rfl, rfl, rfl⟩

theorem beginsL2_eq_true {c : Core} {k : Nat} (hk : c.kind = .signal) :
    beginsL2 c k = true ↔ k = 2 ∧ c.l2act = false := by
  simp [beginsL2, hk]

theorem beginsL2_context {c : Core} {k : Nat} (hk : c.kind ≠ .signal) : beginsL2 c k = false := by
  simp [beginsL2, hk]

/-- A change of the running level clears its FAV (R136). -/
theorem enteredThread_fav {c : Core} {k : Nat} (hk : c.kind = .signal) (h : k ≠ c.runShown) (t : Thread) :
    bitOf (enteredThread c k t).stat 12 = false := by
  have hsig : (c.kind == .signal && k != c.runShown) = true := by simp [hk, h]
  have hbit : bitOf (setBit t.stat 12 false) 12 = false := by simp [bitOf, setBit]
  unfold enteredThread
  simp only [hsig, if_true]
  split <;> split <;> exact hbit

theorem enteredThread_running {c : Core} {k : Nat} (hk : c.kind ≠ .signal) (t : Thread) :
    (enteredThread c k t).tstate = .running := by
  have hsig : (c.kind == .signal) = false := by simpa using hk
  simp [enteredThread, hsig]

/-- The core changes to another level or context. -/
theorem switchTo_lvl {c : Core} {k m : Nat} (hr : c.run = .lvl k) (h : m ≠ k) :
    switchTo c (.lvl m) = enter { park c k 1 with asm := [], ghost := [] } m := by
  have hne : Running.lvl m ≠ .lvl k := by simpa using h
  simp only [switchTo, hr, if_neg hne]

/-- The core behind that change. -/
def switched (c : Core) (k m : Nat) : Core := enter { park c k 1 with asm := [], ghost := [] } m

section
variable {c : Core} {k m : Nat} {t x : Thread}

theorem switched_threads : (switched c k m).threads =
    modAt (modAt c.threads k (parkedThread c 1)) m (enteredThread c m) := rfl

theorem switched_parks (ht : c.threads[k]? = some t) (h : m ≠ k) :
    (switched c k m).threads[k]? = some (parkedThread c 1 t) := by
  rw [switched_threads, modAt_get, if_neg h, modAt_get_self, ht, Option.map_some]

theorem switched_enters (hx : c.threads[m]? = some x) (h : m ≠ k) :
    (switched c k m).threads[m]? = some (enteredThread c m x) := by
  rw [switched_threads, modAt_get_self, modAt_get, if_neg (Ne.symm h), hx, Option.map_some]

/-- No context faults by a switch. -/
theorem newFault_switched (hk : c.kind ≠ .signal) : newFault c (switched c k m) = none := by
  refine newFault_none fun j a b ha hb hf => ?_
  rw [switched_threads, modAt_get] at hb
  by_cases hj : m = j
  · rw [if_pos hj] at hb
    obtain ⟨u, -, rfl⟩ := Option.map_eq_some_iff.1 hb
    rw [enteredThread_running hk] at hf
    cases hf
  · rw [if_neg hj, modAt_get] at hb
    by_cases hkj : k = j
    · rw [if_pos hkj, ha, Option.map_some] at hb
      rw [← Option.some.inj hb] at hf
      simp only [parkedThread] at hf
      split at hf
      · cases hf
      · exact hf
    · rw [if_neg hkj, ha] at hb
      exact (Option.some.inj hb).symm ▸ hf

end

/-! ### The dispatch -/

/-- A core that lives has not stopped. -/
theorem stop_of_live {c : Core} (h : c.live = true) : c.stop = none := by
  simp only [Core.live, Bool.and_eq_true, Option.isNone_iff_eq_none] at h
  exact h.2

/-- The counters that a dispatch leaves are at no new limit. -/
theorem counterFull_same {c d : Core} (h0 : d.issued = c.issued) (h1 : d.flushed = c.flushed) (h2 : d.vwakes = c.vwakes)
    (h3 : d.offAcc = c.offAcc) (h4 : d.offStall = c.offStall) : counterFull c d = false := by
  simp [counterFull, h0, h1, h2, h3, h4]

section
variable {s : State} {r : CoreRef} {c : Core} {k m : Nat} {t x : Thread}

theorem atDispatchPoint_running (hf : c.fresh = false) (hs : c.stall = none) (hr : c.run = .lvl k)
    (ht : c.threads[k]? = some t) (hp : dispatchPoint t = true) : atDispatchPoint c = true := by
  simp [atDispatchPoint, hf, hs, hr, ht, hp]

/-- A dispatch that is due changes the core to the level or context that is picked. -/
theorem dispatchCore_get (hc : s.cores[coreIdx r]? = some c) (hl : c.live = true) (hat : atDispatchPoint c = true)
    (hr : c.run = .lvl k) (ht : c.threads[k]? = some t) (htrap : t.trapDue = none) (hstop : t.stopReq = false)
    (hm : c.markOut = []) (hpick : pick c = .lvl m) (h : m ≠ k) (hn : r = .hub → c.kind ≠ .signal) :
    (s.dispatchCore r).cores[coreIdx r]? = some (switched c k m) := by
  have hdisp : dispatch c = switched c k m := by
    simp only [dispatch, hr, ht, htrap, hstop, hpick, switchTo_lvl hr h]
    rfl
  have hdue : dispatchDue c = true := by
    simp [dispatchDue, hr, ht, hpick, h]
  have htake : s.dispatchCore r = s.take r { core := switched c k m } := by
    simp only [State.dispatchCore, core_get hc, hl, hat, hdue, hdisp, Bool.and_self, if_true]
  rw [htake]
  exact take_get_plain hc hm rfl (stop_of_live hl) (fun hh => newFault_switched (hn hh)) (counterFull_same rfl rfl rfl rfl rfl)

end

/-! ### A trap at a dispatch point -/

/-- The thread with its trap no longer due. -/
def untrapped (t : Thread) : Thread := { t with trapDue := none }

/-- Level L3's thread as it begins for an exception of level `k` (R117, R133). -/
def l3Thread (c : Core) (k : Nat) (t : Thread) (e : Exc) (size : Nat) (x : Thread) : Thread :=
  { goTo (recordExc x t k e size) c.exvec with dslot := none, rep := none, micro := none }

/-- A context that an exception faults (R143). -/
def faultedThread (t : Thread) (e : Exc) (size : Nat) (x : Thread) : Thread :=
  { recordExc x t 0 e size with tstate := .faulted }

/-- A core whose context an exception faults, before the scheduler picks another. -/
def faultedCore (c : Core) (k : Nat) (t : Thread) (e : Exc) (size n : Nat) : Core :=
  { raiseLine (onThread (park { c with asm := [], ghost := [], stall := none } k n) k (faultedThread t e size)) 29 with
    run := .idle }

section
variable {c : Core} {k : Nat} {t : Thread}

theorem takeExc_signal (ht : c.threads[k]? = some t) (hk : c.kind = .signal) (h3 : k ≠ 3) (e : Exc) (size n : Nat) :
    takeExc c k e size n = enter { onThread (park { c with asm := [], ghost := [], stall := none } k n) 3
      (l3Thread c k t e size) with l3act := true } 3 := by
  unfold takeExc
  split
  next h0 => rw [ht] at h0; cases h0
  next u hu =>
    obtain rfl : t = u := Option.some.inj (ht.symm.trans hu)
    split
    next => exact if_neg h3
    next hne => exact absurd hk hne

theorem takeExc_supervisor (ht : c.threads[k]? = some t) (hk : c.kind = .supervisor) (hx : k ≠ c.xctx) (e : Exc)
    (size n : Nat) :
    takeExc c k e size n = switchTo (faultedCore c k t e size n) (pick (faultedCore c k t e size n)) := by
  unfold takeExc
  split
  next h0 => rw [ht] at h0; cases h0
  next u hu =>
    obtain rfl : t = u := Option.some.inj (ht.symm.trans hu)
    split
    next hsig => rw [hk] at hsig; cases hsig
    next hsig =>
      rw [show ctxFaultLine c.kind = 29 by rw [hk]; rfl]
      exact if_neg hx

end

/-- What the scheduler picks for a core where no context runs is ready (R141). -/
theorem readyLevel_of_pickCtx {c : Core} {j : Nat} (hr : c.run = .idle) (h : pickCtx c = some j) : readyLevel c j = true := by
  simp only [pickCtx, hr] at h
  have hmem := List.mem_of_mem_head? h
  exact (List.mem_filter.1 (List.mem_filter.1 hmem).1).2

/-- The parts of the core that a trap leaves for the device to see. -/
structure SeenAlike (c d : Core) : Prop where
  marks : d.markOut = c.markOut
  attn : d.attn = c.attn
  stop : d.stop = c.stop
  issued : d.issued = c.issued
  flushed : d.flushed = c.flushed
  vwakes : d.vwakes = c.vwakes
  offAcc : d.offAcc = c.offAcc
  offStall : d.offStall = c.offStall

theorem SeenAlike.trans {b c d : Core} (h : SeenAlike b c) (h' : SeenAlike c d) : SeenAlike b d :=
  ⟨h'.marks.trans h.marks, h'.attn.trans h.attn, h'.stop.trans h.stop, h'.issued.trans h.issued, h'.flushed.trans h.flushed,
    h'.vwakes.trans h.vwakes, h'.offAcc.trans h.offAcc, h'.offStall.trans h.offStall⟩

/-- The device keeps exactly such a core. -/
theorem SeenAlike.take_get {s : State} {r : CoreRef} {c d : Core} (h : SeenAlike c d) (hc : s.cores[coreIdx r]? = some c)
    (hl : c.live = true) (hm : c.markOut = []) (hn : r = .hub → newFault c d = none) :
    (s.take r { core := d }).cores[coreIdx r]? = some d :=
  take_get_plain hc (h.marks.trans hm) h.attn (h.stop.trans (stop_of_live hl)) hn
    (counterFull_same h.issued h.flushed h.vwakes h.offAcc h.offStall)

/-- The selection among contexts is the scheduler's (R141). -/
theorem pick_context {c : Core} (hk : c.kind ≠ .signal) : pick c = ((pickCtx c).map Running.lvl).getD .idle := by
  cases hkind : c.kind with
  | signal => exact absurd hkind hk
  | supervisor => simp only [pick, hkind]; cases pickCtx c <;> rfl
  | hub => simp only [pick, hkind]; cases pickCtx c <;> rfl

/-- A dispatch of a core where no context runs leaves a context that is not ready as it is. -/
theorem switchTo_pick_idle {c : Core} {k : Nat} (hk : c.kind ≠ .signal) (hr : c.run = .idle) (hn : readyLevel c k = false) :
    (switchTo c (pick c)).threads[k]? = c.threads[k]? ∧ (switchTo c (pick c)).evpend = c.evpend ∧
      SeenAlike c (switchTo c (pick c)) := by
  cases hp : pickCtx c with
  | none =>
    have hs : switchTo c (pick c) = c := by
      rw [pick_context hk, hp]
      exact if_pos hr.symm
    rw [hs]
    exact ⟨rfl, rfl, rfl, rfl, rfl, rfl, rfl, rfl, rfl, rfl⟩
  | some j =>
    have hne : j ≠ k := by
      rintro rfl
      rw [readyLevel_of_pickCtx hr hp] at hn
      cases hn
    have hs : switchTo c (pick c) = enter { c with asm := [], ghost := [] } j := by
      have hdiff : Running.lvl j ≠ .idle := by simp
      rw [pick_context hk, hp]
      simp only [Option.map_some, Option.getD_some, switchTo, hr, if_neg hdiff]
    rw [hs]
    refine ⟨?_, rfl, rfl, rfl, rfl, rfl, rfl, rfl, rfl, rfl⟩
    rw [enter_eq, onThread]
    exact modAt_get_ne _ _ _ _ hne

/-- A core whose context an exception has faulted: the context is not ready, and line 29 is pending (R142, R143). -/
theorem faultedCore_leaves {c : Core} {k : Nat} {t : Thread} (ht : c.threads[k]? = some t) (hk : c.kind ≠ .signal) (e : Exc)
    (size n : Nat) :
    (faultedCore c k t e size n).kind ≠ .signal ∧ readyLevel (faultedCore c k t e size n) k = false ∧
      linePending (faultedCore c k t e size n) 29 = true ∧ SeenAlike c (faultedCore c k t e size n) ∧
      ∃ v, (faultedCore c k t e size n).threads[k]? = some (faultedThread t e size v) ∧ v.d = t.d := by
  generalize hp : park { c with asm := [], ghost := [], stall := none } k n = p
  obtain ⟨v, hv, hvd⟩ : ∃ v, p.threads[k]? = some v ∧ v.d = t.d := by
    subst hp
    exact ⟨_, (modAt_get_self _ _ _).trans (congrArg _ ht), rfl⟩
  generalize hq : onThread p k (faultedThread t e size) = q
  have hfault : q.threads[k]? = some (faultedThread t e size v) := by
    rw [← hq]
    exact (modAt_get_self _ _ _).trans (congrArg _ hv)
  obtain ⟨w, ts, hw, -, hwv⟩ := raiseLine_thread q 29 hfault
  obtain rfl := hwv (by simp [faultedThread])
  obtain ⟨_, _, _, hraise⟩ := raiseLine_frame q 29
  have hF : faultedCore c k t e size n = { raiseLine q 29 with run := .idle } := by rw [← hq, ← hp]; rfl
  have hkind : (raiseLine q 29).kind = c.kind := by rw [hraise, ← hq, ← hp]; rfl
  have hseen : SeenAlike c (raiseLine q 29) := by
    rw [hraise, ← hq, ← hp]
    exact ⟨rfl, rfl, rfl, rfl, rfl, rfl, rfl, rfl⟩
  have hready : readyLevel { raiseLine q 29 with run := .idle } k = false := by
    unfold readyLevel
    split
    next h => exact absurd (hkind.symm.trans h) hk
    next =>
      simp only [hw]
      rfl
  rw [hF]
  obtain ⟨h1, h2, h3, h4, h5, h6, h7, h8⟩ := hseen
  exact ⟨fun h => hk (hkind.symm.trans h), hready, linePending_raiseLine q (by decide), ⟨h1, h2, h3, h4, h5, h6, h7, h8⟩, v, hw,
    hvd⟩

/-! ### The trap taken -/

/-- XCAUSE of a trap, which is taken in no delay slot (R117). -/
theorem xcauseOf_trap (inrep : Bool) {l : Nat} (hl : l < 4) (code : BitVec 6) :
    xcauseOf false inrep l code.toNat = BitVec.ofNat 14 (b2n inrep * 2 ^ 12 + l * 2 ^ 10 + code.toNat) := by
  rw [xcauseOf, Nat.mod_eq_of_lt hl, Nat.mod_eq_of_lt code.isLt]
  simp [b2n]

theorem dslot_of_dispatchPoint {t : Thread} (h : dispatchPoint t = true) : t.dslot = none := by
  simp only [dispatchPoint, Bool.and_eq_true, Option.isNone_iff_eq_none] at h
  exact h.1.1

section
variable {s : State} {r : CoreRef} {c : Core} {k : Nat} {t x : Thread} {code : BitVec 6}

theorem exec_f28TrapTaken (hc : s.cores[coreIdx r]? = some c) (hl : c.live = true) (hat : atDispatchPoint c = true)
    (hr : c.run = .lvl k) (ht : c.threads[k]? = some t) (hcode : t.trapDue = some code) :
    exec (.f28TrapTaken r) s = .next (s.take r { core := takeTrap c k }) := by
  show execF28TrapTaken r s = _
  simp [execF28TrapTaken, core_get hc, hr, hl, hat, ht, hcode]

theorem takeTrap_eq (ht : c.threads[k]? = some t) (hcode : t.trapDue = some code) :
    takeTrap c k = takeExc (onThread c k untrapped) k ⟨code, 0⟩ (bundleSize c.imem.cells t.pc.toNat) 1 := by
  simp only [takeTrap, ht, hcode]
  rfl

theorem untrapped_get (ht : c.threads[k]? = some t) : (onThread c k untrapped).threads[k]? = some (untrapped t) := by
  simp [onThread, ht]

/-- Level L3 behind the trap of another level. -/
theorem takeTrap_signal_leaves (ht : c.threads[k]? = some t) (hx : c.threads[3]? = some x) (hcode : t.trapDue = some code)
    (hp : dispatchPoint t = true) (hk : c.kind = .signal) (h3 : k < 3) :
    (takeTrap c k).run = .lvl 3 ∧ (takeTrap c k).l3act = true ∧ SeenAlike c (takeTrap c k) ∧
      ∃ y, (takeTrap c k).threads[3]? = some y ∧ y.pc = c.exvec ∧ y.xpc = t.pc ∧
        y.xcause = BitVec.ofNat 14 (b2n t.rep.isSome * 2 ^ 12 + k * 2 ^ 10 + code.toNat) ∧ y.xaddr = 0 ∧ y.d = x.d := by
  have hne : k ≠ 3 := by omega
  generalize hsize : bundleSize c.imem.cells t.pc.toNat = size
  have htake := takeExc_signal (untrapped_get ht) hk hne ⟨code, 0⟩ size 1
  rw [takeTrap_eq ht hcode, hsize, htake, enter_eq]
  generalize hd : onThread (park { onThread c k untrapped with asm := [], ghost := [], stall := none } k 1) 3
    (l3Thread (onThread c k untrapped) k (untrapped t) ⟨code, 0⟩ size) = d
  have hget : d.threads[3]? = some (l3Thread (onThread c k untrapped) k (untrapped t) ⟨code, 0⟩ size x) := by
    rw [← hd]
    simp only [onThread, park_eq, modAt_get_self, modAt_get_ne _ _ _ _ hne, hx, Option.map_some]
  obtain ⟨hkd, -, hxpc, hcause, haddr, hpc⟩ :=
    enteredThread_keeps { d with l3act := true } 3 (l3Thread (onThread c k untrapped) k (untrapped t) ⟨code, 0⟩ size x)
  have hbegins : beginsL2 { d with l3act := true } 3 = false := by simp [beginsL2]
  have hdslot : (untrapped t).dslot.isSome = false := by
    rw [show (untrapped t).dslot = none from dslot_of_dispatchPoint hp]
    rfl
  rw [hbegins, if_neg (by decide)] at hpc
  refine ⟨rfl, rfl, ?_, _, (modAt_get_self _ _ _).trans (congrArg _ hget), hpc, hxpc, ?_, haddr, hkd⟩
  · subst hd
    exact ⟨rfl, rfl, rfl, rfl, rfl, rfl, rfl, rfl⟩
  · rw [hcause, ← xcauseOf_trap _ (by omega) code, ← hdslot]
    rfl

/-- A context behind its trap. -/
theorem takeTrap_supervisor_leaves (ht : c.threads[k]? = some t) (hcode : t.trapDue = some code)
    (hp : dispatchPoint t = true) (hk : c.kind = .supervisor) (hx : k ≠ c.xctx) :
    linePending (takeTrap c k) 29 = true ∧ SeenAlike c (takeTrap c k) ∧
      ∃ y, (takeTrap c k).threads[k]? = some y ∧ y.tstate = .faulted ∧ y.xpc = t.pc ∧
        y.xcause = BitVec.ofNat 14 (b2n t.rep.isSome * 2 ^ 12 + 0 * 2 ^ 10 + code.toNat) ∧ y.d = t.d := by
  generalize hsize : bundleSize c.imem.cells t.pc.toNat = size
  have hne : (onThread c k untrapped).kind ≠ .signal := by
    rw [show (onThread c k untrapped).kind = .supervisor from hk]
    decide
  obtain ⟨hkind, hready, hline, hseen, v, hv, hvd⟩ :=
    faultedCore_leaves (untrapped_get ht) hne ⟨code, 0⟩ size 1
  have htake := takeExc_supervisor (untrapped_get ht) hk hx ⟨code, 0⟩ size 1
  rw [takeTrap_eq ht hcode, hsize, htake]
  obtain ⟨hthread, hev, hseen'⟩ := switchTo_pick_idle hkind rfl hready
  have hdslot : (untrapped t).dslot.isSome = false := by
    rw [show (untrapped t).dslot = none from dslot_of_dispatchPoint hp]
    rfl
  have hsame : SeenAlike c (onThread c k untrapped) := ⟨rfl, rfl, rfl, rfl, rfl, rfl, rfl, rfl⟩
  refine ⟨?_, hsame.trans (hseen.trans hseen'), _, hthread.trans hv, rfl, rfl, ?_, hvd⟩
  · rw [linePending, hev]
    exact hline
  · rw [← xcauseOf_trap _ (by omega) code, ← hdslot]
    rfl

end

/-- Settles O25, by the switch of levels and contexts and by the exception that a trap is. -/
theorem dispatches : Obligations.Dispatches := by
  unfold Obligations.Dispatches
  intro s r c k m t x g n hc hl hstall hfresh hr ht hx hp hstop hm
  have hat := atDispatchPoint_running hfresh hstall hr ht hp
  refine ⟨fun hrg hk htrap hne hpick => ?_, fun hrk htrap hne hpick => ?_, fun code hcode => ⟨fun hrg hk h3 hm3 => ?_,
    fun hk hrg hx => ?_⟩⟩
  · subst hrg
    have hsel : pick c = .lvl m := by
      have hrank : ranking c.l0open = [3, 2] ++ (if c.l0open then [0, 1] else [1, 0]) := by
        unfold ranking
        split <;> rfl
      simp only [pick, hk, hrank, hpick]
    have hget := dispatchCore_get hc hl hat hr ht htrap hstop hm hsel hne (fun h => by cases h)
    obtain ⟨hd, hbank, -, -, -, hpc⟩ := enteredThread_keeps c m x
    refine ⟨_, _, _, rfl, by rw [core_get hget]; rfl, by rw [core_get hget]; rfl, ?_,
      (threadAt_get hget).trans (switched_parks ht hne), rfl, rfl, rfl, sameBank_refl t,
      (threadAt_get hget).trans (switched_enters hx hne), hd, hbank, ?_, fun hf => enteredThread_fav hk hf x⟩
    · rw [core_get hget]
      show (c.l2act || beginsL2 c m) = _
      cases hact : c.l2act <;> simp [beginsL2, hk, hact]
    · simpa only [beginsL2_eq_true hk] using hpc
  · have hkind : c.kind ≠ .signal := by rcases hrk with ⟨-, h⟩ | ⟨-, h⟩ <;> rw [h] <;> decide
    have hsel : pick c = .lvl m := by
      rw [pick_context hkind, hpick]
      rfl
    have hget := dispatchCore_get hc hl hat hr ht htrap hstop hm hsel hne (fun _ => hkind)
    obtain ⟨hd, hbank, -, -, -, hpc⟩ := enteredThread_keeps c m x
    have hexec : exec (.contextDispatch r) s = .next (s.dispatchCore r) := by
      rcases hrk with ⟨rfl, -⟩ | ⟨rfl, -⟩ <;> rfl
    refine ⟨_, _, _, hexec, by rw [core_get hget]; rfl, by rw [core_get hget]; rfl,
      (threadAt_get hget).trans (switched_parks ht hne), rfl, rfl, sameBank_refl t, fun h => if_pos h,
      (threadAt_get hget).trans (switched_enters hx hne), enteredThread_running hkind x, ?_, hd, hbank⟩
    rw [hpc, beginsL2_context hkind, if_neg (by decide)]
  · subst hrg hm3
    obtain ⟨hrun, hl3, hseen, y, hy, hpc, hxpc, hcause, haddr, hd⟩ := takeTrap_signal_leaves ht hx hcode hp hk h3
    have hget := hseen.take_get hc hl hm (fun h => by cases h)
    exact ⟨_, y, exec_f28TrapTaken hc hl hat hr ht hcode, by rw [core_get hget]; exact hrun, by rw [core_get hget]; exact hl3,
      (threadAt_get hget).trans hy, hpc, hxpc, hcause, haddr, hd⟩
  · subst hrg
    obtain ⟨hline, hseen, y, hy, hst, hxpc, hcause, hd⟩ := takeTrap_supervisor_leaves ht hcode hp hk hx
    have hget := hseen.take_get hc hl hm (fun h => by cases h)
    exact ⟨_, y, exec_f28TrapTaken hc hl hat hr ht hcode, (threadAt_get hget).trans hy, hst, hxpc, hcause, hd,
      by rw [core_get hget]; exact hline⟩

end Sys2Proof.Machine
end

section
/-! PROOFS. What an operation of a signal core reaches (R103, R249, R258, R273, R471): every function of an issue leaves the
core's instruction words, kind, captured counters and beacons on their way as they are, said once per function in the order of
the model's files; hence the frame of every operation. -/

namespace Sys2Proof.Machine
open Sys2Proof Sys2Proof.Laws

/-! ### What no issue changes of its core -/

/-- What no operation changes of its core: the words of instruction memory, the kind, the capture of the counters and the
beacons on their way. -/
def Core.fixed (c : Core) : SMap 28 × CoreKind × List Nat × List U32 := (c.imem.cells, c.kind, c.snap, c.beacons)

/-- What each step of a fold keeps, the fold keeps. -/
theorem foldl_keeps {α β γ : Type} (p : β → γ) {f : β → α → β} (h : ∀ b a, p (f b a) = p b) (l : List α) (b : β) :
    p (l.foldl f b) = p b := by
  induction l generalizing b with
  | nil => rfl
  | cons a l ih => rw [List.foldl_cons, ih, h]

@[simp] theorem Core.ite_fixed (p : Prop) [Decidable p] (c d : Core) :
    (if p then c else d).fixed = if p then c.fixed else d.fixed := apply_ite Core.fixed p c d

@[simp] theorem onThread_fixed (c : Core) (k : Nat) (f : Thread → Thread) : (onThread c k f).fixed = c.fixed := rfl
@[simp] theorem setLevel_fixed (c : Core) (k : Nat) (f : Thread → Thread) : (setLevel c k f).fixed = c.fixed := rfl
@[simp] theorem spend_fixed (c : Core) (n : Nat) : (c.spend n).fixed = c.fixed := rfl
@[simp] theorem leaveRd_fixed (c : Core) : c.leaveRd.fixed = c.fixed := rfl

/-! ### Register writes and landings -/

@[simp] theorem wakeBound_fixed (c : Core) (n : Nat) : (wakeBound c n).fixed = c.fixed := by
  unfold wakeBound
  split
  · rfl
  · split <;> rfl

@[simp] theorem sysWrite_fixed (err : Bool) (c : Core) (k n : Nat) (v : DWord) : (sysWrite err c k n v).fixed = c.fixed := by
  unfold sysWrite
  extract_lets w flag sig addr17 on wake bad upd1
  have hflag (b : Bool) (d : Core) : (flag b d).fixed = d.fixed := by simp [flag]
  have haddr (l : Nat) (put : BitVec 17 → Thread → Thread) : (addr17 l put).fixed = c.fixed := by simp [addr17, flag]
  clear_value flag addr17
  split
  case h_2 => split <;> simp [hflag]
  case h_4 => simp [hflag]
  case h_18 =>
    simp only [Core.ite_fixed, hflag, haddr, wakeBound_fixed, setLevel_fixed]
    repeat' split
    all_goals rfl
  case h_15 =>
    split
    · exact hflag true c
    · split <;> rfl
  case h_3 => split <;> rfl
  all_goals rfl

@[simp] theorem fstatPut_fixed (c : Core) (k : Nat) (v : Word) : (fstatPut c k v).fixed = c.fixed := by
  unfold fstatPut
  split
  · split <;> rfl
  · rfl

@[simp] theorem landF_fixed (c : Core) (k n : Nat) (v : DWord) : (landF c k n v).fixed = c.fixed := by
  unfold landF
  split
  · split <;> rfl
  · rfl

@[simp] theorem landFFlags_fixed (c : Core) (k : Nat) (set : BitVec 5) (sub : Bool) (rec : FRec) :
    (landFFlags c k set sub rec).fixed = c.fixed := by
  unfold landFFlags
  extract_lets old c1
  have h1 : c1.fixed = c.fixed := fstatPut_fixed c k _
  split
  · exact h1
  · extract_lets c2
    split <;> exact h1

@[simp] theorem landPage_fixed (c : Core) (k id tbl vpage : Nat) : (landPage c k id tbl vpage).fixed = c.fixed := by
  unfold landPage
  split <;> rfl

@[simp] theorem landSys_fixed (c : Core) (k n : Nat) (v : DWord) : (landSys c k n v).fixed = c.fixed := by
  unfold landSys
  split <;> simp

@[simp] theorem landOne_fixed (c : Core) (k : Nat) (w : RegW) : (landOne c k w).fixed = c.fixed := by
  cases w <;> simp [landOne]

@[simp] theorem landCycle_fixed (k : Nat) (c : Core) (ps : List Pend) : (landCycle k c ps).fixed = c.fixed := by
  unfold landCycle
  rw [foldl_keeps Core.fixed (fun d w => landOne_fixed d k w),
    foldl_keeps (fun q : Core × List RegW => q.1.fixed) (fun q p => landOne_fixed q.1 k p.w)]

@[simp] theorem landUpTo_fixed (c : Core) (k n : Nat) : (landUpTo c k n).fixed = c.fixed := by
  unfold landUpTo
  split
  · rfl
  · exact foldl_keeps Core.fixed (landCycle_fixed k) _ _

/-! ### Control flow -/

@[simp] theorem addFlushed_fixed (c : Core) (n : Nat) : (addFlushed c n).fixed = c.fixed := rfl
@[simp] theorem passDc_fixed (c : Core) (k : Nat) (t : Thread) (a : Nat) : (passDc c k t a).fixed = c.fixed := rfl
@[simp] theorem withSlot_fixed (c : Core) (k n : Nat) (s : DSlot) : (withSlot c k n s).fixed = c.fixed := rfl
@[simp] theorem dirUpdate_fixed (c : Core) (i : Nat) (b : Bool) : (dirUpdate c i b).fixed = c.fixed := rfl
@[simp] theorem flushPredictors_fixed (c : Core) (k : Nat) : (flushPredictors c k).fixed = c.fixed := rfl

@[simp] theorem slotRedirect_fixed (c : Core) (k : Nat) (t : Thread) : (slotRedirect c k t).fixed = c.fixed := by
  unfold slotRedirect
  split
  · split <;> rfl
  · rfl

@[simp] theorem windowCall_fixed (c : Core) (k : Nat) (t : Thread) : (windowCall c k t).1.fixed = c.fixed := by
  unfold windowCall
  split <;> rfl

@[simp] theorem windowRet_fixed (c : Core) (k : Nat) (t : Thread) : (windowRet c k t).1.fixed = c.fixed := by
  unfold windowRet
  split <;> rfl

@[simp] theorem flowBranch_fixed (c : Core) (k : Nat) (t : Thread) (a : IAddr) (n : Nat) (taken annul : Bool) (tgt : IAddr)
    (ctr : Nat) : (flowBranch c k t a n taken annul tgt ctr).fixed = c.fixed := by
  simp [flowBranch]

@[simp] theorem flowCall_fixed (c : Core) (k : Nat) (t : Thread) (a : IAddr) (n : Nat) (tgt : IAddr) (e w : Bool) :
    (flowCall c k t a n tgt e w).1.fixed = c.fixed := by
  cases w <;> simp [flowCall]

@[simp] theorem flowRet_fixed (c : Core) (k : Nat) (t : Thread) (a : IAddr) (n : Nat) (tgt : IAddr) (w : Bool) :
    (flowRet c k t a n tgt w).1.fixed = c.fixed := by
  cases w <;> simp [flowRet]

@[simp] theorem flowLoop_fixed (c : Core) (k : Nat) (t : Thread) (a : IAddr) (n count : Nat) (reg : Bool) (tl : IAddr) :
    (flowLoop c k t a n count reg tl).1.fixed = c.fixed := by
  unfold flowLoop
  extract_lets im p
  split <;> rfl

@[simp] theorem flowRep_fixed (c : Core) (k : Nat) (t : Thread) (n count : Nat) (intr : Bool) :
    (flowRep c k t n count intr).1.fixed = c.fixed := by
  unfold flowRep
  split <;> rfl

@[simp] theorem flow_fixed (c : Core) (k : Nat) (t : Thread) (a : IAddr) (size : Nat) (kf : Option Ctl) :
    (flow c k t a size kf).1.fixed = c.fixed := by
  unfold flow
  extract_lets next plain
  have hplain (d : Core) (n : Nat) : (plain d n).1.fixed = d.fixed := by
    simp only [plain]
    split
    · exact (onThread_fixed _ _ _).trans (slotRedirect_fixed d k t)
    · exact slotRedirect_fixed d k t
  clear_value plain
  rcases kf with _ | kf
  · exact hplain c 0
  · cases kf <;> simp [hplain, flowGoto]

/-! ### Levels and contexts -/

@[simp] theorem raiseLine_fixed (c : Core) (n : Nat) : (raiseLine c n).fixed = c.fixed := by
  obtain ⟨_, _, _, h⟩ := raiseLine_frame c n; rw [h]; rfl

@[simp] theorem park_fixed (c : Core) (k n : Nat) : (park c k n).fixed = c.fixed := rfl
@[simp] theorem enter_fixed (c : Core) (k : Nat) : (enter c k).fixed = c.fixed := rfl
@[simp] theorem stopCore_fixed (c : Core) (why : StopCause) : (stopCore c why).fixed = c.fixed := rfl
@[simp] theorem doubleFault_fixed (c : Core) : (doubleFault c).fixed = c.fixed := rfl

@[simp] theorem switchTo_fixed (c : Core) (sel : Running) : (switchTo c sel).fixed = c.fixed := by
  unfold switchTo
  split
  · rfl
  · cases c.run <;> cases sel <;> rfl

@[simp] theorem takeExc_fixed (c : Core) (k : Nat) (e : Exc) (size n : Nat) : (takeExc c k e size n).fixed = c.fixed := by
  unfold takeExc
  split
  · rfl
  · split
    · split <;> rfl
    · extract_lets c1 c2 c3
      have h3 : c3.fixed = c.fixed := raiseLine_fixed c2 _
      split
      · exact h3
      · rw [switchTo_fixed]; exact h3

@[simp] theorem doRte_fixed (c : Core) (k : Nat) : (doRte c k).fixed = c.fixed := by
  unfold doRte
  split
  · split
    · rfl
    · rw [switchTo_fixed]; rfl
  · rw [switchTo_fixed]; rfl

@[simp] theorem doWaite_fixed (c : Core) (k : Nat) : (doWaite c k).fixed = c.fixed := by
  unfold doWaite
  extract_lets d
  have hd : d.fixed = c.fixed := by simp only [d]; split <;> rfl
  split
  · exact hd
  · split
    · split <;> exact hd
    · exact hd

@[simp] theorem doCtl_fixed (c : Core) (k : Nat) (kf : Option Ctl) : (doCtl c k kf).fixed = c.fixed := by
  unfold doCtl
  split <;> simp [doTstart, doTresume, doTstop, doTset]

@[simp] theorem afterBundle_fixed (c : Core) (k : Nat) : (afterBundle c k).fixed = c.fixed := by
  unfold afterBundle
  split
  · rfl
  · simp

@[simp] theorem haltCore_fixed (c : Core) : (haltCore c).fixed = c.fixed := by
  unfold haltCore
  split <;> rfl

@[simp] theorem countStep_fixed (c : Core) : (countStep c).fixed = c.fixed := by
  unfold countStep
  split
  · rfl
  · split
    · exact haltCore_fixed c
    · rfl

/-! ### The effects of a bundle -/

section
variable (o : Outside) (c : Core) (k : Nat) (r : Issued)

theorem addPend_fixed (p : Pend) : (addPend c k p).fixed = c.fixed := rfl

theorem applyAct_fixed (adv seq : Nat) (now : Bool) (a : Act) : (applyAct o k adv seq now r a).core.fixed = r.core.fixed := by
  cases a with
  | wr w lat =>
    simp only [applyAct]
    split
    · rfl
    · exact landOne_fixed r.core k w
    · rfl
  | store y => cases y <;> rfl
  | unit fdiv => cases fdiv <;> rfl
  | load | put | signal | page | ctl | micros => rfl

@[simp] theorem applyActs_fixed (adv seq : Nat) (now : Bool) (as : List Act) :
    (applyActs o k adv seq now r as).core.fixed = r.core.fixed :=
  foldl_keeps (fun q : Issued => q.core.fixed) (fun q a => applyAct_fixed o k q adv seq now a) _ _

@[simp] theorem countFar_fixed (n : Nat) : (countFar n r).core.fixed = r.core.fixed := by
  unfold countFar
  split <;> rfl

@[simp] theorem keepLate_fixed : (keepLate k r).core.fixed = r.core.fixed := by
  simp only [keepLate]
  repeat' split
  all_goals rfl

@[simp] theorem stallNow_fixed (s : Stall) (n : Nat) : (stallNow o c s n).core.fixed = c.fixed := rfl

@[simp] theorem startWake_fixed : (startWake c).fixed = c.fixed := by
  unfold startWake
  split <;> rfl

theorem claimF_fixed {d : Core} (h : claimF c k = some d) : d.fixed = c.fixed := by
  unfold claimF at h
  split at h
  · split at h
    · cases h
    · split at h
      · cases h; rfl
      · split at h
        · cases h; rfl
        · cases h
  · cases h; rfl

@[simp] theorem correctWord_fixed (p : EccMem × Nat) : (correctWord c p).fixed = c.fixed := by
  unfold correctWord
  split <;> rfl

/-- A correction writes back the word as it reads (R270). -/
@[simp] theorem eccClean_fixed (pc size : Nat) (touch : List (EccMem × Nat)) : (eccClean c pc size touch).fixed = c.fixed := by
  unfold eccClean
  extract_lets i ws d
  have hi : (i.foldl (fun m j => m.corrected (pc + j)) c.imem).cells = c.imem.cells :=
    foldl_keeps (fun m : EMem 28 => m.cells) (fun m j => corrected_cells m (pc + j)) i c.imem
  have hd : d.fixed = c.fixed := foldl_keeps Core.fixed correctWord_fixed ws c
  simp only [Core.fixed, Prod.mk.injEq] at hd ⊢
  exact ⟨hi, hd.2⟩

@[simp] theorem eccStop_fixed (place : Nat × Nat) : (eccStop c place).core.fixed = c.fixed := by
  unfold eccStop
  dsimp only
  split <;> rfl

/-! ### Bundles -/

theorem microOne_fixed : (microOne o r k).1.core.fixed = r.core.fixed := by
  unfold microOne
  split
  · rfl
  · split
    · rfl
    · split
      · rfl
      · extract_lets joined stalled c1 v out src q c2
        have hstall (s : Stall) (n : Nat) : (stalled s n).1.core.fixed = r.core.fixed := rfl
        have h1 : c1.fixed = r.core.fixed := landUpTo_fixed _ _ _
        split
        · exact hstall _ _
        · split
          · exact hstall _ _
          · split
            · exact hstall _ _
            · split
              · exact hstall _ _
              · split
                · rename_i place _
                  exact eccStop_fixed r.core place
                · have hq : q.core.fixed = c1.fixed := by
                    simp only [q, countFar_fixed, applyActs_fixed]
                    exact eccClean_fixed c1 0 0 out.touch
                  have h2 : c2.fixed = q.core.fixed := rfl
                  clear_value c2
                  simp only [spend_fixed, landUpTo_fixed, h2, hq, h1]

theorem microRun_fixed (n : Nat) : (microRun o k n r).core.fixed = r.core.fixed := by
  induction n generalizing r with
  | zero => rfl
  | succ n ih =>
    unfold microRun
    extract_lets q
    have hq : q.1.core.fixed = r.core.fixed := microOne_fixed o k r
    split
    · rw [ih, hq]
    · exact hq

theorem commit_fixed (t : Thread) (size : Nat) (os : List OpOut) : (commit o c k t size os).core.fixed = c.fixed := by
  simp only [commit, countStep_fixed, afterBundle_fixed, doCtl_fixed, keepLate_fixed, microRun_fixed, landUpTo_fixed,
    spend_fixed, onThread_fixed, flow_fixed, countFar_fixed, applyActs_fixed]
  rfl

theorem annulled_fixed (t : Thread) (size : Nat) : (annulled c k t size).core.fixed = c.fixed := by
  unfold annulled
  extract_lets late c0 f c1
  have h0 : c0.fixed = c.fixed := by simp only [c0]; split <;> rfl
  simp [c1, f, h0]

theorem faulted_fixed (t : Thread) (size : Nat) (os : List OpOut) (e : Exc) :
    (faulted o c k t size os e).core.fixed = c.fixed := by
  simp only [faulted, takeExc_fixed, keepLate_fixed, countFar_fixed, applyActs_fixed, eccClean_fixed]
  rfl

theorem issueBundle_fixed (t : Thread) : (issueBundle o c k t).core.fixed = c.fixed := by
  unfold issueBundle
  extract_lets c1 v os exc
  have h1 : c1.fixed = c.fixed := landUpTo_fixed c k t.adv
  split
  · exact haltCore_fixed c
  · split
    · rfl
    · split
      · exact annulled_fixed c k t _
      · split
        · rw [stallNow_fixed]
          split
          · exact startWake_fixed c
          · rfl
        · split
          · exact eccStop_fixed c _
          · clear_value exc
            cases exc with
            | some e => exact faulted_fixed o c k t (asmSize c) os e
            | none =>
              dsimp only
              split
              · rfl
              · rename_i c2 hc2
                rw [commit_fixed, eccClean_fixed, ← h1]
                split at hc2
                · exact claimF_fixed c1 k hc2
                · cases hc2; rfl

theorem tryIssue_fixed : (tryIssue o c).core.fixed = c.fixed := by
  unfold tryIssue
  split
  · rfl
  · split
    · rfl
    · split
      · extract_lets r
        have hr : r.core.fixed = c.fixed := microRun_fixed o _ _ _
        split
        · exact hr
        · exact (afterBundle_fixed r.core _).trans hr
      · split
        · rfl
        · exact issueBundle_fixed o c _ _

theorem offerBehind_fixed (op : Instr) (fin : BundleEnd) : (offerBehind o c op fin).core.fixed = c.fixed := by
  unfold offerBehind
  extract_lets c1 c2
  split
  · rfl
  · split
    · split
      · exact issueBundle_fixed o c2 _ _
      · rfl
    · rfl
  · rfl

/-- An operation that reaches its core leaves what `Core.fixed` names. -/
theorem offer_fixed (op : Instr) (fin : BundleEnd) : (offer o c op fin).core.fixed = c.fixed := by
  unfold offer
  extract_lets c1
  split
  · split
    · exact offerBehind_fixed o c op fin
    · rfl
  · split
    · rfl
    · exact tryIssue_fixed o c1

end

/-! ### What the device takes of it -/

/-- What the supervisor's line for a core leaves of the supervisor: its data and instruction memory, and what it runs. -/
def Core.supKept (c : Core) : EMem 14 × EMem 14 × EMem 28 × Running := (c.x, c.y, c.imem, c.run)

@[simp] theorem raiseLine_supKept (c : Core) (n : Nat) : (raiseLine c n).supKept = c.supKept := by
  obtain ⟨_, _, _, h⟩ := raiseLine_frame c n; rw [h]; rfl

theorem get_modAt_map {α β : Type} (p : α → β) (l : List α) (i j : Nat) (f : α → α) (h : i = j → ∀ x, p (f x) = p x) :
    ((modAt l i f)[j]?).map p = (l[j]?).map p := by
  rw [modAt_get]
  split
  · next e => cases l[j]? <;> simp [h e]
  · rfl

/-- From `s` to `u` nothing is reached but core `k` of geode `g`, the requests of its geode, the supervisor's line for it and
the error log. -/
structure Reaches (g : Fin 8) (k : Fin 9) (s u : State) : Prop where
  rest : u = { s with cores := u.cores, geodes := u.geodes, hub := u.hub, free := u.free }
  free : s.free ≤ u.free
  hub : { u.hub with log := s.hub.log, logSeq := s.hub.logSeq } = s.hub
  others : ∀ n : Nat, n ≠ 9 * g.val + k.val → n ≠ 72 + g.val → u.cores[n]? = s.cores[n]?
  sup : (u.cores[72 + g.val]?).map Core.supKept = (s.cores[72 + g.val]?).map Core.supKept
  own : (u.cores[9 * g.val + k.val]?).map Core.fixed = (s.cores[9 * g.val + k.val]?).map Core.fixed
  geodes : ∀ n : Nat, n ≠ g.val → u.geodes[n]? = s.geodes[n]?
  geode : ∀ x : Geode, s.geodes[g.val]? = some x → ∃ y : Geode, u.geodes[g.val]? = some y ∧ y.mem = x.mem ∧
    y.pool = x.pool ∧ y.master = x.master ∧ y.bst = x.bst ∧ x.reqs <+: y.reqs

section
variable {g : Fin 8} {k : Fin 9} {s t u : State}

theorem Reaches.refl (s : State) : Reaches g k s s where
  rest := rfl
  free := Nat.le_refl _
  hub := rfl
  others _ _ _ := rfl
  sup := rfl
  own := rfl
  geodes _ _ := rfl
  geode x h := ⟨x, h, rfl, rfl, rfl, rfl, List.prefix_refl _⟩

theorem Reaches.trans (h : Reaches g k s t) (h' : Reaches g k t u) : Reaches g k s u where
  rest := by
    have h2 := h'.rest
    rw [h.rest] at h2
    exact h2
  free := Nat.le_trans h.free h'.free
  hub := by
    calc { u.hub with log := s.hub.log, logSeq := s.hub.logSeq }
        = { ({ u.hub with log := t.hub.log, logSeq := t.hub.logSeq } : Hub) with
            log := s.hub.log, logSeq := s.hub.logSeq } := rfl
      _ = s.hub := by rw [h'.hub, h.hub]
  others n h1 h2 := (h'.others n h1 h2).trans (h.others n h1 h2)
  sup := h'.sup.trans h.sup
  own := h'.own.trans h.own
  geodes n h1 := (h'.geodes n h1).trans (h.geodes n h1)
  geode x hx := by
    obtain ⟨y, hy, m1, p1, a1, b1, r1⟩ := h.geode x hx
    obtain ⟨z, hz, m2, p2, a2, b2, r2⟩ := h'.geode y hy
    exact ⟨z, hz, m2.trans m1, p2.trans p1, a2.trans a1, b2.trans b1, r1.trans r2⟩

/-- A change of the core that keeps what no operation changes, and free values used. -/
theorem Reaches.onCore (s : State) {f : Core → Core} (n : Nat)
    (h : ∀ c, s.cores[9 * g.val + k.val]? = some c → (f c).fixed = c.fixed) :
    Reaches g k s { s.onCore (.sig g k) f with free := s.free + n } where
  rest := rfl
  free := Nat.le_add_right _ _
  hub := rfl
  others m h1 _ := modAt_get_ne _ _ _ _ (Ne.symm h1)
  sup := get_modAt_map _ _ _ _ _ (fun e => by simp only [coreIdx] at e; omega)
  own := by
    show ((modAt s.cores (9 * g.val + k.val) f)[9 * g.val + k.val]?).map Core.fixed = _
    rw [modAt_get_self]
    cases hc : s.cores[9 * g.val + k.val]? with
    | none => rfl
    | some c => exact congrArg some (h c hc)
  geodes _ _ := rfl
  geode x h := ⟨x, h, rfl, rfl, rfl, rfl, List.prefix_refl _⟩

/-- A change of the geode that leaves its memory and its allocator, and withdraws no request. -/
theorem Reaches.onGeode (s : State) {f : Geode → Geode} (h : ∀ x, (f x).mem = x.mem ∧ (f x).pool = x.pool ∧
    (f x).master = x.master ∧ (f x).bst = x.bst ∧ x.reqs <+: (f x).reqs) : Reaches g k s (s.onGeode g.val f) where
  rest := rfl
  free := Nat.le_refl _
  hub := rfl
  others _ _ _ := rfl
  sup := rfl
  own := rfl
  geodes n h1 := modAt_get_ne _ _ _ _ (Ne.symm h1)
  geode x hx := ⟨f x, by simp [hx], h x⟩

theorem Reaches.raiseSup (s : State) (n : Nat) : Reaches g k s (s.raiseSup g.val n) where
  rest := rfl
  free := Nat.le_refl _
  hub := rfl
  others n _ h := modAt_get_ne _ _ _ _ (Ne.symm h)
  sup := get_modAt_map _ _ _ _ _ (fun _ c => raiseLine_supKept c _)
  own := get_modAt_map _ _ _ _ _ (fun e => by omega)
  geodes _ _ := rfl
  geode x h := ⟨x, h, rfl, rfl, rfl, rfl, List.prefix_refl _⟩

theorem Reaches.log (s : State) (r : LogReq) : Reaches g k s (s.log r) := by
  obtain ⟨l, n, h⟩ := s.log_frame r
  rw [h]
  exact { Reaches.refl s with rest := rfl, hub := rfl }

theorem Reaches.eccLog (s : State) (e : Option (Nat × Nat)) : Reaches g k s (s.eccLog (.sig g k) e) := by
  cases e with
  | none => exact .refl s
  | some e =>
    show Reaches g k s (if _ then s else s.log _)
    split
    · exact .refl s
    · exact .log s _

/-- A full counter raises the core's own line 3, its attention the supervisor's line for it (R135, R473). -/
theorem Reaches.settle (s : State) (old : Core) : Reaches g k s (s.settle (.sig g k) old) := by
  have h3 : Reaches g k s (if counterFull old (s.core (.sig g k)) then s.raise (.sig g k) 3 else s) := by
    split
    · exact Reaches.onCore s (f := fun c => raiseLine c 3) 0 (fun c _ => raiseLine_fixed c 3)
    · exact .refl s
  unfold State.settle
  dsimp only
  split
  · exact h3.trans (.raiseSup _ _)
  · exact h3

/-- What the device takes of an issue reaches no further than the core, where the issue keeps what no operation changes. -/
theorem Reaches.take (s : State) {i : Issued} (h : i.core.fixed = (s.core (.sig g k)).fixed) :
    Reaches g k s (s.take (.sig g k) i) := by
  unfold State.take
  extract_lets old src mid s1 s2
  have h1 : Reaches g k s s1 := Reaches.onCore s (f := fun _ => { i.core with markOut := [] }) i.used
    (fun c hc => h.trans (by rw [core_get (r := .sig g k) hc]))
  have h2 : Reaches g k s1 s2 := .onGeode s1 (fun x => ⟨rfl, rfl, rfl, rfl, List.prefix_append _ _⟩)
  exact ((h1.trans h2).trans (.eccLog s2 _)).trans (.settle _ _)

theorem issueOp_reaches (s : State) {i : Site} (op : Instr) (h : i.core = .sig g k) : Reaches g k s (issueOp i op s) := by
  unfold issueOp
  rw [h]
  split
  · exact .take s (offer_fixed _ _ _ _)
  · exact .refl s

end

theorem exists_of_map_eq {α β : Type} {p : α → β} {a b : Option α} (h : b.map p = a.map p) {d : α} (ha : a = some d) :
    ∃ e, b = some e ∧ p e = p d := by
  subst ha
  simpa using h

/-- Settles O54: the issue keeps what `Core.fixed` names of its core (`offer_fixed`), and what the device takes of it reaches
only what `Reaches` names (`Reaches.take`). -/
theorem coreOperationFrame : Obligations.CoreOperationFrame := by
  intro op i g k s u hsite hcore hexec
  rw [exec_operation hsite] at hexec
  obtain rfl := Host.Outcome.next.inj hexec
  have h := issueOp_reaches s op hcore
  refine ⟨?_, ?_, ?_, ?_, ?_, ?_, ?_, ?_, ?_, h.free, h.hub, h.others, fun d hd => ?_, fun d hd => ?_, h.geodes, h.geode⟩
  iterate 9 rw [h.rest]
  · obtain ⟨e, he, hkept⟩ := exists_of_map_eq h.sup hd
    simp only [Core.supKept, Prod.mk.injEq] at hkept
    obtain ⟨hx, hy, hi, hr⟩ := hkept
    exact ⟨e, he, hx, hy, hi, hr⟩
  · obtain ⟨e, he, hfixed⟩ := exists_of_map_eq h.own hd
    simp only [Core.fixed, Prod.mk.injEq] at hfixed
    obtain ⟨hi, hk, hs, hb⟩ := hfixed
    exact ⟨e, he, hi, hk, hs, hb⟩

end Sys2Proof.Machine
end

section
/-! PROOFS. MVS and TGET over the system registers (R106, R113, R120, R235, R236). -/

namespace Sys2Proof.Machine
open Sys2Proof Sys2Proof.Laws

/-- MVS of a defined register that the level's bank holds is legal, a write of a core-level one at level L3 alone (R120, R235). -/
theorem opMvs_legal {i : Site} {r : BitVec 5} {n : BitVec 8} {dir dbl : Bool} {x : IssueCtx}
    (hdef : sysDefined x.c.kind n.toNat = some dbl) (hheld : sysHeld x.c.kind x.tid n.toNat = true)
    (heven : dbl = true → r.toNat % 2 = 0) (hlevel : dir = true → sysCoreLevel x.c.kind n.toNat = true → x.tid = 3) :
    opMvs i r n dir x =
      { slots := [.d]
        reads := if dir then (if dbl then ddName x.t r.toNat else [dName x.t r.toNat]) else []
        acts := wrActs
          (if dir then [(.sys n.toNat (if dbl then x.t.rdd r.toNat else (x.t.rd r.toNat).setWidth 28), 1)]
           else if dbl then pairTo x.t r.toNat (sysRead x.c x.tid x.t n.toNat) 1
           else [dTo x.t r.toNat ((sysRead x.c x.tid x.t n.toNat).truncate 14) 1])
        fuse := x.c.kind == .signal && n.toNat == 2 } := by
  have hpair : (!dbl || okEven r) = true := by cases dbl <;> simp [okEven, heven]
  have habove : (dir && (x.c.kind == .signal && decide (x.tid < 3)) && sysCoreLevel x.c.kind n.toNat) = false := by
    cases hd : dir && sysCoreLevel x.c.kind n.toNat with
    | false => cases dir <;> simp_all
    | true =>
      rw [Bool.and_eq_true] at hd
      simp [hlevel hd.1 hd.2]
  unfold opMvs
  simp only [hdef, hheld, hpair, habove, dOut, whenLegal, Bool.not_false, Bool.and_self, if_true]
  cases dir <;> cases dbl <;> rfl

/-- TGET is legal on a Lorner-S core (R236). -/
theorem opTget_legal {i : Site} {f : R3} {x : IssueCtx} (hz : f.z = 0) (hb : f.b = 0) (hk : x.c.kind ≠ .signal) :
    opTget i f x =
      { slots := [.d], reads := [dName x.t f.y.toNat]
        acts := wrActs [dTo x.t f.x.toNat (if (x.t.rd f.y.toNat).toNat % 64 < ctxCount x.c.kind then
          (match x.c.threads[(x.t.rd f.y.toNat).toNat % 64]? with | some u => tctl u | none => 0) else 0) 1] } := by
  have hlegal : (x.lornerS && okZero f.z && okZero f.b) = true := by simp [IssueCtx.lornerS, okZero, hz, hb, hk]
  unfold opTget
  simp only [hlegal, dOut, whenLegal, if_true]
  rfl

/-- Settles O6: the answers of MVS and TGET where they are legal (`opMvs_legal`, `opTget_legal`). -/
theorem systemRegisterMoves : Obligations.SystemRegisterMoves := by
  intro x n f here
  have hf {c : Core} {k : Nat} {t : Thread} (hn : n = 2 → FReady c k t) (h : (c.kind == .signal && n.toNat == 2) = true) :
      FReady c k t := by
    simp only [Bool.and_eq_true, beq_iff_eq] at h
    exact hn (BitVec.eq_of_toNat_eq h.2)
  refine ⟨fun dbl => ⟨?_, ?_⟩, fun hz hb => ?_⟩
  · apply completes_of_answer (g := fun i => opMvs i x n false) (fun _ => rfl) (fun _ s => exec_operation rfl s)
    · intro c k t w hw
      cases dbl <;> simp [pairTo, dTo] at hw <;> rcases hw with rfl | rfl <;> simp
    · rintro i k c t v ⟨⟨hdef, hheld, heven⟩, hn⟩ - rfl
      rw [opMvs_legal hdef hheld heven (by simp)]
      exact ⟨rfl, rfl, by simp, hf hn, by simp⟩
  · apply completes_of_answer (g := fun i => opMvs i x n true) (fun _ => rfl) (fun _ s => exec_operation rfl s)
    · intro c k t w hw
      simp [List.mem_singleton.1 hw]
    · rintro i k c t v ⟨⟨hdef, hheld, heven⟩, hn, hlevel⟩ - rfl
      rw [opMvs_legal hdef hheld heven (fun _ => hlevel)]
      exact ⟨rfl, rfl, by simp, hf hn, by simp⟩
  · apply completes_of_answer (g := fun i => opTget i f) (fun _ => rfl) (fun _ s => exec_operation rfl s)
    · intro c k t w hw
      simp [List.mem_singleton.1 hw, dTo]
    · rintro i k c t v hk - rfl
      rw [opTget_legal hz hb hk]
      exact ⟨rfl, rfl, by simp, by simp, by simp⟩

end Sys2Proof.Machine
end

section
/-! PROOFS. WAITE, RTE and the task operations (R126, R128, R142, R236, R237): the issue of an operation of the C slot that makes
no transfer of its own, and what the selection behind it leaves of the core. -/

namespace Sys2Proof.Machine
open Sys2Proof Sys2Proof.Laws

/-! ### The issue of an operation without a transfer -/

/-- The core behind a bundle of `n` syllables that transfers no control and writes nothing (R59). -/
def passed (c : Core) (k n : Nat) : Core := onThread (nextCore c) k (nextThread n [])

section
variable {s : State} {i : Site} {op : Instr} {k : Nat} {c : Core} {t : Thread}

theorem passed_thread (ht : c.threads[k]? = some t) (n : Nat) : (passed c k n).threads[k]? = some (nextThread n [] t) :=
  (modAt_get_self _ _ _).trans (congrArg (Option.map _) ht)

theorem passed_thread_ne (n : Nat) {m : Nat} (h : m ≠ k) : (passed c k n).threads[m]? = c.threads[m]? :=
  modAt_get_ne _ _ _ _ (Ne.symm h)

/-- The bundle of such an operation does what its control does, at the boundary behind it (R126, R237). -/
theorem commit_stays (h : Quiet s i op k c t) (o : Outside) {p : OpOut} {kf : Ctl} (ht : Transfers p [] kf)
    (hflow : ∀ d n, flow d k t t.pc n (some kf) = flow d k t t.pc n none) :
    commit o { c with asm := [op] } k t (i.syl.toNat + 1) [p] =
      { core := countStep (afterBundle (doCtl (passed c k (i.syl.toNat + 1)) k (some kf)) k) } := by
  have hcnt : ctrAdd 48 c.issued 1 = c.issued + 1 := Nat.min_eq_left (by have := h.issued; omega)
  have hbegun : onThread (onThread ({ ({ c with asm := [op] } : Core).leaveRd with issued := ctrAdd 48 c.issued 1 } : Core) k
      (fun u => { u with seq := u.seq + 1 })) k (fun u => { u with flight := u.flight ++ pends t [] }) = begun c k t [] := by
    rw [hcnt]; exact onThread_onThread _ _ _ _
  have hrows : bundleRows [p] = 0 := by simp [bundleRows, ht.vec]
  have hctlOf : ctlOf [p] = some kf := by
    rw [ctlOf, List.flatMap_singleton, ht.acts, findSome_wrActs _ (fun _ _ => rfl)]
  have hflat : (begun c k t []).threads[k]? = some (sent t [] t) := begun_thread h.thread []
  unfold commit
  simp only [List.flatMap_singleton, hctlOf, ht.acts, hrows, countFar, if_true, applyActs_wrActs]
  rw [findSome_wrActs _ (fun _ _ => rfl), hbegun, hflow,
    flow_none _ k t (sent t [] t) t.pc _ h.dslot hflat h.dslot h.rep h.loop0 h.loop1]
  have hcore : (onThread (onThread (begun c k t []) k (fun w => goSeq w (t.pc.toNat + (i.syl.toNat + 1)))) k (fun u =>
      { u with adv := t.adv + 1 + 0, micro := none })).spend (1 + 0 + 0) = passed c k (i.syl.toNat + 1) := by
    rw [onThread_onThread, begun, onThread_onThread, spend_onThread]
    refine onThread_congr (nextCore c) k _ _ fun u hu => ?_
    obtain rfl : t = u := Option.some.inj (h.thread.symm.trans hu)
    simp [goSeq, sent, nextThread, h.micro]
  have hthread := passed_thread h.thread (i.syl.toNat + 1)
  have hland : landUpTo (passed c k (i.syl.toNat + 1)) k (t.adv + 0) = passed c k (i.syl.toNat + 1) :=
    landUpTo_none _ _ _ _ hthread (by simpa [nextThread, pends] using h.due)
  have hkeep : keepLate k { core := passed c k (i.syl.toNat + 1) } = { core := passed c k (i.syl.toNat + 1) } :=
    keepLate_same k _ (by show c.sb.length ≤ 4; simp [h.sb]) (by simp)
  have hmicro : (nextThread (i.syl.toNat + 1) [] t).micro = none := h.micro
  simp only [hcore, hland, Option.map_none]
  rw [microRun_none o k _ _ hthread hmicro, hkeep]

/-- THE LAW OF WAITS AND TASKS. On a core that stands ready, the device takes what the operation's control and the boundary
behind its bundle leave of the core. -/
theorem issueOp_stays {f : IssueCtx → OpOut} (h : Quiet s i op k c t) (hm : opMeaning op = some (i, f)) {kf : Ctl}
    (ht : Transfers (f (viewOf i op k c t)) [] kf) (hrep : (f (viewOf i op k c t)).isRep = false)
    (hflow : ∀ d n, flow d k t t.pc n (some kf) = flow d k t t.pc n none) :
    issueOp i op s = s.take i.core
      { core := countStep (afterBundle (doCtl (passed c k (i.syl.toNat + 1)) k (some kf)) k) } := by
  have htry := (tryIssue_quiet h hm ht.excs (by simp [ht.vec]) (by simp [ht.fuse]) (by simp [hrep])).trans
    (commit_stays h (s.outside i.core) ht hflow)
  have hasm : ({ c with asm := c.ghost ++ c.asm ++ [op], ghost := [] } : Core) = { c with asm := [op] } := by
    rw [h.asm, h.ghost]; rfl
  unfold issueOp offer
  simp only [core_of h.core, h.takes, if_true, Bool.not_true, Bool.false_eq_true, if_false, h.last]
  rw [hasm, htry]

end

/-! ### The selection of a core where nothing runs -/

/-- What a core's change leaves for the device to act on: nothing that it sees, no STEP's end, no context that faults. -/
structure Rested (c d : Core) : Prop where
  seen : SeenAlike c d
  steps : d.stepLeft = c.stepLeft
  faults : ∀ (j : Nat) (b : Thread), d.threads[j]? = some b → b.tstate = .faulted →
    ∃ a, c.threads[j]? = some a ∧ a.tstate = .faulted

theorem Rested.refl (c : Core) : Rested c c := ⟨⟨rfl, rfl, rfl, rfl, rfl, rfl, rfl, rfl⟩, rfl, fun _ b h hf => ⟨b, h, hf⟩⟩

theorem Rested.trans {b c d : Core} (h : Rested b c) (h' : Rested c d) : Rested b d :=
  ⟨h.seen.trans h'.seen, h'.steps.trans h.steps, fun j u hu hf => by
    obtain ⟨a, ha, hfa⟩ := h'.faults j u hu hf
    exact h.faults j a ha hfa⟩

/-- The wait bits and L3ACT, which no selection changes. -/
def Core.waits (c : Core) : Bool × Bool × Bool := (c.l0w, c.l1w, c.l3act)

theorem faulted_onThread {c : Core} {k : Nat} {f : Thread → Thread} (h : ∀ t, (f t).tstate = .faulted → t.tstate = .faulted)
    (j : Nat) (b : Thread) (hb : (onThread c k f).threads[j]? = some b) (hf : b.tstate = .faulted) :
    ∃ a, c.threads[j]? = some a ∧ a.tstate = .faulted := by
  rw [onThread, modAt_get] at hb
  split at hb
  · obtain ⟨a, ha, rfl⟩ := Option.map_eq_some_iff.1 hb
    exact ⟨a, ha, h a hf⟩
  · exact ⟨b, hb, hf⟩

theorem rested_onThread (c : Core) (k : Nat) {f : Thread → Thread} (h : ∀ t, (f t).tstate = .faulted → t.tstate = .faulted) :
    Rested c (onThread c k f) :=
  ⟨⟨rfl, rfl, rfl, rfl, rfl, rfl, rfl, rfl⟩, rfl, faulted_onThread h⟩

theorem enteredThread_faulted {c : Core} {k : Nat} {t : Thread} (h : (enteredThread c k t).tstate = .faulted) :
    t.tstate = .faulted := by
  unfold enteredThread at h
  dsimp only at h
  split at h
  · split at h <;> split at h <;> exact h
  · cases h

/-- A level or context that takes the core keeps its place, unless it is level L2 that begins (R127). -/
theorem enteredThread_place {c : Core} {k : Nat} (h : beginsL2 c k = false) (t : Thread) :
    (enteredThread c k t).dslot = t.dslot ∧ (enteredThread c k t).rep = t.rep := by
  simp only [enteredThread, h, Bool.false_eq_true, if_false]
  split <;> split <;> exact ⟨rfl, rfl⟩

theorem parkedThread_faulted {c : Core} {n : Nat} {t : Thread} (h : (parkedThread c n t).tstate = .faulted) :
    t.tstate = .faulted := by
  simp only [parkedThread] at h
  split at h
  · cases h
  · exact h

/-- A core where nothing runs stays idle, or a level or context that is ready takes it (R124, R141). -/
theorem switchTo_pick {c : Core} (hr : c.run = .idle) :
    switchTo c (pick c) = c ∨ ∃ j, readyLevel c j = true ∧ switchTo c (pick c) = enter { c with asm := [], ghost := [] } j := by
  have hready (j : Nat) (h : pick c = .lvl j) : readyLevel c j = true := by
    by_cases hk : c.kind = .signal
    · unfold pick at h
      rw [hk] at h
      dsimp only at h
      cases hf : (ranking c.l0open).find? (readyLevel c) with
      | none => rw [hf] at h; cases h
      | some m => rw [hf] at h; cases h; exact List.find?_some hf
    · rw [pick_context hk] at h
      cases hf : pickCtx c with
      | none => rw [hf] at h; cases h
      | some m => rw [hf] at h; cases h; exact readyLevel_of_pickCtx hr hf
  cases hp : pick c with
  | idle => exact .inl (if_pos hr.symm)
  | lvl j => exact .inr ⟨j, hready j hp, by simp [switchTo, hr]⟩

/-- What that selection leaves where level or context `k` is not ready: it does not run, and its thread is as it was. -/
theorem switchTo_pick_rests {c : Core} {k : Nat} (hr : c.run = .idle) (hn : readyLevel c k = false) :
    (switchTo c (pick c)).run ≠ .lvl k ∧ (switchTo c (pick c)).threads[k]? = c.threads[k]? ∧
      (switchTo c (pick c)).waits = c.waits ∧ (k = 2 → (switchTo c (pick c)).l2act = c.l2act) ∧
      Rested c (switchTo c (pick c)) := by
  rcases switchTo_pick hr with h | ⟨j, hj, h⟩
  · rw [h]
    exact ⟨by simp [hr], rfl, rfl, fun _ => rfl, .refl c⟩
  · have hne : j ≠ k := by rintro rfl; simp [hn] at hj
    rw [h, enter_eq]
    refine ⟨by simpa [onThread, enteredCore, Core.spend] using hne, modAt_get_ne _ _ _ _ hne, rfl, fun h2 => ?_,
      ⟨rfl, rfl, rfl, rfl, rfl, rfl, rfl, rfl⟩, rfl, faulted_onThread fun _ => enteredThread_faulted⟩
    have hbegins : beginsL2 { c with asm := [], ghost := [] } j = false := by simp [beginsL2, h2 ▸ hne]
    simp [onThread, enteredCore, Core.spend, hbegins]

/-- A level or context that no longer may run leaves the core at the boundary behind its bundle (R126). -/
theorem afterBundle_leaves {c : Core} {k : Nat} {t : Thread} (hr : c.run = .lvl k) (ht : c.threads[k]? = some t)
    (hp : dispatchPoint t = true) (htrap : t.trapDue = none) (hstop : t.stopReq = false) (hn : readyLevel c k = false) :
    (afterBundle c k).run ≠ .lvl k ∧ (afterBundle c k).threads[k]? = some (parkedThread c 1 t) ∧
      (afterBundle c k).waits = c.waits ∧ Rested c (afterBundle c k) := by
  generalize hd : ({ park c k 1 with asm := [], ghost := [], run := .idle, fresh := false } : Core) = d
  have hidle : switchTo c .idle = d := by simp [switchTo, hr, ← hd]
  have hafter : afterBundle c k = switchTo d (pick d) := by
    simp [afterBundle, ht, hr, hp, htrap, hstop, hn, hidle]
  have hthread : d.threads[k]? = some (parkedThread c 1 t) := by
    rw [← hd]
    exact (modAt_get_self _ _ _).trans (congrArg _ ht)
  have hready : readyLevel d k = false := by
    have hline : lineFor d 2 = lineFor c 2 := by rw [← hd]; rfl
    have hkind : d.kind = c.kind := by rw [← hd]; rfl
    have hbits : d.l0st = c.l0st ∧ d.l0w = c.l0w ∧ d.l1st = c.l1st ∧ d.l1w = c.l1w ∧ d.l2act = c.l2act ∧
        d.l3act = c.l3act := by rw [← hd]; exact ⟨rfl, rfl, rfl, rfl, rfl, rfl⟩
    obtain ⟨h0, h1, h2, h3, h4, h5⟩ := hbits
    unfold readyLevel at hn ⊢
    rw [hkind, hline, h0, h1, h2, h3, h4, h5, hthread]
    rw [ht] at hn
    split at hn
    · exact hn
    · by_cases hrun : t.tstate = .running <;> simp_all [parkedThread]
  obtain ⟨h1, h2, h3, -, h4⟩ := switchTo_pick_rests (by rw [← hd]) hready
  rw [hafter]
  refine ⟨h1, h2.trans hthread, h3.trans (by rw [← hd]; rfl), .trans ?_ h4⟩
  rw [← hd]
  exact ⟨⟨rfl, rfl, rfl, rfl, rfl, rfl, rfl, rfl⟩, rfl, faulted_onThread fun _ => parkedThread_faulted⟩

section
variable {s : State} {i : Site} {op : Instr} {k : Nat} {c : Core} {t : Thread}

/-- The device keeps exactly what such an operation leaves of its core. -/
theorem issueOp_rests {f : IssueCtx → OpOut} (h : Quiet s i op k c t) (hm : opMeaning op = some (i, f)) {kf : Ctl}
    (ht : Transfers (f (viewOf i op k c t)) [] kf) (hrep : (f (viewOf i op k c t)).isRep = false)
    (hflow : ∀ d n, flow d k t t.pc n (some kf) = flow d k t t.pc n none) {d : Core}
    (hd : afterBundle (doCtl (passed c k (i.syl.toNat + 1)) k (some kf)) k = d)
    (hrest : Rested (passed c k (i.syl.toNat + 1)) d) : (issueOp i op s).cores[coreIdx i.core]? = some d := by
  have hstep : countStep d = d := countStep_none d (hrest.steps.trans h.steps)
  have hissued : d.issued = c.issued + 1 := hrest.seen.issued
  have hfull : counterFull c d = false := counterFull_plain c d (by have := h.issued; omega) hrest.seen.flushed
    hrest.seen.vwakes hrest.seen.offAcc hrest.seen.offStall
  rw [issueOp_stays h hm ht hrep hflow, hd, hstep]
  refine take_get_plain h.core (hrest.seen.marks.trans h.marks) hrest.seen.attn
    (hrest.seen.stop.trans (takes_live h.takes).1) (fun _ => newFault_none fun j a b ha hb hf => ?_) hfull
  obtain ⟨u, hu, hfu⟩ := hrest.faults j b hb hf
  obtain ⟨v, hv, hfv⟩ := faulted_onThread (f := nextThread (i.syl.toNat + 1) []) (fun _ => id) j u hu hfu
  rw [Option.some.inj (ha.symm.trans hv)]
  exact hfv

/-! ### WAITE -/

/-- Behind the bundle the thread stands at a dispatch point where nothing waits for it (R70). -/
theorem dispatchPoint_next (h : Quiet s i op k c t) (n : Nat) : dispatchPoint (nextThread n [] t) = true := by
  show (t.dslot.isNone && t.micro.isNone && match t.rep with | some r => r.intr && !r.first | none => true) = true
  rw [h.dslot, h.micro, h.rep]
  rfl

/-- A level or context that WAITE makes wait, as `v`, leaves the core (R126, R142). -/
theorem waite_leaves (h : Quiet s i (.waite i) k c t) (hlegal : c.kind = .signal → k < 2) {q d : Core}
    (hq : passed c k (i.syl.toNat + 1) = q) (hd : doWaite q k = d) (hrun : d.run = c.run) {ts : CtxState}
    (hthread : d.threads[k]? = some { nextThread (i.syl.toNat + 1) [] t with tstate := ts })
    (hn : readyLevel d k = false) (hrest : Rested q d) :
    ∃ e, (issueOp i (.waite i) s).cores[coreIdx i.core]? = some e ∧ e.run ≠ .lvl k ∧ e.waits = d.waits ∧
      e.threads[k]? = some (parkedThread d 1 { nextThread (i.syl.toNat + 1) [] t with tstate := ts }) := by
  subst hq
  obtain ⟨h1, h2, h3, h4⟩ := afterBundle_leaves (hrun.trans h.run) hthread (dispatchPoint_next h (i.syl.toNat + 1)) h.trap
    h.stop hn
  have hok : ((viewOf i (.waite i) k c t).c.kind != .signal || decide ((viewOf i (.waite i) k c t).tid < 2)) = true := by
    by_cases hk : c.kind = .signal
    · simp [viewOf, hk, hlegal hk]
    · simp [viewOf, hk]
  obtain ⟨ht, hrep⟩ := cOut_transfers hok [] .waite false
  exact ⟨_, issueOp_rests (f := opWaite i) h rfl ht hrep (fun _ _ => rfl) (by rw [← hd]; rfl) (hrest.trans h4), h1, h3, h2⟩

/-- A level that waits (R126). -/
theorem waite_level (h : Quiet s i (.waite i) k c t) (hline : lineFor c k = false) (hk : c.kind = .signal) (h2 : k < 2) :
    ∃ u, exec (.waite i) s = .next u ∧
      (if k = 0 then (u.core i.core).l0w = true else (u.core i.core).l1w = true) ∧ (u.core i.core).run ≠ .lvl k := by
  generalize hq : passed c k (i.syl.toNat + 1) = q
  have hkind : q.kind = .signal := by rw [← hq]; exact hk
  have hfor : lineFor q k = false := by rw [← hq]; exact hline
  have hthread : q.threads[k]? = some (nextThread (i.syl.toNat + 1) [] t) := by rw [← hq]; exact passed_thread h.thread _
  have hrun : q.run = c.run := by rw [← hq]; rfl
  have hrefl := Rested.refl q
  rcases (by omega : k = 0 ∨ k = 1) with rfl | rfl
  · have hd : doWaite q 0 = { q with l0w := true, l0open := false } := by simp [doWaite, hfor, hkind]
    obtain ⟨e, he, h1, h3, -⟩ := waite_leaves h (fun _ => h2) hq hd hrun hthread (by simp [readyLevel, hkind])
      ⟨⟨rfl, rfl, rfl, rfl, rfl, rfl, rfl, rfl⟩, rfl, hrefl.faults⟩
    refine ⟨_, exec_operation rfl s, ?_⟩
    rw [core_get he]
    simp only [Core.waits, Prod.mk.injEq] at h3
    simp [h3, h1]
  · have hd : doWaite q 1 = { q with checkpointDue := false, l1w := true } := by simp [doWaite, hfor, hkind]
    obtain ⟨e, he, h1, h3, -⟩ := waite_leaves h (fun _ => h2) hq hd hrun hthread (by simp [readyLevel, hkind])
      ⟨⟨rfl, rfl, rfl, rfl, rfl, rfl, rfl, rfl⟩, rfl, hrefl.faults⟩
    refine ⟨_, exec_operation rfl s, ?_⟩
    rw [core_get he]
    simp only [Core.waits, Prod.mk.injEq] at h3
    simp [h3, h1]

/-- A context that waits (R142). -/
theorem waite_context (h : Quiet s i (.waite i) k c t) (hline : lineFor c k = false) (hk : c.kind ≠ .signal) :
    ∃ u v, exec (.waite i) s = .next u ∧ u.threadAt i.core k = some v ∧ v.tstate = .waiting := by
  generalize hq : passed c k (i.syl.toNat + 1) = q
  have hkind : q.kind ≠ .signal := by rw [← hq]; exact hk
  have hfor : lineFor q k = false := by rw [← hq]; exact hline
  have hthread : q.threads[k]? = some (nextThread (i.syl.toNat + 1) [] t) := by rw [← hq]; exact passed_thread h.thread _
  generalize hp : (if k = 1 then { q with checkpointDue := false } else q) = p
  obtain ⟨hpt, hpk, hpr, hrest⟩ : p.threads = q.threads ∧ p.kind = q.kind ∧ p.run = q.run ∧ Rested q p := by
    rw [← hp]
    split <;> exact ⟨rfl, rfl, rfl, ⟨rfl, rfl, rfl, rfl, rfl, rfl, rfl, rfl⟩, rfl, (Rested.refl q).faults⟩
  generalize hd : onThread p k (fun u => { u with tstate := .waiting }) = d
  have hwait : doWaite q k = d := by
    simp only [doWaite, hfor, Bool.false_eq_true, if_false, hp]
    exact hd
  have hget : d.threads[k]? = some { nextThread (i.syl.toNat + 1) [] t with tstate := .waiting } := by
    simp [← hd, onThread, hpt, hthread]
  have hready : readyLevel d k = false := by
    unfold readyLevel
    split
    · next hs => exact absurd (hpk.symm.trans (by rw [← hs, ← hd]; rfl)) hkind
    · rw [hget]; rfl
  have hrun : d.run = c.run := by rw [← hd]; exact hpr.trans (by rw [← hq]; rfl)
  obtain ⟨e, he, -, -, hv⟩ := waite_leaves h (fun hs => absurd hs hk) hq hwait hrun hget hready
    (hrest.trans (hd ▸ rested_onThread p k fun _ hf => by cases hf))
  exact ⟨_, _, exec_operation rfl s, (threadAt_get he).trans hv, rfl⟩

/-! ### RTE -/

/-- RTE is legal at levels L2 and L3 of a signal core (R128). -/
theorem rte_rests (h : Quiet s i (.rte i) k c t) (hk : c.kind = .signal) (h2 : 2 ≤ k) {d : Core}
    (hd : doRte (passed c k (i.syl.toNat + 1)) k = d) (hrun : d.run ≠ .lvl k)
    (hrest : Rested (passed c k (i.syl.toNat + 1)) d) : (issueOp i (.rte i) s).cores[coreIdx i.core]? = some d := by
  have hok : ((viewOf i (.rte i) k c t).c.kind == .signal && decide (2 ≤ (viewOf i (.rte i) k c t).tid)) = true := by
    simp [viewOf, hk, h2]
  obtain ⟨⟨h1, h2, h3, h4⟩, hrep⟩ := cOut_transfers hok [] .rte false
  have hafter : afterBundle d k = d := by
    unfold afterBundle
    split
    · rfl
    · simp [hrun]
  exact issueOp_rests (f := opRte i) h rfl ⟨h1, h2, h3, h4⟩ hrep (fun _ _ => rfl)
    ((congrArg (fun e => afterBundle e k) hd).trans hafter) hrest

/-- Level L2 ends (R128). -/
theorem rte_level2 (h : Quiet s i (.rte i) 2 c t) (hk : c.kind = .signal) (hline : lineFor c 2 = false) :
    ((issueOp i (.rte i) s).core i.core).l2act = false := by
  generalize hq : ({ passed c 2 (i.syl.toNat + 1) with l2act := false, run := .idle } : Core) = q
  have hrest : Rested (passed c 2 (i.syl.toNat + 1)) q := by
    rw [← hq]
    exact ⟨⟨rfl, rfl, rfl, rfl, rfl, rfl, rfl, rfl⟩, rfl, (Rested.refl _).faults⟩
  have hready : readyLevel q 2 = false := by
    have hkind : q.kind = .signal := by rw [← hq]; exact hk
    have hfor : lineFor q 2 = false := by rw [← hq]; exact hline
    have hact : q.l2act = false := by rw [← hq]
    simp [readyLevel, hkind, hfor, hact]
  obtain ⟨h1, -, -, h2, h3⟩ := switchTo_pick_rests (by rw [← hq]) hready
  have hrte : doRte (passed c 2 (i.syl.toNat + 1)) 2 = switchTo q (pick q) := by rw [← hq]; rfl
  rw [core_get (rte_rests h hk (Nat.le_refl 2) hrte h1 (hrest.trans h3)), h2 rfl, ← hq]

end

/-- RTE and TRESUME at what was no repetition continue at XPC (R119). -/
theorem resumeThread_goes {im : SMap 28} {x t : Thread} (hrep : bitOf x.xcause 12 = false) :
    (resumeThread im x t).pc = x.xpc ∧ (resumeThread im x t).rep = none := by
  simp [resumeThread, hrep, goTo]

/-- Outside a delay slot they leave none open (R119). -/
theorem resumeThread_slot {im : SMap 28} {x t : Thread} (hslot : bitOf x.xcause 13 = false) :
    (resumeThread im x t).dslot = none := by
  simp [resumeThread, hslot]

/-- They keep the registers, the priority and the state of the level or context. -/
theorem resumeThread_keeps (im : SMap 28) (x t : Thread) :
    (resumeThread im x t).d = t.d ∧ sameBank t (resumeThread im x t) ∧ (resumeThread im x t).pri = t.pri ∧
      (resumeThread im x t).tstate = t.tstate := by
  unfold resumeThread
  dsimp only
  split <;> exact ⟨rfl, sameBank_refl t, rfl, rfl⟩

theorem sameBank_trans {t u v : Thread} (h : sameBank t u) (h' : sameBank u v) : sameBank t v := by
  obtain ⟨h1, h2, h3, h4, h5, h6, h7, h8, h9, h10, h11, h12, h13⟩ := h
  obtain ⟨g1, g2, g3, g4, g5, g6, g7, g8, g9, g10, g11, g12, g13⟩ := h'
  exact ⟨g1.trans h1, g2.trans h2, g3.trans h3, g4.trans h4, g5.trans h5, g6.trans h6, g7.trans h7, g8.trans h8, g9.trans h9,
    g10.trans h10, g11.trans h11, g12.trans h12, g13.trans h13⟩

/-- Where a level stands once the selection on an idle core is made: it keeps its registers and, but for level L2 that begins,
its place (R124, R127). -/
theorem switchTo_pick_place {c : Core} {l : Nat} {r : Thread} (hr : c.run = .idle) (ht : c.threads[l]? = some r)
    (hl2 : l = 2 → c.l2act = true) :
    ∃ y, (switchTo c (pick c)).threads[l]? = some y ∧ y.pc = r.pc ∧ y.dslot = r.dslot ∧ y.rep = r.rep ∧ y.d = r.d ∧
      sameBank r y := by
  rcases switchTo_pick hr with h | ⟨j, -, h⟩
  · exact ⟨r, by rw [h]; exact ht, rfl, rfl, rfl, rfl, sameBank_refl r⟩
  · rw [h, enter_eq]
    by_cases hj : j = l
    · subst hj
      have hbegins : beginsL2 { c with asm := [], ghost := [] } j = false := by
        by_cases h2 : j = 2
        · simp [beginsL2, hl2 h2]
        · simp [beginsL2, h2]
      obtain ⟨hd, hbank, -, -, -, hpc⟩ := enteredThread_keeps { c with asm := [], ghost := [] } j r
      obtain ⟨hds, hrep⟩ := enteredThread_place hbegins r
      rw [hbegins] at hpc
      exact ⟨_, (modAt_get_self _ _ _).trans (congrArg _ ht), hpc, hds, hrep, hd, hbank⟩
    · exact ⟨r, (modAt_get_ne _ _ _ _ hj).trans ht, rfl, rfl, rfl, rfl, sameBank_refl r⟩

section
variable {s : State} {i : Site} {op : Instr} {k : Nat} {c : Core} {t : Thread}

/-- Level L3 ends, and the faulting level continues at XPC (R119, R128). -/
theorem rte_level3 (h : Quiet s i (.rte i) 3 c t) (hk : c.kind = .signal) {l : Nat} {x : Thread}
    (hl : l = t.xcause.toNat / 1024 % 4) (hl3 : l ≠ 3) (hl2 : l = 2 → c.l2act = true) (hx : c.threads[l]? = some x)
    (hrep : bitOf t.xcause 12 = false) (hslot : bitOf t.xcause 13 = false) :
    ∃ u y, exec (.rte i) s = .next u ∧ (u.core i.core).l3act = false ∧ u.threadAt i.core l = some y ∧
      y.pc = t.xpc ∧ y.dslot = none ∧ y.rep = none ∧ y.d = x.d ∧ sameBank x y := by
  generalize hn : nextThread (i.syl.toNat + 1) [] t = v
  obtain ⟨hvc, hvp⟩ : v.xcause = t.xcause ∧ v.xpc = t.xpc := by rw [← hn]; exact ⟨rfl, rfl⟩
  generalize hq : passed c 3 (i.syl.toNat + 1) = q
  have hv : q.threads[3]? = some v := by rw [← hq, ← hn]; exact passed_thread h.thread _
  have hxq : q.threads[l]? = some x := by rw [← hq, passed_thread_ne _ hl3]; exact hx
  have hkind : q.kind = .signal := by rw [← hq]; exact hk
  have hact : q.l2act = c.l2act := by rw [← hq]; rfl
  generalize hp : ({ onThread q l (resumeThread q.imem.cells v) with l3act := false, run := .idle } : Core) = p
  have hrte : doRte q 3 = switchTo p (pick p) := by simp [doRte, hv, hvc, ← hl, ← hp]
  have hidle : p.run = .idle := by rw [← hp]
  have hready : readyLevel p 3 = false := by simp [readyLevel, ← hp, onThread, hkind]
  have hxp : p.threads[l]? = some (resumeThread q.imem.cells v x) := by
    rw [← hp]
    exact (modAt_get_self _ _ _).trans (congrArg _ hxq)
  have hrest : Rested q p := by
    rw [← hp]
    refine ⟨⟨rfl, rfl, rfl, rfl, rfl, rfl, rfl, rfl⟩, rfl, faulted_onThread fun u hu => ?_⟩
    obtain ⟨-, -, -, hstate⟩ := resumeThread_keeps q.imem.cells v u
    exact hstate ▸ hu
  obtain ⟨h1, -, h3, -, h4⟩ := switchTo_pick_rests hidle hready
  have hcore := rte_rests h hk (by omega) (hq ▸ hrte) h1 (hq ▸ hrest.trans h4)
  obtain ⟨y, hy, hpc, hds, hr, hd, hbank⟩ := switchTo_pick_place hidle hxp
    (fun h2 => by rw [← hp]; exact hact.trans (hl2 h2))
  obtain ⟨hgo, hnorep⟩ := resumeThread_goes (im := q.imem.cells) (t := x) (hvc ▸ hrep)
  obtain ⟨hkd, hkb, -, -⟩ := resumeThread_keeps q.imem.cells v x
  simp only [Core.waits, Prod.mk.injEq] at h3
  obtain ⟨-, -, hl3act⟩ := h3
  refine ⟨_, y, exec_operation rfl s, ?_, (threadAt_get hcore).trans hy, hpc.trans (hgo.trans hvp),
    hds.trans (resumeThread_slot (hvc ▸ hslot)), hr.trans hnorep, hd.trans hkd, ?_⟩
  · rw [core_get hcore, hl3act, ← hp]
  · exact sameBank_trans hkb hbank

/-! ### The task operations -/

/-- Whether a context is ready is said by its state and its hold (R141). -/
theorem readyLevel_context {c : Core} {k : Nat} {t : Thread} (hk : c.kind ≠ .signal) (ht : c.threads[k]? = some t) :
    readyLevel c k = ((t.tstate == .ready || t.tstate == .running) && !t.held) := by
  unfold readyLevel
  split
  · next hs => exact absurd hs hk
  · rw [ht]

/-- An operation that changes another context alone leaves it as `f` makes it (R236). -/
theorem task_leaves {g : IssueCtx → OpOut} (h : Quiet s i op k c t) (hm : opMeaning op = some (i, g)) {kf : Ctl}
    (ht : Transfers (g (viewOf i op k c t)) [] kf) (hrep : (g (viewOf i op k c t)).isRep = false)
    (hflow : ∀ d n, flow d k t t.pc n (some kf) = flow d k t t.pc n none) (hsite : siteOf op = some i)
    (hk : c.kind ≠ .signal) {m : Nat} (hmk : m ≠ k) {x : Thread} (hx : c.threads[m]? = some x) {f : Thread → Thread}
    (hdo : doCtl (passed c k (i.syl.toNat + 1)) k (some kf) = onThread (passed c k (i.syl.toNat + 1)) m f)
    (hfault : ∀ u, (f u).tstate = .faulted → u.tstate = .faulted) :
    ∃ u, exec op s = .next u ∧ u.threadAt i.core m = some (f x) := by
  generalize hq : passed c k (i.syl.toNat + 1) = q at hdo
  have hown : q.threads[k]? = some (nextThread (i.syl.toNat + 1) [] t) := by rw [← hq]; exact passed_thread h.thread _
  have hother : (onThread q m f).threads[m]? = some (f x) := by
    refine (modAt_get_self _ _ _).trans ?_
    rw [← hq, passed_thread_ne _ hmk, hx]
    rfl
  have hkept : (onThread q m f).threads[k]? = some (nextThread (i.syl.toNat + 1) [] t) :=
    (modAt_get_ne _ _ _ _ hmk).trans hown
  have hready : readyLevel (onThread q m f) k = true :=
    (readyLevel_context (by rw [← hq]; exact hk) hkept).trans ((readyLevel_context hk h.thread).symm.trans h.ready)
  have hstays : afterBundle (doCtl (passed c k (i.syl.toNat + 1)) k (some kf)) k = onThread q m f := by
    rw [hq, hdo]
    exact afterBundle_stays _ _ _ hkept hready h.trap h.stop
  have hcore := issueOp_rests h hm ht hrep hflow hstays (hq ▸ rested_onThread q m hfault)
  exact ⟨_, exec_operation hsite s, (threadAt_get hcore).trans hother⟩

/-- A task operation that names a context of a core that is no signal core is legal (R233, R236). -/
theorem taskOut_transfers {x : IssueCtx} {n : BitVec 6} (hk : x.c.kind ≠ .signal) (hn : n.toNat < ctxCount x.c.kind)
    (reads : List WName) (kf : Ctl) :
    Transfers (taskOut x n reads kf) [] kf ∧ (taskOut x n reads kf).isRep = false :=
  cOut_transfers (by simp [IssueCtx.lornerS, hk, hn]) reads kf false

/-- TSTART makes a stopped context ready at Ds (R236). -/
theorem tstart_leaves {ds : BitVec 5} {n : BitVec 6} (h : Quiet s i (.tstart i ds n) k c t) (hk : c.kind ≠ .signal)
    (hnk : n.toNat ≠ k) (hn : n.toNat < ctxCount c.kind) {x : Thread} (hx : c.threads[n.toNat]? = some x)
    (hst : x.tstate = .stopped) :
    ∃ u y, exec (.tstart i ds n) s = .next u ∧ u.threadAt i.core n.toNat = some y ∧ y.d = x.d ∧ sameBank x y ∧
      y.tstate = .ready ∧ y.pc = t.rd ds.toNat ∧ y.entry = t.rd ds.toNat ∧ y.pri = x.pri := by
  obtain ⟨ht, hrep⟩ := taskOut_transfers (x := viewOf i (.tstart i ds n) k c t) hk hn [dName t ds.toNat]
    (.tstart n.toNat (t.rd ds.toNat))
  obtain ⟨u, hu, hy⟩ := task_leaves (g := opTstart i ds n) h rfl ht hrep (fun _ _ => rfl) rfl hk hnk hx rfl
    (fun v => by split <;> simp)
  rw [if_pos hst] at hy
  exact ⟨u, _, hu, hy, rfl, sameBank_refl x, rfl, rfl, rfl, rfl⟩

/-- TRESUME makes a faulted context ready at its XPC (R236). -/
theorem tresume_leaves {n : BitVec 6} (h : Quiet s i (.tresume i n) k c t) (hk : c.kind ≠ .signal)
    (hnk : n.toNat ≠ k) (hn : n.toNat < ctxCount c.kind) {x : Thread} (hx : c.threads[n.toNat]? = some x)
    (hst : x.tstate = .faulted) (hxrep : bitOf x.xcause 12 = false) :
    ∃ u y, exec (.tresume i n) s = .next u ∧ u.threadAt i.core n.toNat = some y ∧ y.d = x.d ∧ sameBank x y ∧
      y.tstate = .ready ∧ y.pc = x.xpc ∧ y.pri = x.pri := by
  obtain ⟨ht, hrep⟩ := taskOut_transfers (x := viewOf i (.tresume i n) k c t) hk hn [] (.tresume n.toNat)
  obtain ⟨u, hu, hy⟩ := task_leaves (g := opTresume i n) h rfl ht hrep (fun _ _ => rfl) rfl hk hnk hx rfl
    (fun v => by split <;> simp)
  rw [if_pos hst] at hy
  obtain ⟨hd, hbank, hpri, -⟩ := resumeThread_keeps (passed c k (i.syl.toNat + 1)).imem.cells x x
  exact ⟨u, _, hu, hy, hd, hbank, rfl, (resumeThread_goes hxrep).1, hpri⟩

/-- TSTOP stops a context that does not run (R237). -/
theorem tstop_leaves {n : BitVec 6} (h : Quiet s i (.tstop i n) k c t) (hk : c.kind ≠ .signal)
    (hnk : n.toNat ≠ k) (hn : n.toNat < ctxCount c.kind) {x : Thread} (hx : c.threads[n.toNat]? = some x)
    (hst : x.tstate ≠ .running) :
    ∃ u y, exec (.tstop i n) s = .next u ∧ u.threadAt i.core n.toNat = some y ∧ y.d = x.d ∧ sameBank x y ∧
      y.tstate = .stopped ∧ y.pc = x.pc ∧ y.pri = x.pri := by
  obtain ⟨ht, hrep⟩ := taskOut_transfers (x := viewOf i (.tstop i n) k c t) hk hn [] (.tstop n.toNat)
  obtain ⟨u, hu, hy⟩ := task_leaves (g := opTstop i n) h rfl ht hrep (fun _ _ => rfl) rfl hk hnk hx rfl
    (fun v => by split <;> simp)
  rw [if_neg hst] at hy
  exact ⟨u, _, hu, hy, rfl, sameBank_refl x, rfl, rfl, rfl⟩

/-- TSET gives the context that its first operand names the priority in its second (R236). -/
theorem tset_leaves {f : R3} (h : Quiet s i (.tset i f) k c t) (hk : c.kind ≠ .signal) {m : Nat}
    (hmk : m ≠ k) (hm : m < ctxCount c.kind) {x : Thread} (hx : c.threads[m]? = some x) (hfx : f.x = 0) (hfb : f.b = 0)
    (hname : (t.rd f.y.toNat).toNat % 64 = m) :
    ∃ u y, exec (.tset i f) s = .next u ∧ u.threadAt i.core m = some y ∧ y.d = x.d ∧ sameBank x y ∧
      y.pri = (t.rd f.z.toNat).truncate 2 ∧ y.tstate = x.tstate ∧ y.pc = x.pc := by
  have hlegal : ((viewOf i (.tset i f) k c t).lornerS && okZero f.x && okZero f.b) = true := by
    simp [viewOf, IssueCtx.lornerS, hk, hfx, hfb, okZero]
  obtain ⟨ht, hrep⟩ := cOut_transfers hlegal [dName t f.y.toNat, dName t f.z.toNat]
    (.tset ((t.rd f.y.toNat).toNat % 64) ((t.rd f.z.toNat).truncate 2)) false
  obtain ⟨u, hu, hy⟩ := task_leaves (g := opTset i f) (f := fun v => { v with pri := (t.rd f.z.toNat).truncate 2 }) h rfl ht
    hrep (fun _ _ => rfl) rfl hk hmk hx (by rw [hname]; exact if_pos hm) (fun v => id)
  exact ⟨u, _, hu, hy, rfl, sameBank_refl x, rfl, rfl, rfl⟩

end

/-- Settles O21: an operation of the C slot passes its bundle and changes its core alone; WAITE and RTE end at the selection
behind the bundle, and the task operations leave the running context where it is. -/
theorem waitsReturnsAndTasks : Obligations.WaitsReturnsAndTasks := by
  refine ⟨fun s i k c t => ⟨fun h hline => ⟨fun hk h2 => waite_level h hline hk h2, fun hk => waite_context h hline hk⟩,
    fun h hk => ⟨?_, ?_⟩⟩, fun s i k m c t x ds n f hk hmk hm hx => ⟨?_, ?_⟩⟩
  · rintro rfl
    exact ⟨_, exec_operation rfl s, rte_level2 h hk⟩
  · rintro l x rfl hl hl3 hl2 hx hrep hslot
    exact rte_level3 h hk hl hl3 hl2 hx hrep hslot
  · rintro rfl
    exact ⟨fun hst h => tstart_leaves h hk hmk hm hx hst, fun hst hrep h => tresume_leaves h hk hmk hm hx hst hrep,
      fun hst h => tstop_leaves h hk hmk hm hx hst⟩
  · exact fun hfx hfb hname h => tset_leaves h hk hmk hm hx hfx hfb hname

end Sys2Proof.Machine
end

section
/-! PROOFS. The core control port and the fabric registers (R109, R123, R243, R249, R261): what the port answers of a core that
stands halted and of one that runs, said once, and what each write then does. -/

namespace Sys2Proof.Machine
open Sys2Proof Sys2Proof.Laws

/-! ### The user decode table -/

/-- A header with V = 0 is kept, and so is one whose entry is valid (R243). -/
theorem writeUdtHeader_kept {c : Core} {u : Nat} {hdr : Word} (h : bitOf hdr 13 = false ∨ udtWhy c.udt u hdr = 0) :
    writeUdtHeader c u hdr = putUdt c (26 * u) hdr := by
  unfold writeUdtHeader
  rcases h with h | h
  · simp [h]
  · simp [h]

/-- A header with V = 1 whose entry breaks a rule loses its V, and the core notes the entry and the rule (R244). -/
theorem writeUdtHeader_invalid {c : Core} {u : Nat} {hdr : Word} (hv : bitOf hdr 13 = true) (h : udtWhy c.udt u hdr ≠ 0) :
    writeUdtHeader c u hdr =
      { putUdt c (26 * u) (hdr &&& 0x1FFF) with
        udtstat := (c.udtstat &&& 0x2000) ||| 0x1000 ||| BitVec.ofNat 14 (u * 2 ^ 8 + udtWhy c.udt u hdr) } := by
  simp [writeUdtHeader, hv, h]

/-- The first word of an entry is its header (R243). -/
theorem writeUdtWord_header {c : Core} (h : c.isHalted = true) (idx : BitVec 4) (v : Word) :
    writeUdtWord c (26 * idx.toNat) v = writeUdtHeader c idx.toNat v := by
  have hidx : ¬ 416 ≤ 26 * idx.toNat := by have := idx.isLt; omega
  simp [writeUdtWord, h, hidx]

/-! ### The port -/

/-- The writes that the core's halt alone decides: neither the mailbox nor a word of the user decode table (R109, R249). -/
def haltDecides : PortWrite → Bool
  | .mailbox => false
  | .udtWord _ _ => false
  | _ => true

section
variable {s : State} {g : Fin 8} {n : Fin 9} {c : Core}

/-- A word of the user decode table comes to a halted core (R243). -/
theorem portUdt_halted (hc : s.cores[coreIdx (.sig g n)]? = some c) (h : c.isHalted = true) (off : Nat) (v : Word) :
    s.portUdt g n off v = s.onCore (.sig g n) (fun d => writeUdtWord d off v) := by
  simp [State.portUdt, core_get hc, h]

/-- A core that runs takes none: the port refuses it, and the core notes it (R243, R249). -/
theorem portUdt_running (hc : s.cores[coreIdx (.sig g n)]? = some c) (h : c.isHalted = false) (off : Nat) (v : Word) :
    s.portUdt g n off v =
      (s.portRefuse g).onCore (.sig g n) (fun d => { d with udtstat := d.udtstat ||| 0x2000 }) := by
  have hword : s.onCore (.sig g n) (fun d => writeUdtWord d off v) =
      s.onCore (.sig g n) (fun d => { d with udtstat := d.udtstat ||| 0x2000 }) :=
    onCore_congr hc (by simp [writeUdtWord, h])
  simp only [State.portUdt, core_get hc, h, hword]
  rfl

/-- Any other write, but for the mailbox, is made to a halted core (R109, R249). -/
theorem execCoreControlPortWrite_halted (hc : s.cores[coreIdx (.sig g n)]? = some c) (h : c.isHalted = true) {w : PortWrite}
    (hw : haltDecides w = true) : exec (.coreControlPortWrite g n w) s = .next (s.portWrite g n w) := by
  show execCoreControlPortWrite g n w s = _
  unfold execCoreControlPortWrite
  split
  · cases hw
  · cases hw
  · rw [core_get hc, if_pos h]

/-- A core that runs refuses it (R249). -/
theorem execCoreControlPortWrite_running (hc : s.cores[coreIdx (.sig g n)]? = some c) (h : c.isHalted = false) {w : PortWrite}
    (hw : haltDecides w = true) : exec (.coreControlPortWrite g n w) s = .next (s.portRefuse g) := by
  show execCoreControlPortWrite g n w s = _
  unfold execCoreControlPortWrite
  split
  · cases hw
  · cases hw
  · rw [core_get hc, h]; rfl

/-- A level that the port starts stands at its entry, on a core that runs (R120, R331). -/
theorem startLevel_starts (l1 : Bool) (e : IAddr) :
    (if l1 then (startLevel c l1 e).l1st else (startLevel c l1 e).l0st) = true ∧ (startLevel c l1 e).halted = false ∧
      (startLevel c l1 e).threads = modAt c.threads (b2n l1) (fun t =>
        { goTo t e with dslot := none, rep := none, micro := none }) := by
  cases l1
  · exact ⟨rfl, rfl, rfl⟩
  · exact ⟨rfl, rfl, rfl⟩

/-- START leaves the level at its entry (R120, R331). -/
theorem port_start (hc : s.cores[coreIdx (.sig g n)]? = some c) (h : c.isHalted = true) (l1 : Bool) (e : IAddr) :
    ∃ u y, exec (.coreControlPortWrite g n (.start l1 e)) s = .next u ∧
      ((∃ z, c.threads[b2n l1]? = some z) → u.threadAt (.sig g n) (b2n l1) = some y ∧ y.pc = e ∧ y.dslot = none) ∧
      (if l1 then (u.core (.sig g n)).l1st else (u.core (.sig g n)).l0st) = true ∧ (u.core (.sig g n)).halted = false := by
  obtain ⟨hst, hhalt, hthreads⟩ := startLevel_starts (c := c) l1 e
  have hcore : (s.portWrite g n (.start l1 e)).cores[coreIdx (.sig g n)]? = some (startLevel c l1 e) :=
    (modAt_get_self _ _ _).trans (congrArg _ hc)
  refine ⟨_, { goTo (c.threads.getD (b2n l1) {}) e with dslot := none, rep := none, micro := none },
    execCoreControlPortWrite_halted hc h rfl, ?_, ?_, ?_⟩
  · rintro ⟨z, hz⟩
    refine ⟨?_, rfl, rfl⟩
    rw [threadAt_get hcore, hthreads, modAt_get_self, hz, List.getD, hz]
    rfl
  · rw [core_get hcore]; exact hst
  · rw [core_get hcore]; exact hhalt

end

/-! ### The fabric registers -/

section
variable (s : State) (g off : Nat) (v : Word)

/-- The status register clears the bits that are written as 1 (R12, R15). -/
theorem fabricWrite_status : s.fabricWrite g 0 v = s.onGeode g (fun x =>
    { x with cfgerr := x.cfgerr && !bitOf v 13, unc := x.unc && !bitOf v 12, offp := x.offp && !bitOf v 11 }) := rfl

/-- A bank's station takes a code, or none of the reserved ones (R16, R261). -/
theorem fabricWrite_station (h1 : 0x200 ≤ off) (h2 : off < 0x300) : s.fabricWrite g off v = s.onGeode g (fun x =>
    if 0xC ≤ v.toNat % 16 ∧ v.toNat % 16 ≤ 0xE then { x with cfgerr := true }
    else { x with bstn := smPut x.bstn (off - 0x200) (v.truncate 4 ^^^ 0xF#4), bstE := x.bstE.written (off - 0x100) }) := by
  have hv : BitVec.ofNat 4 (v.toNat % 16) = v.truncate 4 := by
    apply BitVec.eq_of_toNat_eq
    simp
  have h0 : off ≠ 0 := by omega
  simp only [State.fabricWrite, if_neg h0, if_pos (And.intro h1 h2), hv]
  split <;> rfl

/-- The words that can only be read take no write (R12). -/
theorem fabricWrite_readOnly (h1 : 0x100 ≤ off) (h2 : off < 0x200) : s.fabricWrite g off v = s := by
  have h : off ≠ 0 ∧ ¬ (0x200 ≤ off ∧ off < 0x300) ∧ off ≠ 0x300 ∧ off ≠ 0x301 ∧ ¬ (0x310 ≤ off ∧ off < 0x314) ∧
      ¬ (0x318 ≤ off ∧ off < 0x31C) := by omega
  obtain ⟨h0, h3, h4, h5, h6, h7⟩ := h
  simp only [State.fabricWrite, if_neg h0, if_neg h3, if_neg h4, if_neg h5, if_neg h6, if_neg h7]

end

/-- Settles O30: a halted core takes the port's writes, a core that runs refuses them, and each fabric register takes the
fields that may be written. -/
theorem portAndRegisterWrites : Obligations.PortAndRegisterWrites := by
  intro s g n c a i v w t p b l1 idx off hc
  have takes {x : PortWrite} (h : c.isHalted = true) (hx : haltDecides x = true) :=
    execCoreControlPortWrite_halted (w := x) hc h hx
  have refuses {x : PortWrite} (h : c.isHalted = false) (hx : haltDecides x = true) :=
    execCoreControlPortWrite_running (w := x) hc h hx
  refine ⟨fun h => ⟨takes h rfl, takes h rfl, takes h rfl, takes h rfl, fun _ _ _ => takes h rfl, port_start hc h l1 i⟩,
    fun h => ⟨refuses h rfl, refuses h rfl, refuses h rfl, refuses h rfl, refuses h rfl, refuses h rfl,
      fun _ _ _ => refuses h rfl, congrArg _ (portUdt_running hc h _ v),
      congrArg _ (portUdt_running hc h _ v)⟩, rfl, fun h hkept => ?_, fun h hv hwhy => ?_, ?_, ?_, ?_⟩
  · exact congrArg Host.Outcome.next ((portUdt_halted hc h _ v).trans
      (onCore_congr hc ((writeUdtWord_header h idx v).trans (writeUdtHeader_kept hkept))))
  · exact congrArg Host.Outcome.next ((portUdt_halted hc h _ v).trans
      (onCore_congr hc ((writeUdtWord_header h idx v).trans (writeUdtHeader_invalid hv hwhy))))
  · rintro rfl
    exact congrArg Host.Outcome.next (fabricWrite_status s g.val v)
  · exact fun h1 h2 => congrArg Host.Outcome.next (fabricWrite_station s g.val off.toNat v h1 h2)
  · exact fun h1 h2 => congrArg Host.Outcome.next (fabricWrite_readOnly s g.val off.toNat v h1 h2)

end Sys2Proof.Machine
end

section
/-! PROOFS. Halts, temperature and lost references (R143, R426, R450, R463, R466, R468, R469, R511, R519): what the device's
fall into FAULT, the withdrawal of a geode's jobs and slots, and the lanes' states each change, said once. -/

namespace Sys2Proof.Machine
open Sys2Proof Sys2Proof.Laws

/-- Changes at a run of places, each the same when it is made again, reach exactly those places. -/
theorem foldl_modAt_get {α : Type} {f : Nat → α → α} (hf : ∀ n x, f n (f n x) = f n x) (ns : List Nat) (l : List α) (n : Nat) :
    (ns.foldl (fun l k => modAt l k (f k)) l)[n]? = if n ∈ ns then l[n]?.map (f n) else l[n]? := by
  induction ns generalizing l with
  | nil => rfl
  | cons k ns ih =>
    rw [List.foldl_cons, ih, modAt_get]
    by_cases hk : k = n
    · subst hk
      cases l[k]? <;> simp [hf]
    · simp [hk, Ne.symm hk]

/-! ### FAULT (R450, R469) -/

@[simp] theorem State.sendMsix_aon (s : State) (f v : Nat) : (s.sendMsix f v).aon = s.aon := by
  unfold State.sendMsix
  extract_lets x w
  split
  · rfl
  · split <;> rfl

@[simp] theorem State.sendMsix_poss (s : State) (f v : Nat) : (s.sendMsix f v).poss = s.poss := by
  unfold State.sendMsix
  extract_lets x w
  split
  · rfl
  · split <;> rfl

/-- A change of DEVSTATE changes it, and tells the functions (R450). -/
theorem State.setDev_aon (s : State) (d : DevState) : (s.setDev d).aon = { s.aon with devstate := d } := by
  unfold State.setDev
  split
  · next h => rw [← h]
  · exact foldl_keeps State.aon (fun t f => t.sendMsix_aon f 1) _ _

@[simp] theorem State.setDev_poss (s : State) (d : DevState) : (s.setDev d).poss = s.poss := by
  unfold State.setDev
  split
  · rfl
  · exact foldl_keeps State.poss (fun t f => t.sendMsix_poss f 1) _ _

theorem State.setDev_out {s : State} {o : Out} (h : o ∈ s.out) (d : DevState) : o ∈ (s.setDev d).out := by
  unfold State.setDev
  split
  · exact h
  · exact (HostStep.foldl (fun t f => t.notify_host f) _ _).out o h

/-- The always-on domain of a device that falls into FAULT (R469). -/
theorem State.enterFault_aon (s : State) (n : Nat) : (s.enterFault n).aon =
    { s.aon with faultrec := BitVec.ofNat 14 (0x2000 + n), ppsHigh := false, devstate := .fault } := by
  unfold State.enterFault
  extract_lets s1 s2
  have h : s2.aon = s1.aon := by
    simp only [s2]
    split <;> rfl
  rw [State.setDev_aon, h]
  rfl

/-- The modules of a device in FAULT are in reset (R511). -/
theorem State.enterFault_poss (s : State) (n : Nat) :
    (s.enterFault n).poss = s.poss.map (fun (p : Pos) => { p with mrst := true }) := by
  unfold State.enterFault
  extract_lets s1 s2
  have h : s2.poss = s.poss := by
    simp only [s2]
    split <;> rfl
  rw [State.setDev_poss, ← h]

theorem State.enterFault_out {s : State} {o : Out} (h : o ∈ s.out) (n : Nat) : o ∈ (s.enterFault n).out := by
  unfold State.enterFault
  extract_lets s1 s2
  refine State.setDev_out ?_ _
  simp only [s2]
  split
  · exact List.mem_cons_of_mem _ h
  · exact h

/-- The device is in FAULT with a cause. -/
def InFault (cause : BitVec 14) (u : State) : Prop :=
  u.aon.devstate = .fault ∧ u.aon.faultrec = 0x2000 + cause ∧ u.aon.ppsHigh = false ∧ ∀ z ∈ u.poss, z.mrst = true

theorem State.enterFault_inFault (s : State) (n : Nat) : InFault (BitVec.ofNat 14 n) (s.enterFault n) := by
  unfold InFault
  rw [State.enterFault_aon, State.enterFault_poss]
  refine ⟨rfl, BitVec.ofNat_add _ _, rfl, fun z hz => ?_⟩
  obtain ⟨p, -, rfl⟩ := List.mem_map.1 hz
  rfl

/-! ### Lanes (R378, R468, R519) -/

/-- The device but for what its lanes show and its cores. -/
def State.sansLanes (s : State) : State := { s with poss := s.poss.map (fun (p : Pos) => { p with lstate := 0 }), cores := [] }

theorem State.sansLanes_pos (s : State) (b : Nat) : s.sansLanes.pos b = { s.pos b with lstate := 0 } := by
  simp only [State.pos, State.sansLanes, List.getD_eq_getElem?_getD, List.getElem?_map]
  cases s.poss[b]? <;> rfl

/-- What a lane is to show does not depend on what lanes show (R519). -/
theorem State.sansLanes_laneCode (s : State) (p : Nat) : s.sansLanes.laneCode p = s.laneCode p := by
  have howner : s.sansLanes.owner p = s.owner p := by
    simp only [State.owner, State.sansLanes_pos]
    rfl
  simp only [State.laneCode, howner, State.sansLanes_pos]
  rfl

/-- The state that a lane takes: 110 without the lane reference (R468). -/
def laneShows (s : State) (v : BitVec 3) : BitVec 3 := if s.aon.noLaneRef then 6 else v

theorem State.setLane_poss (s : State) (p : Nat) (v : BitVec 3) :
    (s.setLane p v).poss = modAt s.poss p (fun x => { x with lstate := laneShows s v }) := by
  unfold State.setLane
  extract_lets code
  split
  · next h =>
    refine (modAt_same _ _ _ fun x hx => ?_).symm
    rw [pos_get hx] at h
    show { x with lstate := code } = x
    rw [← h]
  · rfl

@[simp] theorem State.setLane_sansLanes (s : State) (p : Nat) (v : BitVec 3) : (s.setLane p v).sansLanes = s.sansLanes := by
  have hposs : (s.setLane p v).poss.map (fun (x : Pos) => { x with lstate := 0 }) =
      s.poss.map (fun (x : Pos) => { x with lstate := 0 }) := by
    refine List.ext_getElem? fun j => ?_
    rw [State.setLane_poss, List.getElem?_map, List.getElem?_map]
    exact get_modAt_map _ _ _ _ _ fun _ _ => rfl
  unfold State.sansLanes
  rw [hposs]
  unfold State.setLane
  extract_lets code
  split <;> rfl

/-- Each lane is given its state: all else stays, but for the supervisors' lines (R378). -/
theorem foldl_setLane {w : State → Nat → BitVec 3} (hw : ∀ t, w t.sansLanes = w t) (ps : List Nat) (s : State) :
    (ps.foldl (fun t p => t.setLane p (w t p)) s).sansLanes = s.sansLanes ∧
      ∀ (n : Nat) (y : Pos), n ∈ ps → s.poss[n]? = some y →
        (ps.foldl (fun t p => t.setLane p (w t p)) s).poss[n]? = some { y with lstate := laneShows s (w s n) } := by
  have hposs (t : State) (ht : t.sansLanes = s.sansLanes) : (ps.foldl (fun t p => t.setLane p (w t p)) t).poss =
      ps.foldl (fun l p => modAt l p (fun (x : Pos) => { x with lstate := laneShows s (w s p) })) t.poss := by
    induction ps generalizing t with
    | nil => rfl
    | cons p ps ih =>
      have hwt : w t = w s := by rw [← hw t, ht, hw s]
      have hshow : laneShows t = laneShows s := by
        unfold laneShows
        rw [show t.aon = s.aon from (congrArg State.aon ht :)]
      rw [List.foldl_cons, List.foldl_cons, ih _ ((t.setLane_sansLanes p _).trans ht), State.setLane_poss, hwt, hshow]
  refine ⟨foldl_keeps State.sansLanes (fun t p => t.setLane_sansLanes p _) ps s, fun n y hn hy => ?_⟩
  rw [hposs s rfl, foldl_modAt_get (f := fun p (x : Pos) => { x with lstate := laneShows s (w s p) }) (fun _ _ => rfl), if_pos hn,
    hy]
  rfl

/-! ### A geode's jobs and slots (R466) -/

/-- A job that holds the geode is to be released at beacon `r`, with cause 2 unless it has 3. -/
def withdrawn (g : Nat) (r : U32) (j : Job) : Job :=
  if j.geodes.contains g && !j.done.contains g then { setRelease j r with cause := if j.cause = 3 then 3 else 2 } else j

/-- The hub but for its mail, and the geodes. -/
def State.sansMail (s : State) : Hub × List Geode := ({ s.hub with mail := [] }, s.geodes)

/-- A release that is told to the supervisors is mail alone (R40). -/
theorem State.mailRelease_sansMail (s : State) (j : Job) (r : U32) : (s.mailRelease j r).sansMail = s.sansMail := by
  unfold State.mailRelease State.mailAll
  exact foldl_keeps State.sansMail (f := fun t g => t.mailTo g _) (fun _ _ => rfl) _ _

theorem State.fixPeriod_sansMail (s : State) : s.fixPeriod.sansMail = s.sansMail := by
  unfold State.fixPeriod
  split <;> rfl

/-- Withdrawing a geode's jobs leaves the hub but for them and its mail, and the geodes (R466). -/
theorem State.dropGeodeJobs_keeps (s : State) (g : Nat) : (s.dropGeodeJobs g).sansMail =
    ({ s.hub with mail := [], jobs := s.hub.jobs.map (withdrawn g s.nextBeaconNo) }, s.geodes) := by
  unfold State.dropGeodeJobs
  extract_lets r holds s1
  rw [State.fixPeriod_sansMail, foldl_keeps State.sansMail fun t j => t.mailRelease_sansMail j r]
  rfl

theorem withdrawn_keeps (g : Nat) (r : U32) (i : Job) :
    (withdrawn g r i).geodes = i.geodes ∧ (withdrawn g r i).done = i.done := by
  unfold withdrawn
  split <;> exact ⟨rfl, rfl⟩

theorem setRelease_isSome (i : Job) (r : U32) : (setRelease i r).releaseAt.isSome = true := by
  unfold setRelease
  dsimp only
  split
  · split <;> rfl
  · rfl

/-- No job holds the geode further (R466). -/
theorem withdrawn_released {g : Nat} {r : U32} {i : Job} (hg : g ∈ (withdrawn g r i).geodes)
    (hd : g ∉ (withdrawn g r i).done) :
    (withdrawn g r i).releaseAt.isSome = true ∧ ((withdrawn g r i).cause = 2 ∨ (withdrawn g r i).cause = 3) := by
  obtain ⟨hgeodes, hdone⟩ := withdrawn_keeps g r i
  have hholds : (i.geodes.contains g && !i.done.contains g) = true := by
    rw [hgeodes] at hg
    rw [hdone] at hd
    simp [hg, hd]
  simp only [withdrawn, if_pos hholds]
  refine ⟨setRelease_isSome i r, ?_⟩
  split
  · exact .inr rfl
  · exact .inl rfl

/-- The slot as it is left: EMPTY where an image of it lies on the geode (R466). -/
def withoutGeode (g : Nat) (x : LodeSlot) : LodeSlot := if x.pages.any (fun p => p.1 == g) then {} else x

theorem withoutGeode_pages (g : Nat) (x : LodeSlot) : (withoutGeode g x).pages.any (fun p => p.1 == g) = false := by
  unfold withoutGeode
  split
  · rfl
  · next h => exact Bool.eq_false_iff.2 h

theorem withoutGeode_again (g : Nat) (x : LodeSlot) : withoutGeode g (withoutGeode g x) = withoutGeode g x :=
  if_neg (by simp [withoutGeode_pages])

/-- What the emptying of slots leaves: the hub but for them, and of the geodes all but the pages that they zero. -/
def State.sansSlots (s : State) : Hub × List (Bool × Bool) :=
  ({ s.hub with slots := [] }, s.geodes.map (fun x => (x.supHalted, x.faulted)))

theorem State.onGeode_sansSlots (s : State) (g : Nat) (ps : List Nat) :
    (s.onGeode g (fun x => freePages x ps)).sansSlots = s.sansSlots := by
  refine Prod.ext rfl (List.ext_getElem? fun j => ?_)
  have h := get_modAt_map (fun x : Geode => (x.supHalted, x.faulted)) s.geodes g j (fun x => freePages x ps) fun _ _ => rfl
  exact (List.getElem?_map ..).trans (h.trans (List.getElem?_map ..).symm)

/-- Pages go back to their geodes (R267). -/
theorem foldl_freePages (l : List (Nat × List Nat)) (s : State) :
    (l.foldl (fun t p => t.onGeode p.1 (fun x => freePages x p.2)) s).sansSlots = s.sansSlots ∧
      (l.foldl (fun t p => t.onGeode p.1 (fun x => freePages x p.2)) s).hub = s.hub :=
  ⟨foldl_keeps State.sansSlots (fun t p => t.onGeode_sansSlots p.1 p.2) l s, foldl_keeps State.hub (fun t p => t.onGeode_hub p.1 _) l s⟩

/-- The pages of a slot go back to their geodes (R320). -/
theorem State.freeImages_keeps (s : State) (n : Nat) : (s.freeImages n).sansSlots = s.sansSlots ∧
    (s.freeImages n).hub.slots = modAt s.hub.slots n (fun x => { x with pages := [] }) := by
  obtain ⟨h1, h2⟩ := foldl_freePages (s.slotOf n).pages s
  exact ⟨h1, congrArg (fun h : Hub => modAt h.slots n _) h2⟩

theorem State.emptySlot_keeps (s : State) (n : Nat) : (s.emptySlot n).sansSlots = s.sansSlots ∧
    (s.emptySlot n).hub.slots = modAt s.hub.slots n (fun _ => {}) := by
  obtain ⟨h1, h2⟩ := s.freeImages_keeps n
  refine ⟨h1, ?_⟩
  show modAt (s.freeImages n).hub.slots n _ = _
  rw [h2, modAt_modAt]

/-- A geode's slots are emptied (R466). -/
theorem State.dropGeodeSlots_keeps (s : State) (g : Nat) : (s.dropGeodeSlots g).sansSlots = s.sansSlots ∧
    (s.dropGeodeSlots g).hub.slots = (List.range 16).foldl (fun l n => modAt l n (withoutGeode g)) s.hub.slots := by
  unfold State.dropGeodeSlots
  generalize List.range 16 = ns
  induction ns generalizing s with
  | nil => exact ⟨rfl, rfl⟩
  | cons n ns ih =>
    obtain ⟨h1, h2⟩ := ih (if (s.slotOf n).pages.any (fun p => p.1 == g) then s.emptySlot n else s)
    obtain ⟨hkeep, hslots⟩ := s.emptySlot_keeps n
    have hstep : (if (s.slotOf n).pages.any (fun p => p.1 == g) then s.emptySlot n else s).hub.slots =
        modAt s.hub.slots n (withoutGeode g) := by
      have hof (x : LodeSlot) (hx : s.hub.slots[n]? = some x) : s.slotOf n = x := by simp [State.slotOf, List.getD, hx]
      split
      · next h =>
        rw [hslots]
        exact modAt_congr _ _ _ _ fun x hx => (if_pos (hof x hx ▸ h)).symm
      · next h => exact (modAt_same _ _ _ fun x hx => if_neg (hof x hx ▸ h)).symm
    refine ⟨h1.trans ?_, h2.trans ?_⟩
    · split
      · exact hkeep
      · rfl
    · rw [hstep]
      rfl

/-- What the withdrawal of a geode's jobs and slots leaves (R466). -/
theorem State.withdrawGeode_keeps (s : State) (g : Nat) {u : State} (hu : (s.dropGeodeJobs g).dropGeodeSlots g = u) :
    u.hub.log = s.hub.log ∧ u.hub.jobs = s.hub.jobs.map (withdrawn g s.nextBeaconNo) ∧
      (∀ (n : Nat) (sl : LodeSlot), n < 16 → u.hub.slots[n]? = some sl → sl.pages.any (fun q => q.1 == g) = false) ∧
      u.geodes.map (fun x => (x.supHalted, x.faulted)) = s.geodes.map (fun x => (x.supHalted, x.faulted)) := by
  have hjobs := s.dropGeodeJobs_keeps g
  generalize s.dropGeodeJobs g = d at hu hjobs
  obtain ⟨hslots, hclean⟩ := d.dropGeodeSlots_keeps g
  rw [hu] at hslots hclean
  simp only [State.sansMail, Prod.mk.injEq, Hub.mk.injEq] at hjobs
  simp only [State.sansSlots, Prod.mk.injEq, Hub.mk.injEq] at hslots
  refine ⟨?_, ?_, fun n sl hn hsl => ?_, ?_⟩
  · simp [hslots, hjobs]
  · simp [hslots, hjobs]
  · rw [hclean, foldl_modAt_get fun _ => withoutGeode_again g, if_pos (List.mem_range.2 hn)] at hsl
    obtain ⟨x, -, rfl⟩ := Option.map_eq_some_iff.1 hsl
    exact withoutGeode_pages g x
  · rw [hslots.2, hjobs.2]

/-! ### The halt of a supervisor (R466) -/

/-- The entry of the log for it. -/
def supvHaltEntry (s : State) (g : Fin 8) : LogReq :=
  { kind := 0x0A, geode := byteOf g.val, unit := byteOf (s.core (.sup g)).xctx, a := u32 (haltCode (s.core (.sup g))) }

/-- A second halt within 10 s of the last (R466). -/
def haltsAgain (s : State) (x : Geode) : Bool := match x.lastHalt with | some t => decide (secNow s.aon < t + 10) | none => false

/-- A geode that halts again is faulted, and logged as such (R466). -/
def State.haltAgain (s : State) (g : Fin 8) (again : Bool) : State :=
  if again then (s.onGeode g.val (fun y => { y with faulted := true })).log { kind := 0x0C, geode := byteOf g.val, a := 1 }
  else s

/-- That leaves the hub's jobs, slots and entries of other kinds. -/
theorem State.haltAgain_keeps {s : State} {g : Fin 8} {z : Geode} (again : Bool) (hz : s.geodes[g.val]? = some z) :
    (s.haltAgain g again).hub.jobs = s.hub.jobs ∧ (s.haltAgain g again).hub.slots = s.hub.slots ∧
      (s.haltAgain g again).geodes[g.val]? = some { z with faulted := z.faulted || again } ∧
      ∀ e ∈ s.hub.log, s.hub.log.length < 4096 → e.kind.toNat ≠ 0x0C → e ∈ (s.haltAgain g again).hub.log := by
  unfold State.haltAgain
  cases again with
  | false => exact ⟨rfl, rfl, by simpa using hz, fun e he _ _ => he⟩
  | true =>
    obtain ⟨_, _, h⟩ := (s.onGeode g.val (fun y => { y with faulted := true })).log_frame
      { kind := 0x0C, geode := byteOf g.val, a := 1 }
    refine ⟨?_, ?_, ?_, fun e he hlen hkind => State.log_keeps _ _ e he hlen hkind⟩
    · rw [if_pos rfl, h]
      rfl
    · rw [if_pos rfl, h]
      rfl
    · rw [if_pos rfl, State.log_geodes, State.onGeode_geodes, modAt_get_self, hz, Bool.or_true]
      rfl

section
variable {s : State} {g : Fin 8} {x : Geode}

/-- The halt of a supervisor is logged, and the geode's jobs and slots are withdrawn (R466). -/
theorem execSupvHalt_halted (hx : s.geodes[g.val]? = some x) (hh : x.supHalted = true) (hup : s.hubUp = true) :
    exec (.supvHalt g) s = .next (((((s.onGeode g.val (fun y => { y with supHalted := false })).log
      (supvHaltEntry s g)).dropGeodeJobs g.val).dropGeodeSlots g.val).haltAgain g (haltsAgain s x)) := by
  show execSupvHalt g s = _
  simp only [execSupvHalt, geode_get hx, hh, hup, Bool.not_true, Bool.or_self, Bool.false_eq_true, if_false]
  rfl

/-- A hub that is up writes its log (R470). -/
theorem hubUp_writes (hup : s.hubUp = true) : s.hub.halted = false ∧ s.aon.islandsOff = false := by
  simp only [State.hubUp, Bool.and_eq_true, Bool.not_eq_true'] at hup
  obtain ⟨⟨⟨⟨⟨hhalt, -⟩, -⟩, -⟩, hoff⟩, -⟩ := hup
  exact ⟨hhalt, hoff⟩

/-- The geode's jobs are to be released, and no slot has an image on it; a halt within 10 s of the last faults it (R466). -/
theorem supvHalt_withdraws (hx : s.geodes[g.val]? = some x) (hh : x.supHalted = true) (hup : s.hubUp = true)
    (hlog : s.hub.log = []) :
    ∃ (u : State) (z : Geode), exec (.supvHalt g) s = .next u ∧ u.geodes[g.val]? = some z ∧ z.supHalted = false ∧
      z.faulted = (x.faulted || haltsAgain s x) ∧
      (∃ e ∈ u.hub.log, e.kind = 0x0A ∧ e.a = u32 (haltCode (s.core (.sup g)))) ∧
      (∀ j ∈ u.hub.jobs, g.val ∈ j.geodes → g.val ∉ j.done → j.releaseAt.isSome = true ∧ (j.cause = 2 ∨ j.cause = 3)) ∧
      (∀ (n : Nat) (sl : LodeSlot), n < 16 → u.hub.slots[n]? = some sl → sl.pages.any (fun q => q.1 == g.val) = false) := by
  rw [execSupvHalt_halted hx hh hup]
  obtain ⟨hhalt, hoff⟩ := hubUp_writes hup
  obtain ⟨e, hnew, hkind, -, ha⟩ := State.log_new (s.onGeode g.val (fun y => { y with supHalted := false }))
    (supvHaltEntry s g) hhalt hoff
    (by simp [hlog]) (by simp [hlog])
  generalize ht : (s.onGeode g.val (fun y => { y with supHalted := false })).log (supvHaltEntry s g) = t at hnew ⊢
  obtain ⟨hl, hj, hs, hgeodes⟩ := t.withdrawGeode_keeps g.val rfl
  generalize (t.dropGeodeJobs g.val).dropGeodeSlots g.val = w at hl hj hs hgeodes ⊢
  have hslog : w.hub.log = [e] := by rw [hl, hnew]; simp [hlog]
  have htg : t.geodes[g.val]? = some { x with supHalted := false } := by
    rw [← ht, State.log_geodes, State.onGeode_geodes, modAt_get_self, hx]
    rfl
  obtain ⟨z, hz, hzf⟩ := exists_of_map_eq (by simpa using congrArg (fun l => l[g.val]?) hgeodes) htg
  simp only [Prod.mk.injEq] at hzf
  obtain ⟨hsup, hfault⟩ := hzf
  obtain ⟨hjobs, hslots, hget, hkept⟩ := w.haltAgain_keeps (haltsAgain s x) hz
  refine ⟨_, _, rfl, hget, hsup, by rw [hfault], ⟨e, ?_, hkind, ha⟩, ?_, fun n sl hn hsl => hs n sl hn (hslots ▸ hsl)⟩
  · exact hkept e (by simp [hslog]) (by simp [hslog]) (hkind ▸ (by decide : (BitVec.ofNat 16 0x0A).toNat ≠ 0x0C))
  · rw [hjobs, hj]
    intro j hjm hgj hdj
    obtain ⟨i, -, rfl⟩ := List.mem_map.1 hjm
    exact withdrawn_released hgj hdj

end

/-! ### Temperature (R426, R463) -/

/-- An entry of the log and a line of the hub: the always-on domain stays, and the line is pending (R142, R470). -/
theorem State.logRaiseHub_keeps (s : State) (r : LogReq) {n : Nat} (hn : n < 128) :
    ((s.log r).raiseHub n).aon = s.aon ∧ ((s.log r).raiseHub n).hub = (s.log r).hub ∧
      (s.cores.length = 81 → linePending (((s.log r).raiseHub n).core .hub) n = true) := by
  refine ⟨?_, rfl, fun hcores => ?_⟩
  · obtain ⟨_, _, h⟩ := s.log_frame r
    rw [h]
    rfl
  · have hlen : 80 < (s.log r).cores.length := by rw [State.log_cores]; omega
    rw [show ((s.log r).raiseHub n).core .hub = raiseLine ((s.log r).coreAt 80) n from coreAt_onCoreAt _ _ hlen]
    exact linePending_raiseLine _ hn

/-- A temperature is taken; the alarm sets at the second one of 152 °C or more, and clears below 148 °C (R426, R463). -/
theorem tempRefresh_takes (s : State) (tj : BitVec 16) (hcores : s.cores.length = 81) :
    ∃ u, exec (.tempRefresh tj) s = .next u ∧ u.aon.tj = tj ∧
      u.aon.tripHold = (s.aon.tripHold && decide (1120 ≤ tj.toInt)) ∧
      (tj.toInt < 1184 → u.aon.talarm = false) ∧
      (1184 ≤ tj.toInt → s.aon.talarm = true ∨ tj.toInt < 1216 ∨ s.aon.tj.toInt < 1216 → u.aon.talarm = s.aon.talarm) ∧
      (s.aon.talarm = false → 1216 ≤ s.aon.tj.toInt → 1216 ≤ tj.toInt → u.aon.talarm = true ∧
        linePending (u.core .hub) 52 = true ∧
        (s.hub.log = [] → s.hub.halted = false → s.aon.islandsOff = false →
          ∃ e ∈ u.hub.log, e.kind = 4 ∧ e.a = tj.setWidth 32)) := by
  show ∃ u, execTempRefresh tj s = .next u ∧ _
  unfold execTempRefresh
  extract_lets now was s1
  by_cases hset : (!s.aon.talarm && decide (1216 ≤ was) && decide (1216 ≤ tj.toInt)) = true
  · rw [if_pos hset]
    simp only [Bool.and_eq_true, Bool.not_eq_true', decide_eq_true_eq, was] at hset
    obtain ⟨⟨hclear, hwas⟩, his⟩ := hset
    obtain ⟨haon, hhub, hline⟩ := (s1.onAon (fun a => { a with talarm := true })).logRaiseHub_keeps
      { kind := 0x04, a := tj.setWidth 32 } (n := 52) (by decide)
    refine ⟨_, rfl, ?_⟩
    rw [haon, hhub]
    refine ⟨rfl, rfl, by omega, fun _ h => ?_, fun _ _ _ => ⟨rfl, hline hcores, fun hl hh hi => ?_⟩⟩
    · rcases h with h | h | h
      · exact absurd h (by simp [hclear])
      · exact absurd his (Int.not_le.2 h)
      · exact absurd hwas (Int.not_le.2 h)
    · obtain ⟨e, hnew, hkind, -, ha⟩ := State.log_new (s1.onAon (fun a => { a with talarm := true }))
        { kind := 0x04, a := tj.setWidth 32 } hh hi (by simp [s1, hl]) (by simp [s1, hl])
      exact ⟨e, hnew ▸ List.mem_append_right _ (List.mem_singleton_self e), hkind, ha⟩
  · rw [if_neg hset]
    have hno : s.aon.talarm = false → 1216 ≤ s.aon.tj.toInt → ¬ 1216 ≤ tj.toInt := fun h1 h2 h3 =>
      hset (by simp [h1, was, h2, h3])
    by_cases hlow : tj.toInt < 1184
    · rw [if_pos hlow]
      exact ⟨_, rfl, rfl, rfl, fun _ => rfl, fun h => absurd hlow (Int.not_lt.2 h), fun h1 h2 h3 => absurd h3 (hno h1 h2)⟩
    · rw [if_neg hlow]
      exact ⟨_, rfl, rfl, rfl, fun h => absurd h hlow, fun _ _ => rfl, fun h1 h2 h3 => absurd h3 (hno h1 h2)⟩

/-- A junction that reaches 160 °C holds the release and drives THERMTRIP, and takes a device that is out of reset into FAULT
(R463, R511). -/
theorem thermalTrip_faults (s : State) : ∃ u, exec .thermalTrip s = .next u ∧ u.aon.tripHold = true ∧
    u.aon.thermtrip = true ∧ Out.thermtrip true ∈ u.out ∧
    (s.aon.inReset = false → InFault 2 u ∧ u.aon.islandsOff = true) := by
  show ∃ u, execThermalTrip s = .next u ∧ _
  unfold execThermalTrip
  extract_lets s1
  have hout : Out.thermtrip true ∈ s1.out := List.mem_cons_self ..
  by_cases hr : s.aon.inReset = true
  · rw [if_pos hr]
    exact ⟨_, rfl, rfl, rfl, hout, fun h => absurd hr (by simp [h])⟩
  · rw [if_neg hr]
    have haon := s1.enterFault_aon 2
    refine ⟨_, rfl, ?_, ?_, State.enterFault_out hout 2, fun _ => ⟨s1.enterFault_inFault 2, rfl⟩⟩
    · simp [haon, s1]
    · simp [haon, s1]

/-! ### The lane reference (R468, R519) -/

/-- A lost lane reference is logged, and every lane shows 110 (R468). -/
theorem refclkFault_shows {s : State} {p : Fin 32} {y : Pos} (hy : s.poss[p.val]? = some y) (hno : s.aon.noLaneRef = false)
    (hlog : s.hub.log = []) (hhalt : s.hub.halted = false) (hoff : s.aon.islandsOff = false) :
    ∃ u, exec .refclkFault s = .next u ∧ u.aon.noLaneRef = true ∧
      u.poss[p.val]? = some { y with lstate := 6 } ∧ ∃ e ∈ u.hub.log, e.kind = 8 := by
  show ∃ u, execRefclkFault s = .next u ∧ _
  simp only [execRefclkFault, hno, Bool.false_eq_true, if_false]
  obtain ⟨hrest, hlanes⟩ := foldl_setLane (w := fun _ _ => 6) (fun _ => rfl) (List.range 32)
    (s.onAon (fun a => { a with noLaneRef := true }))
  have hpos := hlanes p.val y (by simp) hy
  generalize (List.range 32).foldl (fun t p => t.setLane p 6) (s.onAon (fun a => { a with noLaneRef := true })) = t
    at hrest hpos ⊢
  have haon : t.aon = { s.aon with noLaneRef := true } := (congrArg State.aon hrest :)
  have hhub : t.hub = s.hub := (congrArg State.hub hrest :)
  obtain ⟨e, hnew, hkind, -⟩ := t.log_new { kind := 0x08 } (by rw [hhub]; exact hhalt) (by rw [haon]; exact hoff)
    (by simp [hhub, hlog]) (by simp [hhub, hlog])
  obtain ⟨l, n, hframe⟩ := t.log_frame { kind := 0x08 }
  refine ⟨_, rfl, ?_, ?_, e, hnew ▸ List.mem_append_right _ (List.mem_singleton_self e), hkind⟩
  · rw [hframe, State.onHub_aon, haon]
  · rw [hframe, State.onHub_poss, hpos]
    simp [laneShows]

/-- With the lane reference back, lanes show their modules (R519). -/
theorem laneReferenceRestored_shows {s : State} {p : Fin 32} {y : Pos} (hy : s.poss[p.val]? = some y)
    (hno : s.aon.noLaneRef = true) :
    ∃ u, exec .laneReferenceRestored s = .next u ∧ u.aon.noLaneRef = false ∧
      u.poss[p.val]? = some { y with lstate := s.laneCode p.val } := by
  show ∃ u, execLaneReferenceRestored s = .next u ∧ _
  simp only [execLaneReferenceRestored, hno, Bool.not_true, Bool.false_eq_true, if_false]
  obtain ⟨hrest, hlanes⟩ := foldl_setLane (w := State.laneCode) (fun t => funext t.sansLanes_laneCode) (List.range 32)
    (s.onAon (fun a => { a with noLaneRef := false }))
  have hpos := hlanes p.val y (by simp) hy
  generalize (List.range 32).foldl (fun t p => t.setLane p (t.laneCode p)) (s.onAon (fun a => { a with noLaneRef := false })) = t
    at hrest hpos ⊢
  exact ⟨t, rfl, (congrArg (fun t : State => t.aon.noLaneRef) hrest :), hpos⟩

/-- Settles O48: a device that falls into FAULT is told once, so are the lanes' states and the withdrawal of a geode's jobs and
slots; each event is one of them with its own marks. -/
theorem faultsAndTemperature : Obligations.FaultsAndTemperature := by
  intro s g p x y tj hx hy hcores
  refine ⟨fun h => ?_, fun hh hup hlog => supvHalt_withdraws hx hh hup hlog, fun h => ?_, fun hstop hh hr => ?_,
    tempRefresh_takes s tj hcores, thermalTrip_faults s, fun h => ?_, fun h => ?_, fun h => ?_,
    refclkFault_shows hy, fun h => ?_, laneReferenceRestored_shows hy⟩
  · show execSupvHalt g s = _
    simp [execSupvHalt, geode_get hx, h]
  · show execHubHalt s = _
    simp [execHubHalt, h]
  · refine ⟨(s.enterFault 1).onHub (fun h => { h with halted := true }), ?_, s.enterFault_inFault 1, rfl⟩
    show execHubHalt s = _
    simp [execHubHalt, hstop, hh, hr]
  · show execTimerefLoss s = _
    simp [execTimerefLoss, h]
  · refine ⟨s.enterFault 3, ?_, s.enterFault_inFault 3⟩
    show execTimerefLoss s = _
    simp [execTimerefLoss, h]
  · show execRefclkFault s = _
    simp [execRefclkFault, h]
  · show execLaneReferenceRestored s = _
    simp [execLaneReferenceRestored, h]

end Sys2Proof.Machine
end

section
/-! PROOFS. Operations that write registers alone (R65, R148, R180): the answer of a D-slot or V-slot operation, said once for
each shared form of the model's answers, and the completion that follows from it. -/

namespace Sys2Proof.Machine
open Sys2Proof Sys2Proof.Laws

/-! ### Landings and their effects -/

/-- Every write lands at least one cycle after its issue (R65). -/
def Later (ws : List (RegW × Nat)) : Prop := ∀ w ∈ ws, 1 ≤ w.2

@[simp] theorem later_nil : Later [] := by simp [Later]
@[simp] theorem later_cons (w : RegW × Nat) (ws : List (RegW × Nat)) : Later (w :: ws) ↔ 1 ≤ w.2 ∧ Later ws := by
  simp [Later]
@[simp] theorem later_append (vs ws : List (RegW × Nat)) : Later (vs ++ ws) ↔ Later vs ∧ Later ws := by
  simp [Later, or_imp, forall_and]
@[simp] theorem later_ite {p : Prop} [Decidable p] (vs ws : List (RegW × Nat)) :
    Later (if p then vs else ws) ↔ if p then Later vs else Later ws := by split <;> rfl
@[simp] theorem later_flagsTo (fl : List (FlagId × Bool)) (lat : Nat) : Later (flagsTo fl (lat + 1)) := by
  intro w hw
  obtain ⟨p, -, rfl⟩ := List.mem_map.1 hw
  exact Nat.le_add_left ..
@[simp] theorem later_pairTo (t : Thread) (n : Nat) (v : DWord) (lat : Nat) : Later (pairTo t n v (lat + 1)) := by
  simp [pairTo, dTo]
@[simp] theorem dTo_latency (t : Thread) (n : Nat) (v : Word) (lat : Nat) : (dTo t n v lat).2 = lat := rfl

@[simp] theorem wrActs_nil : wrActs [] = [] := rfl
@[simp] theorem wrActs_cons (w : RegW × Nat) (ws : List (RegW × Nat)) : wrActs (w :: ws) = .wr w.1 w.2 :: wrActs ws := rfl
@[simp] theorem wrActs_append (vs ws : List (RegW × Nat)) : wrActs (vs ++ ws) = wrActs vs ++ wrActs ws := List.map_append

/-! ### Answers that write registers alone -/

/-- The answer `o` to the view `x` raises nothing, and its effects are the register writes `ws` alone. -/
structure Writes (x : IssueCtx) (o : OpOut) (ws : List (RegW × Nat)) : Prop where
  acts : o.acts = wrActs ws
  excs : o.excs = []
  power : o.vec = true → x.c.vpow = true
  fuse : o.fuse = false
  rep : o.isRep = false
  later : Later ws

/-- The operation has its site and the answer `g` in the table of operations. -/
def Answers (op : Site → Instr) (g : Site → IssueCtx → OpOut) : Prop :=
  ∀ i, siteOf (op i) = some i ∧ opMeaning (op i) = some (i, g i)

@[simp] theorem viewOf_t (i : Site) (op : Instr) (k : Nat) (c : Core) (t : Thread) : (viewOf i op k c t).t = t := rfl

/-- An operation whose answers write registers alone completes with those writes. -/
theorem completes_of_writes {op : Site → Instr} {g : Site → IssueCtx → OpOut} {P : Core → Nat → Thread → Prop}
    {ws : Core → Nat → Thread → List (RegW × Nat)} (ha : Answers op g)
    (h : ∀ i k c t, P c k t → Writes (viewOf i (op i) k c t) (g i (viewOf i (op i) k c t)) (ws c k t)) :
    Completes op P ws := by
  intro s i k c t hq hp
  obtain ⟨hacts, hexcs, hpower, hfuse, hrep, hlater⟩ := h i k c t hp
  rw [exec_operation (ha i).1, issueOp_landing hq (ha i).2 _ hlater _ rfl hacts hexcs hpower (by simp [hfuse]) (by simp [hrep])]

theorem completesAlways_of_writes {op : Site → Instr} {g : Site → IssueCtx → OpOut} {ws : Thread → List (RegW × Nat)}
    (ha : Answers op g) (h : ∀ i x, Writes x (g i x) (ws x.t)) : CompletesAlways op ws :=
  completes_of_writes ha fun _ _ _ _ _ => h ..

/-- A legal operation of the D slot writes what its effects say. -/
theorem dOut_writes {x : IssueCtx} {ok wflags : Bool} {reads : List WName} {acts : List Act} {ws : List (RegW × Nat)}
    (hok : ok = true) (hacts : acts = wrActs ws) (hlater : Later ws := by simp) : Writes x (dOut ok reads acts wflags) ws := by
  subst hok hacts
  exact ⟨rfl, rfl, nofun, rfl, rfl, hlater⟩

/-- Vector operations are legal at the levels that `VecReady` names (R110). -/
theorem vecLevel_of {x : IssueCtx} (h : x.c.kind = .signal → x.tid < 2) : x.vecLevel = true := by
  unfold IssueCtx.vecLevel
  cases hk : x.c.kind <;> simp [h, hk]

/-- A legal operation of the V slot writes what its effects say, at a level with the vector unit (R110, R182). -/
theorem vOut_writes {x : IssueCtx} {ok : Bool} {reads : List WName} {acts : List Act} {ws : List (RegW × Nat)}
    (hv : VecReady x.c x.tid) (hok : ok = true) (hacts : acts = wrActs ws) (hlater : Later ws := by simp) :
    Writes x (vOut x ok reads acts) ws := by
  subst hok hacts
  rw [vOut, vecLevel_of hv.1]
  exact ⟨rfl, rfl, fun _ => hv.2, rfl, rfl, hlater⟩

/-- Setting the mark of a writer of flags changes nothing of that. -/
theorem vMacOut_writes {x : IssueCtx} {ok : Bool} {reads : List WName} {acts : List Act} {ws : List (RegW × Nat)}
    (hv : VecReady x.c x.tid) (hok : ok = true) (hacts : acts = wrActs ws) (hlater : Later ws := by simp) :
    Writes x (vMacOut x ok reads acts) ws := by
  obtain ⟨hacts, hexcs, hpower, hfuse, hrep, hlater⟩ := vOut_writes (reads := reads) hv hok hacts hlater
  exact ⟨hacts, hexcs, hpower, hfuse, hrep, hlater⟩

theorem okEven_of {x : BitVec 5} (h : x.toNat % 2 = 0) : okEven x = true := by simp [okEven, h]
theorem ok16_of {x : BitVec 5} (h : x.toNat < 16) : ok16 x = true := by simp [ok16, h]
theorem ok8_of {x : BitVec 5} (h : x.toNat < 8) : ok8 x = true := by simp [ok8, h]
theorem ok4_of {x : BitVec 5} (h : x.toNat < 4) : ok4 x = true := by simp [ok4, h]

end Sys2Proof.Machine
end

section
/-! PROOFS. Words: sums, differences, compares, minima, logic and moves (R148, R150). -/

namespace Sys2Proof.Machine
open Sys2Proof Sys2Proof.Laws

/-! ### The arithmetic of R148's first rows -/

/-- The exact result `e` at width `w`, fitted, with its flags and the carry `cy` (R146, R148). -/
def exactOut (sat : Bool) (w : Nat) (e : Int) (cy : Bool) : ArithOut :=
  { val := (fit sat e w).1, n := flagN e w, z := flagZ e w, c := cy, v := (fit sat e w).2 }

section
variable (sat : Bool) {w : Nat} (a b : BitVec w)

theorem addW_exact (cin : Bool) :
    addW sat w a b cin = exactOut sat w (a.toInt + b.toInt + b2n cin) (decide (2 ^ w ≤ a.toNat + b.toNat + b2n cin)) := rfl
theorem addW_exact_noCarry :
    addW sat w a b false = exactOut sat w (a.toInt + b.toInt) (decide (2 ^ w ≤ a.toNat + b.toNat)) := by
  simp [addW_exact, b2n]

theorem subW_exact_noBorrow :
    subW sat w a b false = exactOut sat w (a.toInt - b.toInt) (decide (b.toNat ≤ a.toNat)) := by
  simp [subW, exactOut, b2n]
/-- The borrow in is 1 where C is 0. -/
theorem subW_exact_borrow (cy : Bool) : subW sat w a b (!cy) =
    exactOut sat w (a.toInt - b.toInt - (1 - b2n cy)) (decide (b.toNat + (1 - b2n cy) ≤ a.toNat)) := by
  cases cy <;> rfl

theorem negW_exact : negW sat w a = exactOut sat w (-a.toInt) (decide (a = 0)) := rfl

end

/-- The flags of an exact result are those of the statements. -/
theorem wrNZCV_exact (sat : Bool) (w : Nat) (e : Int) (cy : Bool) (lat : Nat) :
    wrNZCV (flagN e w) (flagZ e w) cy (fit sat e w).2 lat = wrActs (flagsTo (flagsNZCV w e cy) lat) := by
  rw [fit_flag]; rfl
theorem wrNZV_exact (sat : Bool) (w : Nat) (e : Int) (lat : Nat) :
    wrNZV (flagN e w) (flagZ e w) (fit sat e w).2 lat = wrActs (flagsTo (flagsNZV w e) lat) := by
  rw [fit_flag]; rfl

theorem arithD_exact (t : Thread) (d : Nat) (e : Int) (cy : Bool) :
    arithD t d (exactOut t.sat 14 e cy) = wrActs (dTo t d (fitted t 14 e) 1 :: flagsTo (flagsNZCV 14 e cy) 1) :=
  congrArg _ (wrNZCV_exact ..)
theorem arithDD_exact (t : Thread) (d : Nat) (e : Int) (cy : Bool) :
    arithDD t d (exactOut t.sat 28 e cy) = wrActs (pairTo t d (fitted t 28 e) 1 ++ flagsTo (flagsNZCV 28 e cy) 1) := by
  rw [wrActs_append, ← wrNZCV_exact t.sat]; rfl
theorem cmpActs_exact (sat : Bool) (w : Nat) (e : Int) (cy : Bool) :
    cmpActs (exactOut sat w e cy) = wrActs (flagsTo (flagsNZCV w e cy) 1) := wrNZCV_exact ..

/-! ### The answers by their forms -/

section
variable {x : IssueCtx} {f : R3} {e : Int} {cy : Bool}

theorem alu3_writes {r : Word → Word → ArithOut} (hb : f.b = 0)
    (hr : r (x.t.rd f.y.toNat) (x.t.rd f.z.toNat) = exactOut x.t.sat 14 e cy) :
    Writes x (alu3 f x r) (dTo x.t f.x.toNat (fitted x.t 14 e) 1 :: flagsTo (flagsNZCV 14 e cy) 1) :=
  dOut_writes (okZero_of hb) (by rw [hr, arithD_exact])

theorem aluImm_writes {r : Word → Word → ArithOut} {d s : BitVec 5} {i : BitVec 8}
    (hr : r (x.t.rd s.toNat) (i.signExtend 14) = exactOut x.t.sat 14 e cy) :
    Writes x (aluImm d s i x r) (dTo x.t d.toNat (fitted x.t 14 e) 1 :: flagsTo (flagsNZCV 14 e cy) 1) :=
  dOut_writes rfl (by rw [hr, arithD_exact])

theorem unary_writes {acts : Word → List Act} {wflags : Bool} {ws : List (RegW × Nat)} (hb : f.b = 0) (hz : f.z = 0)
    (hacts : acts (x.t.rd f.y.toNat) = wrActs ws) (hlater : Later ws := by simp) : Writes x (unary f x acts wflags) ws :=
  dOut_writes (by rw [okZero_of hb, okZero_of hz]; rfl) hacts hlater

/-- A logic result with its flags, in the words of the statements (R148). -/
theorem logicActs_eq (t : Thread) (d : Nat) (r : Word) :
    logicActs t d r = wrActs (dTo t d r 1 :: flagsTo [(.n, r.msb), (.z, r == 0), (.v, false)] 1) := by
  rw [BitVec.msb_eq_getLsbD_last]; rfl

theorem logic3_writes {r : Word → Word → Word} (hb : f.b = 0) :
    let v := r (x.t.rd f.y.toNat) (x.t.rd f.z.toNat)
    Writes x (logic3 f x r) (dTo x.t f.x.toNat v 1 :: flagsTo [(.n, v.msb), (.z, v == 0), (.v, false)] 1) :=
  dOut_writes (okZero_of hb) (logicActs_eq ..)

end

theorem toInt_signExtend_word (i : BitVec 8) : (i.signExtend 14).toInt = i.toInt := BitVec.toInt_signExtend_of_le (by omega)

/-- Settles O1: each operation is one of the shared forms, with its exact result. -/
theorem wordOperations : Obligations.WordOperations := by
  constructor
  · intro f imm hb
    refine ⟨?_, ?_, ?_, ?_, ?_, ?_, fun hx => ?_, ?_, fun hz => ?_, fun hz => ?_⟩
    · exact completesAlways_of_writes (fun _ => ⟨rfl, rfl⟩) fun _ _ =>
        alu3_writes (r := fun a b => addW _ 14 a b false) hb (addW_exact_noCarry ..)
    · refine completesAlways_of_writes (fun _ => ⟨rfl, rfl⟩) fun _ _ =>
        aluImm_writes (r := fun a b => addW _ 14 a b false) ?_
      rw [addW_exact_noCarry, toInt_signExtend_word]
    · exact completesAlways_of_writes (fun _ => ⟨rfl, rfl⟩) fun _ _ => alu3_writes hb (addW_exact ..)
    · exact completesAlways_of_writes (fun _ => ⟨rfl, rfl⟩) fun _ _ =>
        alu3_writes (r := fun a b => subW _ 14 a b false) hb (subW_exact_noBorrow ..)
    · refine completesAlways_of_writes (fun _ => ⟨rfl, rfl⟩) fun _ _ =>
        aluImm_writes (r := fun a b => subW _ 14 a b false) ?_
      rw [subW_exact_noBorrow, toInt_signExtend_word]
    · exact completesAlways_of_writes (fun _ => ⟨rfl, rfl⟩) fun _ _ => alu3_writes hb (subW_exact_borrow ..)
    · refine completesAlways_of_writes (fun _ => ⟨rfl, rfl⟩) fun _ _ =>
        dOut_writes (by rw [okZero_of hx, okZero_of hb]; rfl) ?_
      rw [subW_exact_noBorrow, cmpActs_exact]
    · refine completesAlways_of_writes (fun _ => ⟨rfl, rfl⟩) fun _ _ => dOut_writes rfl ?_
      rw [subW_exact_noBorrow, cmpActs_exact, toInt_signExtend_word]
    · exact completesAlways_of_writes (fun _ => ⟨rfl, rfl⟩) fun _ _ =>
        unary_writes hb hz (arithD_exact ..)
    · exact completesAlways_of_writes (fun _ => ⟨rfl, rfl⟩) fun _ _ =>
        unary_writes hb hz (congrArg _ (wrNZV_exact ..))
  · intro f imm logic s u
    refine ⟨fun hb => ?_, fun hb hz => ⟨?_, ?_⟩, ?_, fun hx hy hz => ⟨fun hb => ?_, fun hb => ?_⟩⟩
    · have hlogic (r : Word → Word → Word) {op : Site → Instr} (ha : Answers op (fun _ x => logic3 f x r)) :
          CompletesAlways op (fun t => logic t (r (s t) (u t))) :=
        completesAlways_of_writes ha fun _ _ => logic3_writes hb
      exact ⟨hlogic (fun a b => if b.toInt < a.toInt then b else a) fun _ => ⟨rfl, rfl⟩,
        hlogic (fun a b => if a.toInt < b.toInt then b else a) fun _ => ⟨rfl, rfl⟩,
        hlogic (fun a b => if b.toNat < a.toNat then b else a) fun _ => ⟨rfl, rfl⟩,
        hlogic (fun a b => if a.toNat < b.toNat then b else a) fun _ => ⟨rfl, rfl⟩,
        hlogic (· &&& ·) fun _ => ⟨rfl, rfl⟩, hlogic (· ||| ·) fun _ => ⟨rfl, rfl⟩,
        hlogic (· ^^^ ·) fun _ => ⟨rfl, rfl⟩, hlogic (· &&& ~~~·) fun _ => ⟨rfl, rfl⟩⟩
    · exact completesAlways_of_writes (fun _ => ⟨rfl, rfl⟩) fun _ _ => unary_writes hb hz (logicActs_eq ..) (by simp [logic])
    · exact completesAlways_of_writes (fun _ => ⟨rfl, rfl⟩) fun _ _ => unary_writes hb hz rfl
    · exact completesAlways_of_writes (fun _ => ⟨rfl, rfl⟩) fun _ _ => dOut_writes rfl rfl
    · refine completesAlways_of_writes (fun _ => ⟨rfl, rfl⟩) fun _ _ => ?_
      rw [opMvad, if_pos hb]
      exact dOut_writes (by simp [okEven_of hx, ok16_of hy, okZero_of hz, hb]) rfl
    · refine completesAlways_of_writes (fun _ => ⟨rfl, rfl⟩) fun _ _ => ?_
      rw [opMvad, if_neg (by simp [hb])]
      exact dOut_writes (by simp [okEven_of hx, ok16_of hy, okZero_of hz, hb]) rfl

end Sys2Proof.Machine
end

section
/-! PROOFS. Pair arithmetic, and shifts of words and pairs (R148, R150, R152). -/

namespace Sys2Proof.Machine
open Sys2Proof Sys2Proof.Laws

section
variable {x : IssueCtx} {f : R3}

theorem aluD3_writes {r : DWord → DWord → ArithOut} {e : Int} {cy : Bool} (hb : f.b = 0) (hx : f.x.toNat % 2 = 0)
    (hy : f.y.toNat % 2 = 0) (hz : f.z.toNat % 2 = 0)
    (hr : r (x.t.rdd f.y.toNat) (x.t.rdd f.z.toNat) = exactOut x.t.sat 28 e cy) :
    Writes x (aluD3 f x r) (pairTo x.t f.x.toNat (fitted x.t 28 e) 1 ++ flagsTo (flagsNZCV 28 e cy) 1) :=
  dOut_writes (by rw [okZero_of hb, okEven_of hx, okEven_of hy, okEven_of hz]; rfl) (by rw [hr, arithDD_exact])

theorem unaryD_writes {acts : DWord → List Act} {wflags : Bool} {ws : List (RegW × Nat)} (hb : f.b = 0)
    (hx : f.x.toNat % 2 = 0) (hy : f.y.toNat % 2 = 0) (hz : f.z = 0) (hacts : acts (x.t.rdd f.y.toNat) = wrActs ws)
    (hlater : Later ws := by simp) : Writes x (unaryD f x acts wflags) ws :=
  dOut_writes (by rw [okZero_of hb, okZero_of hz, okEven_of hx, okEven_of hy]; rfl) hacts hlater

/-! ### Shifts -/

/-- The flags of a shift as they land: C stays where the count is 0 (R152). -/
def shiftLandings {w : Nat} (r : ShiftOut w) : List (RegW × Nat) :=
  flagsTo ([(.n, r.r.msb), (.z, r.r == 0), (.v, r.v)] ++ (match r.c with | some b => [(.c, b)] | none => [])) 1

@[simp] theorem later_shiftLandings {w : Nat} (r : ShiftOut w) : Later (shiftLandings r) := later_flagsTo _ _

theorem shiftFlags_eq {w : Nat} (r : ShiftOut w) : shiftFlags r = wrActs (shiftLandings r) := by
  obtain ⟨v, cy, ov⟩ := r
  rw [shiftFlags, shiftLandings, BitVec.msb_eq_getLsbD_last]
  cases cy <;> rfl

theorem shiftD_writes {arith ok : Bool} {reads : List WName} {d s : BitVec 5} {n : Int} (hok : ok = true) :
    let r := shiftW arith (x.t.rd s.toNat) n
    Writes x (shiftD arith ok reads d s n x) (dTo x.t d.toNat r.r 1 :: shiftLandings r) :=
  dOut_writes hok (by rw [shiftFlags_eq]; rfl)

theorem shiftDD_writes {arith : Bool} (hb : f.b = 0) (hx : f.x.toNat % 2 = 0) (hy : f.y.toNat % 2 = 0) :
    let r := shiftW arith (x.t.rdd f.y.toNat) (regCount (x.t.rd f.z.toNat))
    Writes x (shiftDD arith f x) (pairTo x.t f.x.toNat r.r 1 ++ shiftLandings r) :=
  dOut_writes (by rw [okZero_of hb, okEven_of hx, okEven_of hy]; rfl) (by rw [shiftFlags_eq, wrActs_append]; rfl)

end

/-- Settles O2: pairs have the forms of words at width 28, and the four kinds of shift one form each for words and pairs. -/
theorem pairArithmeticAndShifts : Obligations.PairArithmeticAndShifts := by
  constructor
  · intro f hb hy
    refine ⟨fun hx hz => ⟨?_, ?_, ?_, ?_⟩, fun hx hz => ?_, fun hx hz => ⟨?_, ?_⟩⟩
    · exact completesAlways_of_writes (fun _ => ⟨rfl, rfl⟩) fun _ _ => aluD3_writes hb hx hy hz (addW_exact_noCarry ..)
    · exact completesAlways_of_writes (fun _ => ⟨rfl, rfl⟩) fun _ _ => aluD3_writes hb hx hy hz (addW_exact ..)
    · exact completesAlways_of_writes (fun _ => ⟨rfl, rfl⟩) fun _ _ => aluD3_writes hb hx hy hz (subW_exact_noBorrow ..)
    · exact completesAlways_of_writes (fun _ => ⟨rfl, rfl⟩) fun _ _ => aluD3_writes hb hx hy hz (subW_exact_borrow ..)
    · refine completesAlways_of_writes (fun _ => ⟨rfl, rfl⟩) fun _ _ =>
        dOut_writes (by rw [okZero_of hx, okZero_of hb, okEven_of hy, okEven_of hz]; rfl) ?_
      rw [subW_exact_noBorrow, cmpActs_exact]
    · exact completesAlways_of_writes (fun _ => ⟨rfl, rfl⟩) fun _ _ => unaryD_writes hb hx hy hz (arithDD_exact ..)
    · exact completesAlways_of_writes (fun _ => ⟨rfl, rfl⟩) fun _ _ => unaryD_writes hb hx hy hz rfl
  · intro f g flags count
    refine ⟨fun hb => ?_, ?_, ?_, fun hb hx hy => ?_⟩
    · refine ⟨?_, ?_⟩ <;> exact completesAlways_of_writes (fun _ => ⟨rfl, rfl⟩) fun _ _ => shiftD_writes (okZero_of hb)
    · simp only [List.forall_mem_cons]
      exact ⟨completesAlways_of_writes (fun _ => ⟨rfl, rfl⟩) fun _ _ => shiftD_writes rfl,
        completesAlways_of_writes (fun _ => ⟨rfl, rfl⟩) fun _ _ => shiftD_writes rfl, nofun⟩
    · simp only [List.forall_mem_cons]
      exact ⟨completesAlways_of_writes (fun _ => ⟨rfl, rfl⟩) fun _ _ => shiftD_writes rfl,
        completesAlways_of_writes (fun _ => ⟨rfl, rfl⟩) fun _ _ => shiftD_writes rfl, nofun⟩
    · refine ⟨?_, ?_⟩ <;> exact completesAlways_of_writes (fun _ => ⟨rfl, rfl⟩) fun _ _ => shiftDD_writes hb hx hy

end Sys2Proof.Machine
end

section
/-! PROOFS. The edge results of the ALU operations (R151): what each operation lands (R150), at the operands of each row. -/

namespace Sys2Proof.Machine
open Sys2Proof Sys2Proof.Laws

/-- What an operation that always completes leaves, its landings written in another way. -/
theorem CompletesAlways.exec_eq {op : Site → Instr} {ws : Thread → List (RegW × Nat)} (h : CompletesAlways op ws) {s : State}
    {i : Site} {k : Nat} {c : Core} {t : Thread} {ws' : List (RegW × Nat)} (he : ws t = ws') :
    Quiet s i (op i) k c t → exec (op i) s = .next (landing s i k ws') :=
  fun hq => he ▸ h s i k c t hq trivial

/-- The landings of an exact word result, `r` its value with and without saturation. -/
theorem landings_fitted (t : Thread) (d : Nat) {e : Int} (r : Bool → Word) {fl fl' : List (FlagId × Bool)}
    (h : (∀ sat, BitVec.ofInt 14 (fit sat e 14).1 = r sat) ∧ fl' = fl) :
    dTo t d (fitted t 14 e) 1 :: flagsTo fl' 1 = dTo t d (r t.sat) 1 :: flagsTo fl 1 := by
  obtain ⟨hr, hfl⟩ := h
  rw [fitted, hr, hfl]
theorem landings_fittedPair (t : Thread) (d : Nat) {e : Int} (r : Bool → DWord) {fl fl' : List (FlagId × Bool)}
    (h : (∀ sat, BitVec.ofInt 28 (fit sat e 28).1 = r sat) ∧ fl' = fl) :
    pairTo t d (fitted t 28 e) 1 ++ flagsTo fl' 1 = pairTo t d (r t.sat) 1 ++ flagsTo fl 1 := by
  obtain ⟨hr, hfl⟩ := h
  rw [fitted, hr, hfl]

/-- Settles O52: the landings of each operation (`wordOperations`, `pairArithmeticAndShifts`) at the operands of its row. -/
theorem aluEdgeResults : Obligations.AluEdgeResults := by
  intro s i k c t f hb
  obtain ⟨harith, hlogic⟩ := wordOperations
  obtain ⟨hadd, -, -, hsub, -, -, -, -, hneg, habs⟩ := harith f 0 hb
  obtain ⟨hpair, -⟩ := pairArithmeticAndShifts
  obtain ⟨hbin, -⟩ := hlogic f 0
  obtain ⟨hmin, -, hminu, -, hand, -⟩ := hbin hb
  refine ⟨fun ha hb => hadd.exec_eq ?_, fun ha hb => hadd.exec_eq ?_, fun ha hb => hadd.exec_eq ?_,
    fun ha hb => hsub.exec_eq ?_, fun ha hb => hsub.exec_eq ?_, fun ha hb => hsub.exec_eq ?_,
    fun hz => ⟨fun ha => (hneg hz).exec_eq ?_, fun ha => (hneg hz).exec_eq ?_, fun ha => (habs hz).exec_eq ?_⟩,
    fun ha hb => hmin.exec_eq ?_, fun ha hb => hminu.exec_eq ?_, fun ha hb => hand.exec_eq ?_,
    fun hx hy hz ha hb' => ?_⟩
  · have ha : t.rd f.y.toNat = 0x1FFF := BitVec.eq_of_toInt_eq ha
    simp only [ha, hb]
    exact landings_fitted t _ (fun sat => if sat then 0x1FFF else 0x2000) (by decide)
  · simp only [ha, hb]
    exact landings_fitted t _ (fun sat => if sat then 0x2000 else 0) (by decide)
  · have ha : t.rd f.y.toNat = 0x3FFF := BitVec.eq_of_toInt_eq ha
    simp only [ha, hb]
    exact landings_fitted t _ (fun _ => 0) (by decide)
  · simp only [ha, hb]
    exact landings_fitted t _ (fun sat => if sat then 0x2000 else 0x1FFF) (by decide)
  · simp only [ha, hb]
    exact landings_fitted t _ (fun _ => 0x3FFF) (by decide)
  · simp only [ha, hb]
    exact landings_fitted t _ (fun _ => 0) (by decide)
  · simp only [ha]
    exact landings_fitted t _ (fun sat => if sat then 0x1FFF else 0x2000) (by decide)
  · simp only [ha]
    exact landings_fitted t _ (fun _ => 0) (by decide)
  · simp only [ha]
    exact landings_fitted t _ (fun sat => if sat then 0x1FFF else 0x2000) (by decide)
  · simp only [ha, hb]
    rfl
  · simp only [ha, hb]
    rfl
  · simp only [ha, hb]
    rfl
  · obtain ⟨harithD, -⟩ := hpair f hb hy
    obtain ⟨haddD, -⟩ := harithD hx hz
    refine haddD.exec_eq ?_
    simp only [ha, hb']
    exact landings_fittedPair t _ (fun sat => if sat then 0x7FFFFFF else 0x8000000) (by decide)

end Sys2Proof.Machine
end

section
/-! PROOFS. Accumulators, fractional products, scaled moves, block exponents and decimal results (R148, R155–R160, R163, R164,
R166, R174). -/

namespace Sys2Proof.Machine
open Sys2Proof Sys2Proof.Laws

/-! ### Accumulator results -/

/-- The landings of the exact value `e` in ACn: the fitted value, N, Z and V of it, and AV where it does not fit (R148, R158). -/
def accLandings (t : Thread) (n : Nat) (e : Int) : List (RegW × Nat) :=
  (.ac n (accWrite t.wide (fit t.sat e (accW t.wide)).1), 2) ::
    (flagsTo (flagsNZV (accW t.wide) e) 2 ++ (if fits e (accW t.wide) then [] else [(.sticky .av, 2)]))

@[simp] theorem later_accLandings (t : Thread) (n : Nat) (e : Int) : Later (accLandings t n e) := by simp [accLandings]

/-- A sticky flag is set where the value does not fit. -/
theorem wrSticky_not (id : StickyId) (b : Bool) (lat : Nat) :
    wrSticky id (!b) lat = wrActs (if b then [] else [(.sticky id, lat)]) := by cases b <;> rfl

theorem accTo_eq (t : Thread) (n : Nat) (e : Int) : accTo t n e = wrActs (accLandings t n e) := by
  rw [accLandings, wrActs_cons, wrActs_append, ← wrNZV_exact t.sat, ← wrSticky_not, ← fit_flag t.sat]; rfl

section
variable {x : IssueCtx} {f : R3}

/-- The operand pairs of a product are even in wide mode (R166). -/
theorem productOk_of (h : x.t.wide = true → f.y.toNat % 2 = 0 ∧ f.z.toNat % 2 = 0) : productOk x.t f.y f.z = true := by
  cases hw : x.t.wide with
  | false => simp [productOk, hw]
  | true => simp [productOk, okEven_of (h hw).1, okEven_of (h hw).2]

theorem macOut_writes {v : Int → Int} (hb : f.b = 0) (hx : f.x.toNat < 8)
    (h : x.t.wide = true → f.y.toNat % 2 = 0 ∧ f.z.toNat % 2 = 0) :
    Writes x (macOut f x v) (accLandings x.t f.x.toNat (v (scalarProduct x.t f.y f.z))) :=
  dOut_writes (by rw [okZero_of hb, ok8_of hx, productOk_of h]; rfl) (accTo_eq ..)

/-- The accumulator operations without products (R157). -/
theorem accOut_writes {ok : Bool} {reads : List WName} {n : Nat} {e : Int} (hok : ok = true) :
    Writes x (dOut ok reads (accTo x.t n e) true) (accLandings x.t n e) :=
  dOut_writes hok (accTo_eq ..)

theorem rac_narrow {t : Thread} (hw : t.wide = false) (n : Nat) : t.rac n = accRead false (smGet t.ac n) := by
  rw [Thread.rac, hw]

/-- The complex operations outside wide mode: `re` and `im` the exact parts (R155, R157). -/
theorem cmacOut_writes {accumulate conj : Bool} {re im : Int} (hb : f.b = 0) (hx : f.x.toNat < 8) (hxe : f.x.toNat % 2 = 0)
    (hy : f.y.toNat % 2 = 0) (hz : f.z.toNat % 2 = 0) (hw : x.t.wide = false)
    (hre : (if accumulate then x.t.rac f.x.toNat else 0) + cmulRe conj (x.t.rd f.y.toNat).toInt
      (x.t.rd (f.y.toNat + 1)).toInt (x.t.rd f.z.toNat).toInt (x.t.rd (f.z.toNat + 1)).toInt = re)
    (him : (if accumulate then x.t.rac (f.x.toNat + 1) else 0) + cmulIm conj (x.t.rd f.y.toNat).toInt
      (x.t.rd (f.y.toNat + 1)).toInt (x.t.rd f.z.toNat).toInt (x.t.rd (f.z.toNat + 1)).toInt = im) :
    Writes x (cmacOut f x accumulate conj)
      ([(.ac f.x.toNat (accWrite false (fit x.t.sat re 40).1), 2),
        (.ac (f.x.toNat + 1) (accWrite false (fit x.t.sat im 40).1), 2)] ++
        flagsTo [(.n, decide (wrapped re 40 < 0)), (.z, decide (wrapped re 40 = 0) && decide (wrapped im 40 = 0)),
          (.v, !fits re 40 || !fits im 40)] 2 ++ (if fits re 40 && fits im 40 then [] else [(.sticky .av, 2)])) := by
  unfold cmacOut
  simp only [hre, him, hw]
  refine dOut_writes (by rw [okZero_of hb, ok8_of hx, okEven_of hxe, okEven_of hy, okEven_of hz]; rfl) ?_
  rw [wrActs_append, ← wrSticky_not, Bool.not_and]
  simp only [accOp, fit_flag]
  rfl

end

/-- Settles O3: each operation writes the exact value of its form; a complex one both parts. -/
theorem accumulatorOperations : Obligations.AccumulatorOperations := by
  constructor
  · intro f g acc prod old fit3
    refine ⟨fun hb hx => ⟨?_, ?_, ?_, fun hy hz => ?_, fun hy hz => ?_, fun hy hz => ?_⟩, fun hx hy hgf => ?_,
      fun hz hy => ⟨fun hb => ?_, fun hb => ?_⟩⟩
    iterate 3 · exact completes_of_writes (fun _ => ⟨rfl, rfl⟩) fun _ _ _ _ h => macOut_writes hb hx h
    · refine ⟨?_, ?_⟩ <;> exact completesAlways_of_writes (fun _ => ⟨rfl, rfl⟩) fun _ _ =>
        accOut_writes (by rw [okZero_of hb, ok8_of hx, ok8_of hy, ok8_of hz]; rfl)
    · exact completesAlways_of_writes (fun _ => ⟨rfl, rfl⟩) fun _ _ =>
        accOut_writes (by rw [okZero_of hb, okZero_of hz, ok8_of hx, ok8_of hy]; rfl)
    · exact completesAlways_of_writes (fun _ => ⟨rfl, rfl⟩) fun _ _ =>
        dOut_writes (by rw [okZero_of hb, okZero_of hy, okZero_of hz, ok8_of hx]; rfl) rfl
    · obtain ⟨n, m, count⟩ := g
      obtain rfl : n = f.x := hgf
      exact completesAlways_of_writes (fun _ => ⟨rfl, rfl⟩) fun _ _ =>
        accOut_writes (by rw [ok8_of hx, ok8_of hy]; rfl)
    · refine completesAlways_of_writes (fun _ => ⟨rfl, rfl⟩) fun _ _ => ?_
      rw [opMvp, if_pos hb]
      exact dOut_writes (by simp [ok4_of hz, ok8_of hy, hb]) rfl
    · refine completesAlways_of_writes (fun _ => ⟨rfl, rfl⟩) fun _ _ => ?_
      rw [opMvp, if_neg (by simp [hb])]
      exact dOut_writes (by simp [ok4_of hz, ok8_of hy, hb]) rfl
  · intro f hb hx hxe hy hz a b c d old acc
    refine ⟨?_, ?_, ?_⟩
    · exact completes_of_writes (fun _ => ⟨rfl, rfl⟩) fun _ _ _ _ hw =>
        cmacOut_writes hb hx hxe hy hz hw (Int.zero_add _) (Int.zero_add _)
    · exact completes_of_writes (fun _ => ⟨rfl, rfl⟩) fun _ _ _ _ hw =>
        cmacOut_writes hb hx hxe hy hz hw (congrArg (· + _) (rac_narrow hw _)) (congrArg (· + _) (rac_narrow hw _))
    · exact completes_of_writes (fun _ => ⟨rfl, rfl⟩) fun _ _ _ _ hw =>
        cmacOut_writes hb hx hxe hy hz hw (congrArg (· + _) (rac_narrow hw _)) (congrArg (· + _) (rac_narrow hw _))

/-! ### Fractional, scaled and decimal results -/

/-- The landings of a word result, or of a wide datum in wide mode, that is fitted (R148, R163, R166). -/
def fittedLandings (t : Thread) (d : Nat) (e : Int) (lat : Nat) : List (RegW × Nat) :=
  if t.wide then pairTo t d (wideWrite (fit t.sat e 24).1) lat ++ flagsTo (flagsNZV 24 e) lat
  else dTo t d (fitted t 14 e) lat :: flagsTo (flagsNZV 14 e) lat

@[simp] theorem later_fittedLandings (t : Thread) (d : Nat) (e : Int) (lat : Nat) :
    Later (fittedLandings t d e (lat + 1)) := by simp [fittedLandings]

theorem fittedActs_eq (t : Thread) (d : Nat) (e : Int) (lat : Nat) :
    fittedActs t d e lat = wrActs (fittedLandings t d e lat) := by
  unfold fittedActs fittedLandings
  split
  · rw [wrActs_append, ← wrNZV_exact t.sat]; rfl
  · exact congrArg _ (wrNZV_exact ..)

section
variable {x : IssueCtx} {f : R3}

/-- A destination that is a pair in wide mode is even (R166). -/
theorem wideEven_of {d : BitVec 5} (h : x.t.wide = true → d.toNat % 2 = 0) : (!x.t.wide || okEven d) = true := by
  cases hw : x.t.wide with
  | false => rfl
  | true => exact okEven_of (h hw)

/-- MULF rounds the product of its mode (R157, R166). -/
theorem mulf_writes {i : Site} (hb : f.b = 0)
    (h : x.t.wide = true → f.x.toNat % 2 = 0 ∧ f.y.toNat % 2 = 0 ∧ f.z.toNat % 2 = 0) :
    Writes x (opMulf i f x) (fittedLandings x.t f.x.toNat
      (if x.t.wide then rnd (wideRead (x.t.rdd f.y.toNat) * wideRead (x.t.rdd f.z.toNat)) 23
       else rnd ((x.t.rd f.y.toNat).toInt * (x.t.rd f.z.toNat).toInt) 13) 2) := by
  refine dOut_writes (by rw [okZero_of hb, productOk_of fun hw => (h hw).2, wideEven_of fun hw => (h hw).1]; rfl) ?_
  rw [fittedActs_eq]
  unfold scalarProduct
  split <;> rfl

theorem moveAcc_writes {base : Nat} (hb : f.b = 0) (hz : f.z = 0) (hy : f.y.toNat < 8)
    (h : x.t.wide = true → f.x.toNat % 2 = 0) :
    Writes x (moveAcc f x base) (fittedLandings x.t f.x.toNat (scaleMove (x.t.rac f.y.toNat) base (sclNow x.t)) 1) :=
  dOut_writes (by rw [okZero_of hz, okZero_of hb, ok8_of hy, wideEven_of h]; rfl) (fittedActs_eq ..)

/-- The landings of a decimal result (R148, R174). -/
def decLandings (t : Thread) (d : Nat) (r : DWord × Bool) (v : Bool) : List (RegW × Nat) :=
  pairTo t d r.1 1 ++ flagsTo [(.n, false), (.z, r.1 == 0), (.v, v), (.dc, r.2)] 1

@[simp] theorem later_decLandings (t : Thread) (d : Nat) (r : DWord × Bool) (v : Bool) : Later (decLandings t d r v) := by
  simp [decLandings]

theorem decActs_eq (t : Thread) (d : Nat) (r : DWord × Bool) (v : Bool) :
    decActs t d r v = wrActs (decLandings t d r v) := rfl

theorem decOut_writes {op : DWord → DWord → Bool → DWord × Bool} (hx : f.x.toNat % 2 = 0) (hy : f.y.toNat % 2 = 0)
    (hz : f.z.toNat % 2 = 0) (hb : f.b.toNat < 2) :
    let m := x.t.rdd f.y.toNat
    let n := x.t.rdd f.z.toNat
    Writes x (decOut f x op) (decLandings x.t f.x.toNat (op m n (f.b == 1 && x.t.flagDC)) (badDigit m || badDigit n)) :=
  dOut_writes (by simp [okEven_of hx, okEven_of hy, okEven_of hz, hb]) (decActs_eq ..)

end

/-- Settles O4: a fitted result lands as its mode says; decimal results have one form. -/
theorem scaledAndDecimalResults : Obligations.ScaledAndDecimalResults := by
  constructor
  · intro f res old scale even
    refine ⟨fun hb => ⟨?_, fun hx => ?_, fun hz hy => ?_, fun hx hz hy => ?_⟩, fun hb hx hz hy => ?_⟩
    · exact completes_of_writes (fun _ => ⟨rfl, rfl⟩) fun _ _ _ _ h => mulf_writes hb h
    · exact completes_of_writes (fun _ => ⟨rfl, rfl⟩) fun _ _ _ _ hw =>
        dOut_writes (by rw [okZero_of hb, okEven_of hx, viewOf_t, hw]; rfl) rfl
    · refine ⟨?_, ?_⟩ <;>
        exact completes_of_writes (fun _ => ⟨rfl, rfl⟩) fun _ _ _ _ h => moveAcc_writes hb hz hy h
    · exact completesAlways_of_writes (fun _ => ⟨rfl, rfl⟩) fun _ _ =>
        dOut_writes (by rw [okZero_of hx, okZero_of hz, ok8_of hy, okZero_of hb]; rfl) rfl
    · exact completesAlways_of_writes (fun _ => ⟨rfl, rfl⟩) fun _ _ =>
        dOut_writes (by rw [okZero_of hx, okZero_of hz, ok8_of hy, hb]; rfl) rfl
  · intro f hx hy dec m n
    refine ⟨fun hz hb => ?_, fun hz hb => ?_⟩
    · refine ⟨?_, ?_⟩ <;> exact completesAlways_of_writes (fun _ => ⟨rfl, rfl⟩) fun _ _ => decOut_writes hx hy hz hb
    · exact completesAlways_of_writes (fun _ => ⟨rfl, rfl⟩) fun _ _ =>
        dOut_writes (by rw [okZero_of hz, okZero_of hb, okEven_of hx, okEven_of hy]; rfl) (decActs_eq ..) (later_decLandings _ _ _ _)

end Sys2Proof.Machine
end

section
/-! PROOFS. Vector element operations and multiply-accumulate (R152, R156, R178, R180, R184, R186–R188): one form of answer for
each kind of operand, at a level with the vector unit. -/

namespace Sys2Proof.Machine
open Sys2Proof Sys2Proof.Laws

/-! ### Element operations -/

section
variable {x : IssueCtx} {f : R3}

theorem vv_writes {lat : Nat} {e : Word → Word → Word} (hv : VecReady x.c x.tid) (hb : f.b = 0) (hx : f.x.toNat < 16)
    (hy : f.y.toNat < 16) (hz : f.z.toNat < 16) :
    Writes x (vv f x (lat + 1) e) [(.v f.x.toNat ((List.range x.t.vl.toNat).map (fun n =>
      (n, e (x.t.rv f.y.toNat n) (x.t.rv f.z.toNat n)))), lat + 1)] :=
  vOut_writes hv (by rw [okZero_of hb, ok16_of hx, ok16_of hy, ok16_of hz]; rfl) rfl

theorem vs_writes {e : Word → Word → Word} (hv : VecReady x.c x.tid) (hb : f.b = 0) (hx : f.x.toNat < 16)
    (hy : f.y.toNat < 16) :
    Writes x (vs f x e) [(.v f.x.toNat ((List.range x.t.vl.toNat).map (fun n =>
      (n, e (x.t.rv f.y.toNat n) (x.t.rd f.z.toNat)))), 1)] :=
  vOut_writes hv (by rw [okZero_of hb, ok16_of hx, ok16_of hy]; rfl) rfl

theorem v1_writes {e : Word → Word} (hv : VecReady x.c x.tid) (hb : f.b = 0) (hx : f.x.toNat < 16) (hy : f.y.toNat < 16)
    (hz : f.z = 0) :
    Writes x (v1 f x e) [(.v f.x.toNat ((List.range x.t.vl.toNat).map (fun n => (n, e (x.t.rv f.y.toNat n)))), 1)] :=
  vOut_writes hv (by rw [okZero_of hb, okZero_of hz, ok16_of hx, ok16_of hy]; rfl) rfl

theorem vshi_writes {arith : Bool} {g : RI6} (hv : VecReady x.c x.tid) (hx : g.x.toNat < 16) (hy : g.y.toNat < 16) :
    Writes x (vshi arith g x) [(.v g.x.toNat ((List.range x.t.vl.toNat).map (fun n =>
      (n, (shiftW arith (x.t.rv g.y.toNat n) g.i.toInt).r))), 1)] :=
  vOut_writes hv (by rw [ok16_of hx, ok16_of hy]; rfl) rfl

end

/-- Settles O7: each operation is the form of its operands, word by word. -/
theorem vectorElements : Obligations.VectorElements := by
  intro f g words pvv pvs pv1 pvi count
  refine ⟨fun hb hx hy => ⟨fun hz => ?_, ?_, ?_, ?_, ?_, fun hz => ?_⟩, fun hx hy => ?_⟩
  · refine ⟨?_, ?_, ?_, ?_, ?_, ?_, ?_, ?_, ?_, ?_⟩ <;>
      exact completes_of_writes (fun _ => ⟨rfl, rfl⟩) fun _ _ _ _ hv => vv_writes hv hb hx hy hz
  iterate 4 · exact completes_of_writes (fun _ => ⟨rfl, rfl⟩) fun _ _ _ _ hv => vs_writes hv hb hx hy
  · refine ⟨?_, ?_, ?_⟩ <;> exact completes_of_writes (fun _ => ⟨rfl, rfl⟩) fun _ _ _ _ hv => v1_writes hv hb hx hy hz
  · refine ⟨?_, ?_, ?_, ?_⟩ <;> exact completes_of_writes (fun _ => ⟨rfl, rfl⟩) fun _ _ _ _ hv => vshi_writes hv hx hy

/-! ### Multiply-accumulate -/

/-- A MAC that replaces writes its fitted products, and AV where one does not fit (R186, R187). -/
def putLandings (t : Thread) (a : Nat) (ps : List (Nat × Int)) : List (RegW × Nat) :=
  (.va a (ps.map (fun p => (p.1, accWrite t.wide (fit t.sat p.2 (accW t.wide)).1))), 3) ::
    (if ps.all (fun p => fits p.2 (accW t.wide)) then [] else [(.sticky .av, 3)])

@[simp] theorem later_putLandings (t : Thread) (a : Nat) (ps : List (Nat × Int)) : Later (putLandings t a ps) := by
  simp [putLandings]

theorem vmacAct_put (t : Thread) (a : Nat) (ps : List (Nat × Int)) : vmacAct t a false ps = wrActs (putLandings t a ps) := by
  have hav : (ps.map (fun p => (p.1, accOp t.sat t.wide p.2))).any (fun r => r.2.v) =
      !ps.all (fun p => fits p.2 (accW t.wide)) := by
    simp [accOp, fit_flag, List.not_all_eq_any_not, Function.comp_def]
  rw [putLandings, wrActs_cons, ← wrSticky_not, ← hav]
  simp [vmacAct, accOp, Function.comp_def]

/-- The landings of a vector MAC, one that accumulates adding at p + 3 (R187). -/
def macLandings (accumulate : Bool) (t : Thread) (a : Nat) (ps : List (Nat × Int)) : List (RegW × Nat) :=
  if accumulate then [(.vmac a ps t.wide t.sat, 3)] else putLandings t a ps

@[simp] theorem later_macLandings (accumulate : Bool) (t : Thread) (a : Nat) (ps : List (Nat × Int)) :
    Later (macLandings accumulate t a ps) := by cases accumulate <;> simp [macLandings]

theorem vmacAct_eq (accumulate : Bool) (t : Thread) (a : Nat) (ps : List (Nat × Int)) :
    vmacAct t a accumulate ps = wrActs (macLandings accumulate t a ps) := by
  cases accumulate with
  | true => rfl
  | false => exact vmacAct_put t a ps

section
variable {x : IssueCtx} {f : R3} {accumulate : Bool}

/-- A legal vector MAC of the products `ps`. -/
theorem vmacAct_writes {ok : Bool} {reads : List WName} {a : Nat} {ps : List (Nat × Int)} (hv : VecReady x.c x.tid)
    (hok : ok = true) :
    Writes x (vMacOut x ok reads (vmacAct x.t a accumulate ps)) (macLandings accumulate x.t a ps) :=
  vMacOut_writes hv hok (vmacAct_eq ..)

theorem vmacOut_writes {sign : Int} (hv : VecReady x.c x.tid) (hb : f.b = 0) (hx : f.x.toNat < 4) (hy : f.y.toNat < 16)
    (hz : f.z.toNat < 16) : Writes x (vmacOut f x accumulate sign)
      (macLandings accumulate x.t f.x.toNat (realProducts x.t f.y.toNat f.z.toNat sign)) :=
  vmacAct_writes hv (by rw [okZero_of hb, ok4_of hx, ok16_of hy, ok16_of hz]; rfl)

theorem vmacp_writes (hv : VecReady x.c x.tid) (hw : x.t.wide = false) (hb : f.b = 0) (hx : f.x.toNat < 4)
    (hxe : f.x.toNat % 2 = 0) (hy : f.y.toNat < 16) (hz : f.z.toNat < 16) :
    let s : Nat → Int := fun n => (x.t.rv f.y.toNat n).toInt
    let z : Nat → Int := fun n => (x.t.rv f.z.toNat n).toInt
    Writes x (vmacp f x accumulate)
      (macLandings accumulate x.t f.x.toNat ((List.range x.t.vl.toNat).map (fun n => (n, s n * z n))) ++
        macLandings accumulate x.t (f.x.toNat + 1)
          ((List.range x.t.vl.toNat).map (fun n => (n, s n * z (if n % 2 = 0 then n + 1 else n - 1))))) :=
  vMacOut_writes hv (by rw [okZero_of hb, ok4_of hx, okEven_of hxe, ok16_of hy, ok16_of hz, hw]; rfl)
    (by rw [wrActs_append, ← vmacAct_eq, ← vmacAct_eq]; rfl)

theorem vcmacOut_writes {conj : Bool} (hv : VecReady x.c x.tid) (hw : x.t.wide = false) (hb : f.b = 0) (hx : f.x.toNat < 4)
    (hy : f.y.toNat < 16) (hz : f.z.toNat < 16) :
    Writes x (vcmacOut f x accumulate conj) (macLandings accumulate x.t f.x.toNat (pairProducts x.t f.y.toNat conj
      (fun k => ((x.t.rv f.z.toNat (2 * k)).toInt, (x.t.rv f.z.toNat (2 * k + 1)).toInt)))) :=
  vmacAct_writes hv (by rw [okZero_of hb, ok4_of hx, ok16_of hy, ok16_of hz, hw]; rfl)

/-- VMACS multiplies by a word, or by a wide datum in wide mode (R186, R188). -/
theorem vmacs_writes {i : Site} (hv : VecReady x.c x.tid) (hb : f.b = 0) (hx : f.x.toNat < 4) (hy : f.y.toNat < 16)
    (hz : x.t.wide = true → f.z.toNat % 2 = 0) :
    Writes x (opVmacs i f x) (macLandings true x.t f.x.toNat (if x.t.wide then
        (pairEls x.t).map (fun n => (2 * n, wideRead (x.t.rvw f.y.toNat n) * wideRead (x.t.rdd f.z.toNat)))
      else (wordEls x.t).map (fun n => (n, (x.t.rv f.y.toNat n).toInt * (x.t.rd f.z.toNat).toInt)))) :=
  vmacAct_writes hv (by rw [okZero_of hb, ok4_of hx, ok16_of hy, wideEven_of hz]; rfl)

end

/-- Settles O9: each MAC lands its products, added or in place of the elements. -/
theorem vectorAccumulate : Obligations.VectorAccumulate := by
  intro f hb hx put add vec narrow s z words twos prods cplx qz
  refine ⟨fun hy hz => ⟨?_, ?_, ?_, fun hxe => ?_, ?_⟩, fun hy => ⟨?_, fun hz => ?_⟩, fun hy hz => ?_⟩
  · exact completes_of_writes (fun _ => ⟨rfl, rfl⟩) fun _ _ _ _ hv => vmacOut_writes hv hb hx hy hz
  · exact completes_of_writes (fun _ => ⟨rfl, rfl⟩) fun _ _ _ _ hv => vmacOut_writes hv hb hx hy hz
  · exact completes_of_writes (fun _ => ⟨rfl, rfl⟩) fun _ _ _ _ hv => vmacOut_writes hv hb hx hy hz
  · refine ⟨?_, ?_⟩ <;>
      exact completes_of_writes (fun _ => ⟨rfl, rfl⟩) fun _ _ _ _ ⟨hv, hw⟩ => vmacp_writes hv hw hb hx hxe hy hz
  · refine ⟨?_, ?_, ?_⟩ <;>
      exact completes_of_writes (fun _ => ⟨rfl, rfl⟩) fun _ _ _ _ ⟨hv, hw⟩ => vcmacOut_writes hv hw hb hx hy hz
  · exact completes_of_writes (fun _ => ⟨rfl, rfl⟩) fun _ _ _ _ ⟨hv, hz⟩ => vmacs_writes hv hb hx hy hz
  · exact completes_of_writes (fun _ => ⟨rfl, rfl⟩) fun _ _ _ _ ⟨hv, hw⟩ =>
      vmacAct_writes hv (by rw [okZero_of hb, ok4_of hx, ok16_of hy, okEven_of hz, viewOf_t, hw]; rfl)
  · exact completes_of_writes (fun _ => ⟨rfl, rfl⟩) fun _ _ _ _ hv =>
      vOut_writes hv (by rw [okZero_of hb, okZero_of hy, okZero_of hz, ok4_of hx]; rfl) rfl

end Sys2Proof.Machine
end

section
/-! PROOFS. Moves of vector accumulators, block exponents, extremum searches and SETVL (R163, R164, R179, R190–R193). -/

namespace Sys2Proof.Machine
open Sys2Proof Sys2Proof.Laws

/-! ### Moves and block exponents -/

/-- The landings of VMVR and VMVI: scaled elements, fitted to words, or to wide data in wide mode (R163, R190). -/
def vmoveLandings (t : Thread) (d : Nat) (moved : Nat → Int) : List (RegW × Nat) :=
  if t.wide then
    [(.v d ((List.range (t.vl.toNat / 2)).flatMap (fun n =>
      let w := wideWrite (fit t.sat (moved (2 * n)) 24).1
      [(2 * n, w.truncate 14), (2 * n + 1, (w >>> 14).truncate 14)])), 1)]
  else [(.v d ((List.range t.vl.toNat).map (fun n => (n, fitted t 14 (moved n)))), 1)]

@[simp] theorem later_vmoveLandings (t : Thread) (d : Nat) (moved : Nat → Int) : Later (vmoveLandings t d moved) := by
  simp [vmoveLandings]

/-! ### Extremum searches -/

/-- The landings of VMAXI and VMINI from the extreme element and its index (R191, R193). -/
def foundLandings (isMax : Bool) (t : Thread) (d : Nat) : Option (Int × Nat) → List (RegW × Nat)
  | some (v, n) => [dTo t d (BitVec.ofInt 14 v) 3, dTo t (d + 1) (BitVec.ofNat 14 n) 3]
  | none => [dTo t d (if isMax then 0x2000 else 0x1FFF) 3, dTo t (d + 1) 0x3FFF 3]

/-- The landings of a start form from its candidate (R191, R193). -/
def startLandings (isMax : Bool) (t : Thread) (d : Nat) : Option (Int × Nat) → List (RegW × Nat)
  | some (v, n) => [(.ac d (accWrite t.wide v), 3), (.ac (d + 1) (BitVec.ofNat 56 n), 3)]
  | none => [(.ac d (accWrite t.wide (if isMax then sMin (accW t.wide) else sMax (accW t.wide))), 3), (.ac (d + 1) 0xFFFFFFF, 3)]

@[simp] theorem later_foundLandings (isMax : Bool) (t : Thread) (d : Nat) (r : Option (Int × Nat)) :
    Later (foundLandings isMax t d r) := by
  rcases r with _ | ⟨v, n⟩ <;> simp [foundLandings]
@[simp] theorem later_startLandings (isMax : Bool) (t : Thread) (d : Nat) (r : Option (Int × Nat)) :
    Later (startLandings isMax t d r) := by
  rcases r with _ | ⟨v, n⟩ <;> simp [startLandings]

section
variable {x : IssueCtx} {f : R3} {isMax ok : Bool}

theorem vmove_writes {base : Nat} (hv : VecReady x.c x.tid) (hb : f.b = 0) (hz : f.z = 0) (hx : f.x.toNat < 16)
    (hy : f.y.toNat < 4) : Writes x (vmove f x base) (vmoveLandings x.t f.x.toNat (fun n =>
      scaleMove (accRead x.t.wide (x.t.rva f.y.toNat n)) base (sclK x.t.scl (x.t.rd 7)))) := by
  refine vOut_writes hv (by rw [okZero_of hb, okZero_of hz, ok16_of hx, ok4_of hy]; rfl) ?_
  unfold vmoveLandings
  split <;> rfl

theorem vextreme_writes (hv : VecReady x.c x.tid) (hb : f.b = 0) (hz : f.z = 0) (hx : f.x.toNat % 2 = 0) (hy : f.y.toNat < 16) :
    Writes x (vextreme isMax f x) (foundLandings isMax x.t f.x.toNat (extreme isMax (vsEls x.t f.y.toNat))) := by
  refine vOut_writes hv (by rw [okZero_of hz, okZero_of hb, okEven_of hx, ok16_of hy]; rfl) ?_
  rw [vsEls]
  rcases extreme isMax _ with _ | ⟨v, n⟩ <;> rfl

theorem runSearch_writes {els : List (Nat × Int)} (hv : VecReady x.c x.tid) (hok : ok = true) (hx : f.x.toNat < 8)
    (hxe : f.x.toNat % 2 = 0) (hz : f.z.toNat % 2 = 0) :
    Writes x (runSearch isMax false ok f x els) [(.ext f.x.toNat (candidate x.t isMax f.z.toNat els) isMax x.t.wide, 3)] :=
  vOut_writes hv (by rw [hok, ok8_of hx, okEven_of hxe, okEven_of hz]; rfl) rfl

theorem runSearch_start_writes {els : List (Nat × Int)} (hv : VecReady x.c x.tid) (hok : ok = true) (hx : f.x.toNat < 8)
    (hxe : f.x.toNat % 2 = 0) (hz : f.z.toNat % 2 = 0) :
    Writes x (runSearch isMax true ok f x els)
      (startLandings isMax x.t f.x.toNat (candidate x.t isMax f.z.toNat els)) := by
  refine vOut_writes hv (by rw [hok, ok8_of hx, okEven_of hxe, okEven_of hz]; rfl) ?_
  rcases candidate x.t isMax f.z.toNat els with _ | ⟨v, n⟩ <;> rfl

end

/-- SETVL needs its level alone, not the vector unit (R110, R179). -/
theorem setvl_writes {x : IssueCtx} {ok : Bool} {reads : List WName} {acts : List Act} {ws : List (RegW × Nat)}
    (hv : x.c.kind = .signal → x.tid < 2) (hok : ok = true) (hacts : acts = wrActs ws) (hlater : Later ws := by simp) :
    Writes x (whenLegal (ok && x.vecLevel) [.v] { slots := [.v], reads := reads, acts := acts }) ws := by
  subst hok hacts
  rw [vecLevel_of hv]
  exact ⟨rfl, rfl, nofun, rfl, rfl, hlater⟩

/-- Settles O10: a move, an exponent, the three forms of search, and SETVL. -/
theorem vectorMovesExponentsAndSearches : Obligations.VectorMovesExponentsAndSearches := by
  constructor
  · intro f hz hy vec acc moved out top
    refine ⟨fun hb hx => ?_, fun hx hb => ?_, fun hx hb => ?_⟩
    · refine ⟨?_, ?_⟩ <;> exact completes_of_writes (fun _ => ⟨rfl, rfl⟩) fun _ _ _ _ hv => vmove_writes hv hb hz hx hy
    · exact completes_of_writes (fun _ => ⟨rfl, rfl⟩) fun _ _ _ _ hv =>
        vOut_writes hv (by rw [okZero_of hx, okZero_of hz, okZero_of hb, ok4_of hy]; rfl) rfl
    · exact completes_of_writes (fun _ => ⟨rfl, rfl⟩) fun _ _ _ _ hv =>
        vOut_writes hv (by rw [okZero_of hx, okZero_of hz, hb, ok4_of hy]; rfl) rfl
  · intro f g vec els accs found one go start
    have hone (mx : Bool) (t : Thread) : foundLandings mx t f.x.toNat (extreme mx (vsEls t f.y.toNat)) = one mx t := by
      change foundLandings mx t f.x.toNat (extreme mx (els t)) = one mx t
      simp only [one]
      rcases extreme mx (els t) with _ | ⟨v, n⟩ <;> rfl
    have hstart (mx : Bool) (es : Thread → List (Nat × Int)) (t : Thread) :
        startLandings mx t f.x.toNat (candidate t mx f.z.toNat (es t)) = start mx es t := by
      change startLandings mx t f.x.toNat (found t mx (es t)) = start mx es t
      simp only [start]
      rcases found t mx (es t) with _ | ⟨v, n⟩ <;> rfl
    refine ⟨fun hxe => ⟨fun hb hz hy => ⟨?_, ?_⟩, fun hx hz => ⟨fun hb hy => ?_, fun hb hy => ⟨?_, ?_⟩,
      fun hb hy => ?_, fun hb hy => ⟨?_, ?_⟩⟩⟩, fun hz hb => ?_, fun hx hy hi => ?_⟩
    · exact completes_of_writes (fun _ => ⟨rfl, rfl⟩) fun _ _ _ t hv => hone true t ▸ vextreme_writes hv hb hz hxe hy
    · exact completes_of_writes (fun _ => ⟨rfl, rfl⟩) fun _ _ _ t hv => hone false t ▸ vextreme_writes hv hb hz hxe hy
    · refine ⟨?_, ?_⟩ <;> exact completes_of_writes (fun _ => ⟨rfl, rfl⟩) fun _ _ _ _ hv =>
        runSearch_writes hv (by rw [okZero_of hb, ok16_of hy]; rfl) hx hxe hz
    · exact completes_of_writes (fun _ => ⟨rfl, rfl⟩) fun _ _ _ t hv =>
        hstart true els t ▸ runSearch_start_writes hv (by rw [hb, ok16_of hy]; rfl) hx hxe hz
    · exact completes_of_writes (fun _ => ⟨rfl, rfl⟩) fun _ _ _ t hv =>
        hstart false els t ▸ runSearch_start_writes hv (by rw [hb, ok16_of hy]; rfl) hx hxe hz
    · refine ⟨?_, ?_⟩ <;> exact completes_of_writes (fun _ => ⟨rfl, rfl⟩) fun _ _ _ _ hv =>
        runSearch_writes hv (by rw [okZero_of hb, ok4_of hy]; rfl) hx hxe hz
    · exact completes_of_writes (fun _ => ⟨rfl, rfl⟩) fun _ _ _ t hv =>
        hstart true accs t ▸ runSearch_start_writes hv (by rw [hb, ok4_of hy]; rfl) hx hxe hz
    · exact completes_of_writes (fun _ => ⟨rfl, rfl⟩) fun _ _ _ t hv =>
        hstart false accs t ▸ runSearch_start_writes hv (by rw [hb, ok4_of hy]; rfl) hx hxe hz
    · exact completes_of_writes (fun _ => ⟨rfl, rfl⟩) fun _ _ _ _ hv =>
        setvl_writes hv (by rw [okZero_of hz, okZero_of hb]; rfl) rfl
    · exact completes_of_writes (fun _ => ⟨rfl, rfl⟩) fun _ _ _ _ hv =>
        setvl_writes hv (by rw [okZero_of hx, okZero_of hy, decide_eq_true hi]; rfl) rfl

end Sys2Proof.Machine
end

section
/-! PROOFS. Vector products and the moves between elements (R180, R184): an answer by words and one by pairs, whatever the
operands are read from. -/

namespace Sys2Proof.Machine
open Sys2Proof Sys2Proof.Laws

section
variable {x : IssueCtx} {ok : Bool} {reads : List WName} {d lat : Nat}

/-- A legal operation that answers the processed words of a V register (R180). -/
theorem wordsOut_writes {e : Nat → Word} (hv : VecReady x.c x.tid) (hok : ok = true) :
    Writes x (vOut x ok reads [vW x.t d e (lat + 1)])
      [(.v d ((List.range x.t.vl.toNat).map (fun n => (n, e n))), lat + 1)] :=
  vOut_writes hv hok rfl

/-- A legal operation that answers the processed pairs of a V register (R180). -/
theorem pairsOut_writes {e : Nat → Word × Word} (hv : VecReady x.c x.tid) (hok : ok = true) :
    Writes x (vOut x ok reads [vP x.t d e (lat + 1)])
      [(.v d ((List.range (x.t.vl.toNat / 2)).flatMap (fun n => [(2 * n, (e n).1), (2 * n + 1, (e n).2)])), lat + 1)] :=
  vOut_writes hv hok rfl

end

/-- Settles O8: products and moves by words or by pairs, and one element written to a D register or to a V register. -/
theorem vectorProductsAndMoves : Obligations.VectorProductsAndMoves := by
  intro f g vd vs vt u words pairs on s z both re im
  refine ⟨fun hb hx => ?_, ?_, fun hb hy => ?_, fun hb hx => ?_⟩
  · have hbx : okZero f.b = true ∧ ok16 f.x = true := ⟨okZero_of hb, ok16_of hx⟩
    refine ⟨fun hy hz => ?_, fun hy hz => ?_, fun hz => ⟨?_, fun he => ?_⟩⟩
    · have hok : (okZero f.b && ok16 f.x && ok16 f.y && ok16 f.z) = true := by simp [hbx, ok16_of hy, ok16_of hz]
      refine ⟨?_, ?_, ?_, ?_, ?_, ?_⟩
      · exact completes_of_writes (fun _ => ⟨rfl, rfl⟩) fun _ _ _ _ ⟨hv, hw⟩ =>
          wordsOut_writes hv (by rw [hok, viewOf_t, hw]; rfl)
      iterate 2 · exact completes_of_writes (fun _ => ⟨rfl, rfl⟩) fun _ _ _ _ hv => pairsOut_writes hv hok
      iterate 3 · exact completes_of_writes (fun _ => ⟨rfl, rfl⟩) fun _ _ _ _ hv => wordsOut_writes hv hok
    · have hok : (okZero f.b && okZero f.z && ok16 f.x && ok16 f.y) = true := by simp [hbx, okZero_of hz, ok16_of hy]
      refine ⟨?_, ?_, ?_⟩ <;>
        exact completes_of_writes (fun _ => ⟨rfl, rfl⟩) fun _ _ _ _ hv => pairsOut_writes hv hok
    · exact completes_of_writes (fun _ => ⟨rfl, rfl⟩) fun _ _ _ _ hv =>
        wordsOut_writes hv (by simp [hbx, okZero_of hz])
    · exact completes_of_writes (fun _ => ⟨rfl, rfl⟩) fun _ _ _ _ hv =>
        pairsOut_writes hv (by simp [hbx, okZero_of hz, okEven_of he])
  · exact completes_of_writes (fun _ => ⟨rfl, rfl⟩) fun _ _ _ _ hv => wordsOut_writes hv rfl
  · exact completes_of_writes (fun _ => ⟨rfl, rfl⟩) fun _ _ _ _ hv =>
      vOut_writes hv (by rw [okZero_of hb, ok16_of hy]; rfl) rfl
  · exact completes_of_writes (fun _ => ⟨rfl, rfl⟩) fun _ _ _ _ hv =>
      vOut_writes hv (by rw [okZero_of hb, ok16_of hx]; rfl) rfl

end Sys2Proof.Machine
end

section
/-! PROOFS. Vector loads and stores of core-local words (R194–R200, R245, R247, R248): where every element lies in X or Y
memory, an access faults nowhere and sends no request, so that its effects are stores and register writes alone. -/

namespace Sys2Proof.Machine
open Sys2Proof Sys2Proof.Laws

/-! ### Answers that store words and write registers -/

/-- The answer `o` to the view `x` raises nothing, and its effects are the stores `ms` and the register writes `ws`. -/
structure Effects (x : IssueCtx) (o : OpOut) (ms : List (Bool × Nat × Word)) (ws : List (RegW × Nat)) : Prop where
  acts : o.acts = stActs ms ++ wrActs ws
  excs : o.excs = []
  power : x.c.vpow = true
  fuse : o.fuse = false
  rep : o.isRep = false
  later : Later ws

/-- An operation with such an answer leaves those stores and writes. -/
theorem exec_of_effects {s : State} {i : Site} {op : Instr} {k : Nat} {c : Core} {t : Thread} {g : IssueCtx → OpOut}
    {ms : List (Bool × Nat × Word)} {ws : List (RegW × Nat)} (hs : siteOf op = some i) (hm : opMeaning op = some (i, g))
    (hq : Quiet s i op k c t) (he : Effects (viewOf i op k c t) (g (viewOf i op k c t)) ms ws) :
    exec op s = .next (issuedWith s i k ws (withStores ms)) := by
  obtain ⟨hacts, hexcs, hpower, hfuse, hrep, hlater⟩ := he
  rw [exec_operation hs, issueOp_writes hq hm ms ws hlater _ rfl hacts hexcs (fun _ => hpower) (by simp [hfuse])
    (by simp [hrep])]

@[simp] theorem later_postWrites (n : Nat) (post : Option AWord) (cb : Bool) : Later (postWrites n post cb) := by
  cases post <;> cases cb <;> simp [postWrites]

theorem postUpdate_eq_wrActs (n : Nat) (post : Option AWord) (cb : Bool) :
    postUpdate n post cb = wrActs (postWrites n post cb) := by
  cases post <;> cases cb <;> rfl

theorem wrSticky_cb (n : Nat) (cb : Bool) : wrSticky .cb cb 1 = wrActs (postWrites n none cb) := by
  cases cb <;> rfl

/-! ### Core-local words -/

/-- The place of a core-local word. -/
def placeOf (sl : ASlot) (a : AWord) : Bool × Nat := (localPlace sl a).getD (false, 0)

/-- The target of an access to it. -/
def localTarget (p : Bool × Nat) : Target := if p.1 then .y p.2 else .x p.2

/-- Every element lies in the core's X or Y memory, as its slot reaches it. -/
def AllLocal (sl : ASlot) (as : List (Nat × AWord)) : Prop := ∀ e ∈ as, (localPlace sl e.2).isSome = true

/-- The elements as their words read them, and the words of Vv as they are stored there. -/
def loadedEls (c : Core) (sl : ASlot) (as : List (Nat × AWord)) : List (Nat × Word) :=
  as.map (fun e => (e.1, localRead c (placeOf sl e.2)))
def storedEls (t : Thread) (sl : ASlot) (v : Nat) (as : List (Nat × AWord)) : List (Bool × Nat × Word) :=
  as.map (fun e => ((placeOf sl e.2).1, (placeOf sl e.2).2, t.rv v e.1))

/-- An access to a core-local word goes to its place (R245, R247). -/
theorem target_local {sl : ASlot} {a : AWord} (h : (localPlace sl a).isSome = true) (x : IssueCtx) (wrt : Bool) :
    target x (isA1 sl) wrt a = localTarget (placeOf sl a) := by
  cases sl with
  | a0 =>
    have ha : a.toNat < 0x10000 := by simpa [localPlace] using h
    simp [target, isA1, placeOf, localPlace, localTarget, ha]
  | a1 =>
    have ha : 0x10000 ≤ a.toNat ∧ a.toNat < 0x20000 := by simpa [localPlace] using h
    have hx : ¬ a.toNat < 0x10000 := by omega
    simp [target, isA1, placeOf, localPlace, localTarget, ha, hx]

/-- The elements with their places as targets. -/
def localTargets (sl : ASlot) (as : List (Nat × AWord)) : List (Nat × AWord × Target) :=
  as.map (fun e => (e.1, e.2, localTarget (placeOf sl e.2)))

theorem targets_local {sl : ASlot} {as : List (Nat × AWord)} (h : AllLocal sl as) (x : IssueCtx) (wrt : Bool) :
    targets x (isA1 sl) wrt as = localTargets sl as :=
  List.map_congr_left fun e he => by rw [target_local (h e he)]

/-! ### Accesses to them -/

theorem localTarget_ne_pageFault (p : Bool × Nat) : localTarget p ≠ .pageFault := by
  obtain ⟨y, a⟩ := p
  cases y <;> simp [localTarget]

@[simp] theorem offsetOf_localTarget (p : Bool × Nat) : offsetOf (localTarget p) = none := by
  obtain ⟨y, a⟩ := p
  cases y <;> rfl

theorem accessFault_local (vec : Bool) (sl : ASlot) (as : List (Nat × AWord)) :
    accessFault vec (localTargets sl as) = [] := by
  have hnone : (localTargets sl as).filter (fun p => p.2.2 == .pageFault) = [] := by
    rw [List.filter_eq_nil_iff]
    intro p hp
    obtain ⟨e, -, rfl⟩ := List.mem_map.1 hp
    simp [localTarget_ne_pageFault]
  rw [accessFault, hnone]
  rfl

theorem untilFault_local (sl : ASlot) (as : List (Nat × AWord)) :
    untilFault (localTargets sl as) = (localTargets sl as, none) := by
  induction as with
  | nil => rfl
  | cons e as ih =>
    simp only [localTargets, List.map_cons] at ih ⊢
    rw [untilFault, if_neg (localTarget_ne_pageFault _), ih]

/-- What is sought of every element of a list, and found of each. -/
theorem filterMap_map_some {α β γ : Type} {f : β → Option γ} {g : α → β} {r : α → γ} (h : ∀ a, f (g a) = some (r a))
    (l : List α) : (l.map g).filterMap f = l.map r := by
  rw [List.filterMap_map, show f ∘ g = some ∘ r from funext h, List.filterMap_eq_map]

/-- A load of a V register brings the words with latency 2 (R66). -/
theorem loadActs_local (c : Core) (sl : ASlot) (as : List (Nat × AWord)) (v : Nat) :
    loadActs c (localTargets sl as) (.v v) = [.wr (.v v (loadedEls c sl as)) 2] := by
  simp only [loadActs, localTargets]
  rw [filterMap_map_some (r := fun e => (e.1, localRead c (placeOf sl e.2)))
    (fun e => by rcases placeOf sl e.2 with ⟨_ | _, a⟩ <;> rfl)]
  simp [loadWrites, loadedEls]

/-- A store writes the words at once (R248). -/
theorem storeActs_local (a1 : Bool) (t : Thread) (sl : ASlot) (v : Nat) (as : List (Nat × AWord)) :
    storeActs a1 ((localTargets sl as).map (fun p => (p.2.2, t.rv v p.1))) = stActs (storedEls t sl v as) := by
  simp only [storeActs, localTargets, List.map_map, Function.comp_def]
  rw [filterMap_map_some (r := fun e => .store (placeOf sl e.2).1 (placeOf sl e.2).2 (t.rv v e.1))
    (fun e => by rcases placeOf sl e.2 with ⟨_ | _, a⟩ <;> rfl)]
  simp [stActs, storedEls]

/-! ### The answers -/

section
variable {x : IssueCtx} {sl : ASlot} {as : List (Nat × AWord)} {v n : Nat} {post : Option AWord} {cb ok : Bool}
  {ss : List SlotK}

theorem ok16_vecLevel {r : BitVec 5} (hv : VecReady x.c x.tid) (hx : r.toNat < 16) : (ok16 r && x.vecLevel) = true := by
  rw [ok16_of hx, vecLevel_of hv.1]; rfl

/-- A legal vector load of core-local words. -/
theorem loadOut_effects (hp : x.c.vpow = true) (ha : AllLocal sl as) (hok : ok = true) :
    Effects x (whenLegal ok ss (loadOut x sl as (.v v) n post cb true)) []
      ((.v v (loadedEls x.c sl as), 2) :: postWrites n post cb) := by
  subst hok
  refine ⟨?_, ?_, hp, rfl, rfl, by simp⟩
  · rw [whenLegal_true, loadOut, targets_local ha, loadActs_local, postUpdate_eq_wrActs]; rfl
  · rw [whenLegal_true, loadOut, targets_local ha, accessFault_local]

/-- A legal vector store to core-local words. -/
theorem storeOut_effects {reads : List WName} (hp : x.c.vpow = true) (ha : AllLocal sl as) (hok : ok = true) :
    Effects x (whenLegal ok ss (storeOut x sl as (vecWords x.t v as) reads n post cb true)) (storedEls x.t sl v as)
      (postWrites n post cb) := by
  have hzip : ((localTargets sl as).map (fun p => p.2.2)).zip (vecWords x.t v as) =
      (localTargets sl as).map (fun p => (p.2.2, x.t.rv v p.1)) := by
    simp [localTargets, vecWords, List.zip_map', Function.comp_def]
  subst hok
  refine ⟨?_, ?_, hp, rfl, rfl, by simp⟩
  · rw [whenLegal_true, storeOut, targets_local ha, hzip, storeActs_local, postUpdate_eq_wrActs]
  · rw [whenLegal_true, storeOut, targets_local ha, accessFault_local]

/-- A load of successive words takes the post-update of its mode (R194). -/
theorem opVld_effects {i : Site} {f : AMF} {ea : AWord} {out : Bool} (hv : VecReady x.c x.tid) (hx : f.x.toNat < 16)
    (hm : vecMode x.t f = some (ea, post, cb)) (has : vecAddrs x.t f.an.toNat 0 (fun k => k) = (as, out))
    (ha : AllLocal f.slot as) :
    Effects x (opVld i f x) [] ((.v f.x.toNat (loadedEls x.c f.slot as), 2) :: postWrites f.an.toNat post (cb || out)) := by
  rw [opVld, hm, has]
  exact loadOut_effects hv.2 ha (ok16_vecLevel hv hx)

/-- A store of successive words takes the post-update of its mode (R194). -/
theorem opVst_effects {i : Site} {f : AMF} {ea : AWord} {out : Bool} (hv : VecReady x.c x.tid) (hx : f.x.toNat < 16)
    (hm : vecMode x.t f = some (ea, post, cb)) (has : vecAddrs x.t f.an.toNat 0 (fun k => k) = (as, out))
    (ha : AllLocal f.slot as) :
    Effects x (opVst i f x) (storedEls x.t f.slot f.x.toNat as) (postWrites f.an.toNat post (cb || out)) := by
  rw [opVst, hm, has]
  exact storeOut_effects hv.2 ha (ok16_vecLevel hv hx)

/-- A gather of core-local words takes every element and clears VSTART (R197). -/
theorem opVldx_effects {i : Site} {g : AXF} (hv : VecReady x.c x.tid) (hx : g.x.toNat < 16)
    (has : vecAddrs x.t g.an.toNat x.t.vstart.toNat (fun k => (x.t.rv g.vt.toNat k).toNat) = (as, cb))
    (ha : AllLocal g.slot as) :
    Effects x (opVldx i g x) []
      ((.v g.x.toNat (loadedEls x.c g.slot as), 2) :: (.vstart 0, 1) :: postWrites g.an.toNat none cb) := by
  simp only [opVldx, ok16_vecLevel hv hx, whenLegal_true, has, targets_local ha, untilFault_local, loadActs_local,
    wrSticky_cb g.an.toNat]
  exact ⟨rfl, rfl, hv.2, rfl, rfl, by simp⟩

/-- A scatter to core-local words takes every element and clears VSTART (R197). -/
theorem opVstx_effects {i : Site} {g : AXF} (hv : VecReady x.c x.tid) (hx : g.x.toNat < 16)
    (has : vecAddrs x.t g.an.toNat x.t.vstart.toNat (fun k => (x.t.rv g.vt.toNat k).toNat) = (as, cb))
    (ha : AllLocal g.slot as) :
    Effects x (opVstx i g x) (storedEls x.t g.slot g.x.toNat as) ((.vstart 0, 1) :: postWrites g.an.toNat none cb) := by
  simp only [opVstx, ok16_vecLevel hv hx, whenLegal_true, has, targets_local ha, untilFault_local, storeActs_local,
    wrSticky_cb g.an.toNat]
  exact ⟨by simp, rfl, hv.2, rfl, rfl, by simp⟩

end

/-- Settles O14: each load and store by its answer where every element is core-local. -/
theorem localVectorLoadsAndStores : Obligations.LocalVectorLoadsAndStores := by
  unfold Obligations.LocalVectorLoadsAndStores
  intro f g s i k c t ea post cb hv place at_ loaded stored seqA strA idxA
  refine ⟨fun hx hmode ha => ⟨fun hq => ?_, fun hq => ?_⟩, fun hx ham ha => ⟨fun hq => ?_, fun hq => ?_⟩,
    fun hx ha => ⟨fun hq => ?_, fun hq => ?_⟩⟩
  · exact exec_of_effects rfl rfl hq (opVld_effects hv hx hmode rfl ha)
  · exact exec_of_effects rfl rfl hq (opVst_effects hv hx hmode rfl ha)
  · exact exec_of_effects rfl rfl hq (loadOut_effects hv.2 ha (by rw [okZero_of ham, Bool.true_and, ok16_vecLevel hv hx]))
  · exact exec_of_effects rfl rfl hq (storeOut_effects hv.2 ha (by rw [okZero_of ham, Bool.true_and, ok16_vecLevel hv hx]))
  · exact exec_of_effects rfl rfl hq (opVldx_effects hv hx rfl ha)
  · exact exec_of_effects rfl rfl hq (opVstx_effects hv hx rfl ha)

end Sys2Proof.Machine
end

section
/-! PROOFS. Floating point (R205–R212, R215–R217, R219): F-slot operations that write registers alone, where the F file holds
the level's F state; the result with its FSTAT flags has one form for all of them. -/

namespace Sys2Proof.Machine
open Sys2Proof Sys2Proof.Laws

/-! ### Answers of the F slot -/

/-- The answer `o` of an F-slot operation raises nothing, and its effects are the register writes `ws` alone. -/
structure FWrites (o : OpOut) (ws : List (RegW × Nat)) : Prop where
  acts : o.acts = wrActs ws
  excs : o.excs = []
  vec : o.vec = false
  rep : o.isRep = false
  later : Later ws

/-- An F operation with such answers completes where the F file is ready for its level (R136). -/
theorem completes_of_fWrites {op : Site → Instr} {g : Site → IssueCtx → OpOut} {ws : Core → Nat → Thread → List (RegW × Nat)}
    (ha : Answers op g) (h : ∀ i k c t, FWrites (g i (viewOf i (op i) k c t)) (ws c k t)) : Completes op FReady ws := by
  intro s i k c t hq hF
  obtain ⟨hacts, hexcs, hvec, hrep, hlater⟩ := h i k c t
  rw [exec_operation (ha i).1, issueOp_landing hq (ha i).2 _ hlater _ rfl hacts hexcs (by simp [hvec]) (fun _ => hF)
    (by simp [hrep])]

/-- A legal operation of the F slot that sets no flag of FSTAT. -/
theorem fOut_writes {ok : Bool} {reads : List WName} {acts : List Act} {ws : List (RegW × Nat)} (hok : ok = true)
    (hacts : acts = wrActs ws) (hlater : Later ws := by simp) : FWrites (fOut ok reads acts) ws := by
  subst hok hacts
  exact ⟨rfl, rfl, rfl, rfl, hlater⟩

/-- The mark of a writer of STAT flags changes nothing of that. -/
theorem FWrites.writesStat {o : OpOut} {ws : List (RegW × Nat)} (h : FWrites o ws) : FWrites { o with wflags := true } ws := by
  obtain ⟨hacts, hexcs, hvec, hrep, hlater⟩ := h
  exact ⟨hacts, hexcs, hvec, hrep, hlater⟩

/-! ### Results with their flags -/

/-- The F registers of an operation's view are those of the statements (R103, R139). -/
@[simp] theorem viewOf_rf (i : Site) (op : Instr) (k : Nat) (c : Core) (t : Thread) (n : Nat) :
    (viewOf i op k c t).rf n = fRead c t n := by
  unfold IssueCtx.rf fRead
  cases hk : c.kind <;> simp [viewOf, hk]

section
variable {i : Site} {op : Instr} {k : Nat} {c : Core} {t : Thread} {f : R3}

/-- The FSTAT flags of a result land together, with the record of a trap (R215–R217). -/
theorem fFlagActs_eq (r : FOut) (opc dst : Nat) (a b d : DWord) (lat : Nat) :
    (fFlagW t r (fRecord (viewOf i op k c t) opc dst a b d)).map (fun w => Act.wr w lat) =
      wrActs ((fFlagWrites c k t r opc dst a b d).map (fun w => (w, lat))) := by
  simp [fFlagW_eq, wrActs]

/-- A legal operation of the F slot writes its result, whatever registers that goes to, and the flags that go with it. -/
theorem fFlagOut_writes {ok : Bool} {reads : List WName} {acts : List Act} {ws : List (RegW × Nat)} {r : FOut}
    {opc dst : Nat} {a b d : DWord} {lat : Nat} (hok : ok = true) (hacts : acts = wrActs ws) (hlater : Later ws := by simp) :
    FWrites
      (fFlagOut ok reads
        (acts ++ (fFlagW t r (fRecord (viewOf i op k c t) opc dst a b d)).map (fun w => .wr w (lat + 1))))
      (ws ++ (fFlagWrites c k t r opc dst a b d).map (fun w => (w, lat + 1))) := by
  subst hok hacts
  exact ⟨by rw [wrActs_append, ← fFlagActs_eq]; rfl, rfl, rfl, rfl, (later_append ..).2 ⟨hlater, by simp [Later]⟩⟩

/-- A legal operation whose result goes to an F register. -/
theorem fRes_writes {ok : Bool} {reads : List WName} {n : Nat} {r : FOut} {opc : Nat} {a b d : DWord} {lat : Nat}
    (hok : ok = true) :
    FWrites
      (fFlagOut ok reads (fRes (viewOf i op k c t) n r (fRecord (viewOf i op k c t) opc n a b d) (lat + 1)))
      ((.f n r.val, lat + 1) :: (fFlagWrites c k t r opc n a b d).map (fun w => (w, lat + 1))) :=
  fFlagOut_writes (ws := [(.f n r.val, lat + 1)]) hok rfl

theorem f3_writes {opc lat : Nat} {r : DWord → DWord → FOut} (hb : f.b = 0) (hx : f.x.toNat < 16) (hy : f.y.toNat < 16)
    (hz : f.z.toNat < 16) :
    let a := fRead c t f.y.toNat
    let b := fRead c t f.z.toNat
    FWrites (f3 f (viewOf i op k c t) opc (lat + 1) r) ((.f f.x.toNat (r a b).val, lat + 1) ::
      (fFlagWrites c k t (r a b) opc f.x.toNat a b 0).map (fun w => (w, lat + 1))) := by
  simp only [f3, viewOf_rf]
  exact fRes_writes (by rw [okZero_of hb, ok16_of hx, ok16_of hy, ok16_of hz]; rfl)

theorem fcmpOut_writes {quiet : Bool} (hb : f.b = 0) (hx : f.x = 0) (hy : f.y.toNat < 16) (hz : f.z.toNat < 16) :
    let a := fRead c t f.y.toNat
    let b := fRead c t f.z.toNat
    let r := fCompare quiet a b
    FWrites (fcmpOut quiet f (viewOf i op k c t)) (flagsTo [(.n, r.1.1), (.z, r.1.2.1), (.c, r.1.2.2.1), (.v, r.1.2.2.2)] 1 ++
      (fFlagWrites c k t r.2 11 0 a b 0).map (fun w => (w, 1))) := by
  simp only [fcmpOut, viewOf_rf]
  exact .writesStat (fFlagOut_writes (ws := flagsTo _ 1) (by rw [okZero_of hx, okZero_of hb, ok16_of hy, ok16_of hz]; rfl) rfl)

theorem fBits_writes {e : DWord → DWord} (hb : f.b = 0) (hz : f.z = 0) (hx : f.x.toNat < 16) (hy : f.y.toNat < 16) :
    FWrites (fBits f (viewOf i op k c t) e) [(.f f.x.toNat (e (fRead c t f.y.toNat)), 1)] := by
  rw [fBits, viewOf_rf]
  exact fOut_writes (by rw [okZero_of hb, okZero_of hz, ok16_of hx, ok16_of hy]; rfl) rfl

end

/-- Settles O11: results of two operands have one form, FMA reads its destination too, and the compares write STAT. -/
theorem floatArithmetic : Obligations.FloatArithmetic := by
  intro f hb hy hz a b d flags res cmp
  refine ⟨fun hx => ⟨?_, ?_, ?_, ?_, ?_, ?_⟩, fun hx => ⟨?_, ?_⟩⟩
  iterate 3 · exact completes_of_fWrites (fun _ => ⟨rfl, rfl⟩) fun _ _ _ _ => f3_writes hb hx hy hz
  · refine completes_of_fWrites (fun _ => ⟨rfl, rfl⟩) fun _ _ _ _ => ?_
    simp only [opFma, viewOf_rf]
    exact fRes_writes (by rw [okZero_of hb, ok16_of hx, ok16_of hy, ok16_of hz]; rfl)
  iterate 2 · exact completes_of_fWrites (fun _ => ⟨rfl, rfl⟩) fun _ _ _ _ => f3_writes hb hx hy hz
  iterate 2 · exact completes_of_fWrites (fun _ => ⟨rfl, rfl⟩) fun _ _ _ _ => fcmpOut_writes hb hx hy hz

/-- Settles O12: conversions to F registers and from them, moves of bit groups, and FBAR. -/
theorem floatConversionsAndMoves : Obligations.FloatConversionsAndMoves := by
  intro f g flags s
  refine ⟨fun hb => ⟨fun hx => ?_, fun hx hy => ?_, fun hy => ?_, fun hy hx => ?_⟩,
    fun hb hz => ⟨fun hx hy => ⟨?_, ?_, ?_⟩, fun hx hy => ?_, fun hx hy => ?_, fun hy => ?_⟩, ?_⟩
  · exact completes_of_fWrites (fun _ => ⟨rfl, rfl⟩) fun _ _ _ _ =>
      fRes_writes (by rw [okZero_of hb, ok16_of hx]; rfl)
  · exact completes_of_fWrites (fun _ => ⟨rfl, rfl⟩) fun _ _ _ _ =>
      fRes_writes (by rw [okZero_of hb, ok16_of hx, okEven_of hy]; rfl)
  · refine completes_of_fWrites (fun _ => ⟨rfl, rfl⟩) fun _ _ _ _ => ?_
    simp only [opFcvtDF, viewOf_rf]
    exact fFlagOut_writes (ws := [dTo _ _ _ 3]) (by rw [okZero_of hb, ok16_of hy]; rfl) rfl
  · refine completes_of_fWrites (fun _ => ⟨rfl, rfl⟩) fun _ _ _ _ => ?_
    simp only [opFcvtDDF, viewOf_rf]
    exact fFlagOut_writes (ws := pairTo _ _ _ 3) (by rw [okZero_of hb, ok16_of hy, okEven_of hx]; rfl) rfl
  iterate 3 · exact completes_of_fWrites (fun _ => ⟨rfl, rfl⟩) fun _ _ _ _ => fBits_writes hb hz hx hy
  · exact completes_of_fWrites (fun _ => ⟨rfl, rfl⟩) fun _ _ _ _ =>
      fOut_writes (by rw [okZero_of hb, okZero_of hz, ok16_of hx, okEven_of hy]; rfl) rfl
  · refine completes_of_fWrites (fun _ => ⟨rfl, rfl⟩) fun _ _ _ _ => ?_
    rw [opFmvd, viewOf_rf]
    exact fOut_writes (by rw [okZero_of hb, okZero_of hz, okEven_of hx, ok16_of hy]; rfl) rfl
  · refine completes_of_fWrites (fun _ => ⟨rfl, rfl⟩) fun _ _ _ _ => ?_
    rw [opFkind, viewOf_rf]
    exact fOut_writes (by rw [okZero_of hb, okZero_of hz, ok16_of hy]; rfl) rfl
  · exact completes_of_fWrites (fun _ => ⟨rfl, rfl⟩) fun _ _ _ _ => ⟨rfl, rfl, rfl, rfl, by simp⟩

end Sys2Proof.Machine
end

section
/-! PROOFS. The encoding of long operations (R222–R230, R240): each format of R223 gives back what was written in it, and each
cell of the opcode map reads the format in which its operation is written. -/

namespace Sys2Proof.Encoding
open Sys2Proof

/-! ### Fields of a word -/

/-- The fields of a word, from the highest to the lowest. -/
abbrev Fields := List (Σ n, BitVec n)

def width : Fields → Nat
  | [] => 0
  | f :: fs => f.1 + width fs

/-- The fields as a number. -/
def word : Fields → Nat
  | [] => 0
  | f :: fs => f.2.toNat * 2 ^ width fs + word fs

theorem word_lt (fs : Fields) : word fs < 2 ^ width fs := by
  induction fs with
  | nil => simp [word, width]
  | cons f fs ih =>
    calc f.2.toNat * 2 ^ width fs + word fs
      _ < (f.2.toNat + 1) * 2 ^ width fs := by rw [Nat.succ_mul]; exact Nat.add_lt_add_left ih _
      _ ≤ 2 ^ f.1 * 2 ^ width fs := Nat.mul_le_mul_right _ f.2.isLt
      _ = 2 ^ width (f :: fs) := (Nat.pow_add ..).symm

/-- Field `k` of the word `w` is that of the list; bits above the list's are any. -/
def Holds (w : Nat) (fs : Fields) : Prop :=
  ∀ k, fieldAt (fs.getD k ⟨0, 0⟩).1 w (width (fs.drop (k + 1))) = (fs.getD k ⟨0, 0⟩).2

theorem holds_word (h : Nat) (fs : Fields) : Holds (h * 2 ^ width fs + word fs) fs := by
  induction fs generalizing h with
  | nil => exact fun _ => BitVec.eq_of_toNat_eq (by simp [fieldAt, Nat.mod_one])
  | cons f fs ih =>
    have hsplit : h * 2 ^ width (f :: fs) + word (f :: fs) = (h * 2 ^ f.1 + f.2.toNat) * 2 ^ width fs + word fs := by
      simp only [width, word, Nat.pow_add]; ring
    rw [hsplit]
    rintro (_ | k)
    · refine BitVec.eq_of_toNat_eq ?_
      show ((_ * 2 ^ width fs + word fs) / 2 ^ width fs) % 2 ^ f.1 = f.2.toNat
      rw [Nat.mul_comm _ (2 ^ width fs), Nat.mul_add_div (Nat.two_pow_pos _), Nat.div_eq_of_lt (word_lt fs), Nat.add_zero,
        Nat.mul_comm, Nat.mul_add_mod, Nat.mod_eq_of_lt f.2.isLt]
    · exact ih _ k

section
variable {n w lo : Nat}

theorem anyBits_of_field {hi : Nat} (h : fieldAt n w lo = 0) (hn : hi + 1 - lo = n) : anyBits w lo hi = false := by
  have hz : w / 2 ^ lo % 2 ^ n = 0 := by simpa [fieldAt] using congrArg BitVec.toNat h
  simp [anyBits, hn, hz]

theorem bit_of_field {b : Bool} (h : fieldAt 1 w lo = BitVec.ofBool b) : decide (w / 2 ^ lo % 2 = 1) = b := by
  have hb : w / 2 ^ lo % 2 = b.toNat := by simpa [fieldAt] using congrArg BitVec.toNat h
  rw [hb]; cases b <;> rfl

end

/-- The high bits of an immediate that continues in OPC. -/
def highBits (n m : Nat) (v : BitVec (n + m)) : BitVec n := .ofNat n (v.toNat / 2 ^ m)

theorem highBits_toNat (n m : Nat) (v : BitVec (n + m)) : (highBits n m v).toNat = v.toNat / 2 ^ m :=
  Nat.mod_eq_of_lt (Nat.div_lt_of_lt_mul (by rw [Nat.mul_comm, ← Nat.pow_add]; exact v.isLt))

/-- Such an immediate is read from its two parts. -/
theorem parts_of_fields {n m w : Nat} {v : BitVec (n + m)} (hhi : fieldAt n w 17 = highBits n m v)
    (hlo : fieldAt m w 0 = .ofNat m v.toNat) : BitVec.ofNat (n + m) (w / 2 ^ 17 % 2 ^ n * 2 ^ m + w % 2 ^ m) = v := by
  have hh : w / 2 ^ 17 % 2 ^ n = v.toNat / 2 ^ m := by
    rw [← highBits_toNat, ← hhi, fieldAt, BitVec.toNat_ofNat]
  have hl : w % 2 ^ m = v.toNat % 2 ^ m := by simpa [fieldAt] using congrArg BitVec.toNat hlo
  rw [hh, hl, Nat.div_add_mod', BitVec.ofNat_toNat, BitVec.setWidth_eq]

theorem bitNat_eq (b : Bool) : bitNat b = (BitVec.ofBool b).toNat := by cases b <;> rfl

theorem mark_unset {i : Site} (hi : i.rsv = false) : i.mark false = i := by
  rw [Site.mark, ← hi]

/-! ### Formats (R223) -/

/-- A format: the operands that are read of a syllable, and whether a bit is 1 that holds none. -/
structure Format (F : Type) where
  read : Nat → F
  rest : Nat → Bool

/-- The operand field `fld` of opcode `opc` spells the operands `f`, in any class, and sets no other bit. -/
structure Format.Spells {F : Type} (m : Format F) (opc fld : Nat) (f : F) : Prop where
  lt : fld < 2 ^ 17
  read (cls : Nat) : m.read (packLong cls opc fld) = f
  rest (cls : Nat) : m.rest (packLong cls opc fld) = false

namespace Format

def r3 : Format R3 := ⟨readR3, fun _ => false⟩
def ri6 : Format RI6 := ⟨readRI6, (anyBits · 0 0)⟩
def ri5 : Format RI5 := ⟨readRI5, fun _ => false⟩
def ri8 : Format (BitVec 5 × BitVec 5 × BitVec 8) :=
  ⟨fun w => (fieldAt 5 w 12, fieldAt 5 w 7, readI8 w), fun _ => false⟩
def ci8 : Format (BitVec 5 × BitVec 8) := ⟨fun w => (fieldAt 5 w 12, fieldAt 8 w 0), (anyBits · 8 11)⟩
def wi : Format (BitVec 5 × Word) := ⟨fun w => (fieldAt 5 w 12, readI14 w), fun _ => false⟩
def ms : Format (BitVec 5 × BitVec 8 × Bool) :=
  ⟨fun w => (fieldAt 5 w 12, fieldAt 8 w 4, decide (w / 8 % 2 = 1)), (anyBits · 0 2)⟩
def vs : Format (BitVec 4 × BitVec 4 × BitVec 4 × BitVec 5) :=
  ⟨fun w => (fieldAt 4 w 13, fieldAt 4 w 9, fieldAt 4 w 5, fieldAt 5 w 0), fun _ => false⟩
def am (sl : ASlot) : Format AMF := ⟨readAM sl, (anyBits · 0 1)⟩
def ax (sl : ASlot) : Format AXF := ⟨readAX sl, (anyBits · 0 3)⟩
def ai : Format (BitVec 4 × BitVec 12) := ⟨fun w => (fieldAt 4 w 13, fieldAt 12 w 1), (anyBits · 0 0)⟩
def ar : Format (BitVec 6 × BitVec 6) := ⟨fun w => (fieldAt 6 w 11, fieldAt 6 w 5), (anyBits · 0 4)⟩
def ak : Format (BitVec 6 × BitVec 12) := ⟨fun w => (fieldAt 6 w 11, readU12 w), fun _ => false⟩
def cb : Format (BitVec 4 × Bool × BitVec 12) :=
  ⟨fun w => (fieldAt 4 w 13, decide (w / 2 ^ 12 % 2 = 1), fieldAt 12 w 0), fun _ => false⟩
def cj : Format (Bool × IAddr) := ⟨fun w => (decide (w / 2 ^ 16 % 2 = 1), fieldAt 14 w 0), (anyBits · 14 15)⟩
def cr : Format (Bool × BitVec 4) := ⟨fun w => (decide (w / 2 ^ 16 % 2 = 1), fieldAt 4 w 0), (anyBits · 4 15)⟩
def ca : Format Bool := ⟨fun w => decide (w / 2 ^ 16 % 2 = 1), (anyBits · 0 15)⟩
def li : Format (BitVec 10 × BitVec 9) := ⟨fun w => (fieldAt 10 w 9, fieldAt 9 w 0), fun _ => false⟩
def lr : Format (BitVec 5 × BitVec 12) := ⟨fun w => (fieldAt 5 w 12, fieldAt 12 w 0), fun _ => false⟩
def rp : Format (BitVec 10 × Bool) := ⟨fun w => (fieldAt 10 w 7, decide (w / 64 % 2 = 1)), (anyBits · 0 5)⟩
def rr : Format (BitVec 5 × Bool) :=
  ⟨fun w => (fieldAt 5 w 12, decide (w / 64 % 2 = 1)), fun w => anyBits w 7 11 || anyBits w 0 5⟩
def ct : Format (BitVec 5 × BitVec 6) := ⟨fun w => (fieldAt 5 w 12, fieldAt 6 w 0), (anyBits · 6 11)⟩
/-- Format CT where it names a context or a SIGNAL's code alone. -/
def ctCode : Format (BitVec 6) := ⟨fun w => fieldAt 6 w 0, (anyBits · 6 16)⟩
/-- The one operand bit of BARP. -/
def bit : Format Bool := ⟨fun w => decide (w % 2 = 1), (anyBits · 1 16)⟩
def n : Format Unit := ⟨fun _ => (), (anyBits · 0 16)⟩

end Format

/-! ### Every format gives back what was written in it -/

section
variable {F : Type} {m : Format F} {opc fld : Nat} {f : F}

/-- A format whose lowest fields, with the low bits of OPC, are these. -/
theorem Format.spells_of_pack (fs : Fields) (hlt : fld < 2 ^ 17)
    (hpack : ∀ cls, ∃ h, packLong cls opc fld = h * 2 ^ width fs + word fs) (hread : ∀ w, Holds w fs → m.read w = f)
    (hrest : ∀ w, Holds w fs → m.rest w = false) : m.Spells opc fld f := by
  have hholds (cls : Nat) : Holds (packLong cls opc fld) fs := by
    obtain ⟨h, hw⟩ := hpack cls
    rw [hw]
    exact holds_word h fs
  exact ⟨hlt, fun cls => hread _ (hholds cls), fun cls => hrest _ (hholds cls)⟩

/-- A format whose fields fill the operand field. -/
theorem Format.spells_of_fields (fs : Fields) (hfs : width fs = 17) (hfld : fld = word fs)
    (hread : ∀ w, Holds w fs → m.read w = f) (hrest : ∀ w, Holds w fs → m.rest w = false) : m.Spells opc fld f :=
  spells_of_pack fs (by rw [hfld, ← hfs]; exact word_lt fs)
    (fun cls => ⟨cls * 64 + opc, by rw [packLong, hfld, hfs]; ring⟩) hread hrest

/-- A format whose fields fill the operand field, behind the high bits of an immediate in the low bits of OPC. -/
theorem Format.spells_of_continued {o k : Nat} (c : Nat) (hi : BitVec k) (fs : Fields) (hk : c * 2 ^ k = 64)
    (hfs : width fs = 17) (hopc : opc = o * 2 ^ k + hi.toNat) (hfld : fld = word fs)
    (hread : ∀ w, Holds w (⟨k, hi⟩ :: fs) → m.read w = f) (hrest : ∀ w, Holds w (⟨k, hi⟩ :: fs) → m.rest w = false) :
    m.Spells opc fld f := by
  refine spells_of_pack (⟨k, hi⟩ :: fs) (by rw [hfld, ← hfs]; exact word_lt fs) (fun cls => ⟨cls * c + o, ?_⟩) hread hrest
  have hcls : cls * 2 ^ 23 = cls * (c * 2 ^ k) * 2 ^ 17 := by rw [hk]; ring
  rw [packLong, hcls, hopc, hfld, word, width, hfs]
  ring

end

section
variable (opc : Nat)

theorem spells_r3 (f : R3) : Format.r3.Spells opc (writeR3 f) f :=
  Format.spells_of_fields [⟨5, f.x⟩, ⟨5, f.y⟩, ⟨5, f.z⟩, ⟨2, f.b⟩] rfl (by simp [word, width, writeR3, Nat.add_assoc])
    (fun _ h => congr (congr (congr (congrArg R3.mk (h 0)) (h 1)) (h 2)) (h 3)) fun _ _ => rfl

theorem spells_ri6 (f : RI6) : Format.ri6.Spells opc (writeRI6 f) f :=
  Format.spells_of_fields [⟨5, f.x⟩, ⟨5, f.y⟩, ⟨6, f.i⟩, ⟨1, 0⟩] rfl (by simp [word, width, writeRI6, Nat.add_assoc])
    (fun _ h => congr (congr (congrArg RI6.mk (h 0)) (h 1)) (h 2)) fun _ h => anyBits_of_field (h 3) rfl

theorem spells_ri5 (f : RI5) : Format.ri5.Spells opc (writeRI5 f) f :=
  Format.spells_of_fields [⟨5, f.x⟩, ⟨5, f.y⟩, ⟨5, f.u⟩, ⟨2, f.b⟩] rfl (by simp [word, width, writeRI5, Nat.add_assoc])
    (fun _ h => congr (congr (congr (congrArg RI5.mk (h 0)) (h 1)) (h 2)) (h 3)) fun _ _ => rfl

theorem spells_am (f : AMF) : (Format.am f.slot).Spells opc (writeAM f) f :=
  Format.spells_of_fields [⟨5, f.x⟩, ⟨4, f.an⟩, ⟨3, f.am⟩, ⟨3, f.mm⟩, ⟨2, 0⟩] rfl
    (by simp [word, width, writeAM, Nat.add_assoc])
    (fun _ h => congr (congr (congr (congrArg (AMF.mk f.slot) (h 0)) (h 1)) (h 2)) (h 3))
    fun _ h => anyBits_of_field (h 4) rfl

theorem spells_ax (f : AXF) : (Format.ax f.slot).Spells opc (writeAX f) f :=
  Format.spells_of_fields [⟨5, f.x⟩, ⟨4, f.an⟩, ⟨4, f.vt⟩, ⟨4, 0⟩] rfl (by simp [word, width, writeAX, Nat.add_assoc])
    (fun _ h => congr (congr (congrArg (AXF.mk f.slot) (h 0)) (h 1)) (h 2)) fun _ h => anyBits_of_field (h 3) rfl

theorem spells_ci8 (x : BitVec 5) (v : BitVec 8) : Format.ci8.Spells opc (x.toNat * 2 ^ 12 + v.toNat) (x, v) :=
  Format.spells_of_fields [⟨5, x⟩, ⟨4, 0⟩, ⟨8, v⟩] rfl (by simp [word, width])
    (fun _ h => congrArg₂ Prod.mk (h 0) (h 2)) fun _ h => anyBits_of_field (h 1) rfl

theorem spells_ms (x : BitVec 5) (sys : BitVec 8) (dir : Bool) :
    Format.ms.Spells opc (x.toNat * 2 ^ 12 + sys.toNat * 16 + bitNat dir * 8) (x, sys, dir) :=
  Format.spells_of_fields [⟨5, x⟩, ⟨8, sys⟩, ⟨1, .ofBool dir⟩, ⟨3, 0⟩] rfl (by simp [word, width, bitNat_eq, Nat.add_assoc])
    (fun _ h => congrArg₂ Prod.mk (h 0) (congrArg₂ Prod.mk (h 1) (bit_of_field (h 2))))
    fun _ h => anyBits_of_field (h 3) rfl

theorem spells_vs (d s t : BitVec 4) (u : BitVec 5) :
    Format.vs.Spells opc (d.toNat * 2 ^ 13 + s.toNat * 2 ^ 9 + t.toNat * 32 + u.toNat) (d, s, t, u) :=
  Format.spells_of_fields [⟨4, d⟩, ⟨4, s⟩, ⟨4, t⟩, ⟨5, u⟩] rfl (by simp [word, width, Nat.add_assoc])
    (fun _ h => congrArg₂ Prod.mk (h 0) (congrArg₂ Prod.mk (h 1) (congrArg₂ Prod.mk (h 2) (h 3)))) fun _ _ => rfl

theorem spells_ai (an : BitVec 4) (v : BitVec 12) : Format.ai.Spells opc (an.toNat * 2 ^ 13 + v.toNat * 2) (an, v) :=
  Format.spells_of_fields [⟨4, an⟩, ⟨12, v⟩, ⟨1, 0⟩] rfl (by simp [word, width])
    (fun _ h => congrArg₂ Prod.mk (h 0) (h 1)) fun _ h => anyBits_of_field (h 2) rfl

theorem spells_ar (rd rs : BitVec 6) : Format.ar.Spells opc (rd.toNat * 2 ^ 11 + rs.toNat * 32) (rd, rs) :=
  Format.spells_of_fields [⟨6, rd⟩, ⟨6, rs⟩, ⟨5, 0⟩] rfl (by simp [word, width])
    (fun _ h => congrArg₂ Prod.mk (h 0) (h 1)) fun _ h => anyBits_of_field (h 2) rfl

theorem spells_cb (cc : BitVec 4) (a : Bool) (d : BitVec 12) :
    Format.cb.Spells opc (cc.toNat * 2 ^ 13 + bitNat a * 2 ^ 12 + d.toNat) (cc, a, d) :=
  Format.spells_of_fields [⟨4, cc⟩, ⟨1, .ofBool a⟩, ⟨12, d⟩] rfl (by simp [word, width, bitNat_eq, Nat.add_assoc])
    (fun _ h => congrArg₂ Prod.mk (h 0) (congrArg₂ Prod.mk (bit_of_field (h 1)) (h 2))) fun _ _ => rfl

theorem spells_cj (a : Bool) (d : IAddr) : Format.cj.Spells opc (bitNat a * 2 ^ 16 + d.toNat) (a, d) :=
  Format.spells_of_fields [⟨1, .ofBool a⟩, ⟨2, 0⟩, ⟨14, d⟩] rfl (by simp [word, width, bitNat_eq])
    (fun _ h => congrArg₂ Prod.mk (bit_of_field (h 0)) (h 2)) fun _ h => anyBits_of_field (h 1) rfl

theorem spells_cr (a : Bool) (an : BitVec 4) : Format.cr.Spells opc (bitNat a * 2 ^ 16 + an.toNat) (a, an) :=
  Format.spells_of_fields [⟨1, .ofBool a⟩, ⟨12, 0⟩, ⟨4, an⟩] rfl (by simp [word, width, bitNat_eq])
    (fun _ h => congrArg₂ Prod.mk (bit_of_field (h 0)) (h 2)) fun _ h => anyBits_of_field (h 1) rfl

theorem spells_ca (a : Bool) : Format.ca.Spells opc (bitNat a * 2 ^ 16) a :=
  Format.spells_of_fields [⟨1, .ofBool a⟩, ⟨16, 0⟩] rfl (by simp [word, width, bitNat_eq])
    (fun _ h => bit_of_field (h 0)) fun _ h => anyBits_of_field (h 1) rfl

theorem spells_lr (ds : BitVec 5) (d : BitVec 12) : Format.lr.Spells opc (ds.toNat * 2 ^ 12 + d.toNat) (ds, d) :=
  Format.spells_of_fields [⟨5, ds⟩, ⟨12, d⟩] rfl (by simp [word, width])
    (fun _ h => congrArg₂ Prod.mk (h 0) (h 1)) fun _ _ => rfl

theorem spells_rp (c : BitVec 10) (r : Bool) : Format.rp.Spells opc (c.toNat * 2 ^ 7 + bitNat r * 64) (c, r) :=
  Format.spells_of_fields [⟨10, c⟩, ⟨1, .ofBool r⟩, ⟨6, 0⟩] rfl (by simp [word, width, bitNat_eq])
    (fun _ h => congrArg₂ Prod.mk (h 0) (bit_of_field (h 1))) fun _ h => anyBits_of_field (h 2) rfl

theorem spells_rr (ds : BitVec 5) (r : Bool) : Format.rr.Spells opc (ds.toNat * 2 ^ 12 + bitNat r * 64) (ds, r) :=
  Format.spells_of_fields [⟨5, ds⟩, ⟨5, 0⟩, ⟨1, .ofBool r⟩, ⟨6, 0⟩] rfl (by simp [word, width, bitNat_eq])
    (fun _ h => congrArg₂ Prod.mk (h 0) (bit_of_field (h 2)))
    fun _ h => Bool.or_eq_false_iff.2 ⟨anyBits_of_field (h 1) rfl, anyBits_of_field (h 3) rfl⟩

theorem spells_ct (ds : BitVec 5) (c : BitVec 6) : Format.ct.Spells opc (ds.toNat * 2 ^ 12 + c.toNat) (ds, c) :=
  Format.spells_of_fields [⟨5, ds⟩, ⟨6, 0⟩, ⟨6, c⟩] rfl (by simp [word, width])
    (fun _ h => congrArg₂ Prod.mk (h 0) (h 2)) fun _ h => anyBits_of_field (h 1) rfl

theorem spells_ctCode (c : BitVec 6) : Format.ctCode.Spells opc c.toNat c :=
  Format.spells_of_fields [⟨11, 0⟩, ⟨6, c⟩] rfl (by simp [word, width])
    (fun _ h => h 1) fun _ h => anyBits_of_field (h 0) rfl

theorem spells_bit (b : Bool) : Format.bit.Spells opc (bitNat b) b :=
  Format.spells_of_fields [⟨16, 0⟩, ⟨1, .ofBool b⟩] rfl (by simp [word, width, bitNat_eq])
    (fun w h => (by simpa using bit_of_field (lo := 0) (h 1) : decide (w % 2 = 1) = b))
    fun _ h => anyBits_of_field (h 0) rfl

theorem spells_n : Format.n.Spells opc 0 () :=
  Format.spells_of_fields [⟨17, 0⟩] rfl (by simp [word, width])
    (fun _ _ => rfl) fun _ h => anyBits_of_field (h 0) rfl

end

theorem spells_ri8 (o : Nat) (x y : BitVec 5) (v : BitVec 8) :
    Format.ri8.Spells (o * 2 + v.toNat / 128) (x.toNat * 2 ^ 12 + y.toNat * 2 ^ 7 + v.toNat % 128) (x, y, v) :=
  Format.spells_of_continued 32 (highBits 1 7 v) [⟨5, x⟩, ⟨5, y⟩, ⟨7, .ofNat 7 v.toNat⟩] rfl rfl
    (by rw [highBits_toNat]; rfl) (by simp [word, width, Nat.add_assoc])
    (fun _ h => congrArg₂ Prod.mk (h 1) (congrArg₂ Prod.mk (h 2) (parts_of_fields (n := 1) (m := 7) (h 0) (h 3))))
    fun _ _ => rfl

theorem spells_ak (o : Nat) (r : BitVec 6) (v : BitVec 12) :
    Format.ak.Spells (o * 2 + v.toNat / 2048) (r.toNat * 2 ^ 11 + v.toNat % 2048) (r, v) :=
  Format.spells_of_continued 32 (highBits 1 11 v) [⟨6, r⟩, ⟨11, .ofNat 11 v.toNat⟩] rfl rfl
    (by rw [highBits_toNat]; rfl) (by simp [word, width])
    (fun _ h => congrArg₂ Prod.mk (h 1) (parts_of_fields (n := 1) (m := 11) (h 0) (h 2))) fun _ _ => rfl

theorem spells_wi (o : Nat) (x : BitVec 5) (v : Word) :
    Format.wi.Spells (o * 4 + v.toNat / 4096) (x.toNat * 2 ^ 12 + v.toNat % 4096) (x, v) :=
  Format.spells_of_continued 16 (highBits 2 12 v) [⟨5, x⟩, ⟨12, .ofNat 12 v.toNat⟩] rfl rfl
    (by rw [highBits_toNat]; rfl) (by simp [word, width])
    (fun _ h => congrArg₂ Prod.mk (h 1) (parts_of_fields (n := 2) (m := 12) (h 0) (h 2))) fun _ _ => rfl

theorem spells_li (o : Nat) (c : BitVec 10) (d : BitVec 9) :
    Format.li.Spells (o * 4 + c.toNat / 256) (c.toNat % 256 * 2 ^ 9 + d.toNat) (c, d) :=
  Format.spells_of_pack [⟨10, c⟩, ⟨9, d⟩] (by omega)
    (fun cls => ⟨cls * 16 + o, by simp [packLong, word, width]; omega⟩)
    (fun _ h => congrArg₂ Prod.mk (h 0) (h 1)) fun _ _ => rfl

/-! ### Cells of the opcode map -/

/-- The cell of class `cls` and opcode `opc`, read of the syllable `w`. -/
def decodeCell (i : Site) (cls opc w : Nat) : Option Instr :=
  match cls with
  | 0 => decodeA i .a0 opc w
  | 1 => decodeA i .a1 opc w
  | 2 => decodeD i opc w
  | 3 => decodeV i opc w
  | 4 => decodeF i opc w
  | 5 => decodeC i opc w
  | 6 =>
    some (.userDecodeOperation (i.mark false) (fieldAt 4 w 19) (fieldAt 5 w 14) (fieldAt 5 w 9) (fieldAt 5 w 4)
      (fieldAt 4 w 0))
  | _ => none

theorem decodeLong_eq (i : Site) (w : Nat) : decodeLong i w = decodeCell i (w / 2 ^ 23 % 8) (w / 2 ^ 17 % 64) w := rfl

theorem decodeCell_address (i : Site) (sl : ASlot) (opc w : Nat) :
    decodeCell i (slotClass sl) opc w = decodeA i sl opc w := by
  cases sl <;> rfl

theorem slotClass_lt (sl : ASlot) : slotClass sl < 8 := by cases sl <;> decide

/-- The cells that an immediate's high bits continue in read alike. -/
theorem decodeCell_two {i : Site} {cls opc b w : Nat} {r : Option Instr} (hb : b < 2) (h0 : decodeCell i cls opc w = r)
    (h1 : decodeCell i cls (opc + 1) w = r) : decodeCell i cls (opc + b) w = r := by
  obtain rfl | rfl : b = 0 ∨ b = 1 := by omega
  · exact h0
  · exact h1

theorem decodeCell_four {i : Site} {cls opc b w : Nat} {r : Option Instr} (hb : b < 4) (h0 : decodeCell i cls opc w = r)
    (h1 : decodeCell i cls (opc + 1) w = r) (h2 : decodeCell i cls (opc + 2) w = r)
    (h3 : decodeCell i cls (opc + 3) w = r) : decodeCell i cls (opc + b) w = r := by
  obtain hb | ⟨c, hc, rfl⟩ : b < 2 ∨ ∃ c < 2, b = 2 + c := by
    rcases Nat.lt_or_ge b 2 with h | h
    · exact .inl h
    · exact .inr ⟨b - 2, by omega, by omega⟩
  · exact decodeCell_two hb h0 h1
  · rw [← Nat.add_assoc]
    exact decodeCell_two hc h2 h3

/-- The operation is written in 26 bits that read as it does, at every site that sets no reserved bit. -/
def RoundTrips (op : Instr) : Prop :=
  ∀ i, siteOf op = some i → i.rsv = false → ∃ w, encodeLong op = some w ∧ w < 2 ^ 26 ∧ decodeLong i w = some op

theorem roundTrips_of_noSite {op : Instr} (h : siteOf op = none) : RoundTrips op := by
  intro i hs
  rw [h] at hs
  cases hs

section
variable {F : Type} {m : Format F} {opc fld cls : Nat} {f : F} {i : Site} {mk : Site → F → Instr}

/-- An operation that is written in a format and read in that format round-trips. -/
theorem Format.Spells.roundTrips (h : m.Spells opc fld f) (hsite : siteOf (mk i f) = some i)
    (henc : encodeLong (mk i f) = some (packLong cls opc fld))
    (hdec : ∀ w, m.read w = f → decodeCell i cls opc w = some (mk (i.mark (m.rest w)) (m.read w)))
    (hcls : cls < 8 := by decide) (hopc : opc < 64 := by decide) : RoundTrips (mk i f) := by
  intro j hs hi
  obtain rfl : i = j := Option.some.inj (hsite.symm.trans hs)
  have hlt := h.lt
  have hc : packLong cls opc fld / 2 ^ 23 % 8 = cls := by simp only [packLong]; omega
  have ho : packLong cls opc fld / 2 ^ 17 % 64 = opc := by simp only [packLong]; omega
  refine ⟨_, henc, by simp only [packLong]; omega, ?_⟩
  rw [decodeLong_eq, hc, ho, hdec _ (h.read cls), h.read, h.rest, mark_unset hi]

/-- An operation of the address class round-trips in either slot. -/
theorem Format.Spells.roundTrips_address {sl : ASlot} (h : m.Spells opc fld f) (hsite : siteOf (mk i f) = some i)
    (henc : encodeLong (mk i f) = some (packLong (slotClass sl) opc fld))
    (hdec : ∀ w, decodeA i sl opc w = some (mk (i.mark (m.rest w)) (m.read w))) (hopc : opc < 64 := by decide) :
    RoundTrips (mk i f) :=
  h.roundTrips hsite henc (fun w _ => by rw [decodeCell_address, hdec]) (slotClass_lt sl) hopc

/-- An operation without operands round-trips. -/
theorem roundTrips_noOperand {mk : Site → Instr} (hsite : siteOf (mk i) = some i)
    (henc : encodeLong (mk i) = some (packLong cls opc 0))
    (hdec : ∀ w, decodeCell i cls opc w = some (mk (i.mark (anyBits w 0 16))))
    (hcls : cls < 8 := by decide) (hopc : opc < 64 := by decide) : RoundTrips (mk i) :=
  (spells_n opc).roundTrips (mk := fun j _ => mk j) hsite henc (fun w _ => hdec w) hcls hopc

end

section
variable {A B C D : Type} {m : Format (A × B)} {m3 : Format (A × B × C)} {m4 : Format (A × B × C × D)}
  {a : A} {b : B} {c : C} {d : D} {opc fld cls : Nat} {i : Site}

/-- A format of several operands, each of which is an operand of the command. -/
theorem Format.Spells.roundTrips_two {mk : Site → A → B → Instr} (h : m.Spells opc fld (a, b))
    (hsite : siteOf (mk i a b) = some i) (henc : encodeLong (mk i a b) = some (packLong cls opc fld))
    (hdec : ∀ w, decodeCell i cls opc w = some (mk (i.mark (m.rest w)) (m.read w).1 (m.read w).2))
    (hcls : cls < 8 := by decide) (hopc : opc < 64 := by decide) : RoundTrips (mk i a b) :=
  roundTrips (f := (a, b)) (mk := fun j p => mk j p.1 p.2) h hsite henc (fun w _ => hdec w) hcls hopc

theorem Format.Spells.roundTrips_three {mk : Site → A → B → C → Instr} (h : m3.Spells opc fld (a, b, c))
    (hsite : siteOf (mk i a b c) = some i) (henc : encodeLong (mk i a b c) = some (packLong cls opc fld))
    (hdec : ∀ w, decodeCell i cls opc w =
      some (mk (i.mark (m3.rest w)) (m3.read w).1 (m3.read w).2.1 (m3.read w).2.2))
    (hcls : cls < 8 := by decide) (hopc : opc < 64 := by decide) : RoundTrips (mk i a b c) :=
  roundTrips_two (b := (b, c)) (mk := fun j x p => mk j x p.1 p.2) h hsite henc hdec hcls hopc

theorem Format.Spells.roundTrips_four {mk : Site → A → B → C → D → Instr} (h : m4.Spells opc fld (a, b, c, d))
    (hsite : siteOf (mk i a b c d) = some i) (henc : encodeLong (mk i a b c d) = some (packLong cls opc fld))
    (hdec : ∀ w, decodeCell i cls opc w =
      some (mk (i.mark (m4.rest w)) (m4.read w).1 (m4.read w).2.1 (m4.read w).2.2.1 (m4.read w).2.2.2))
    (hcls : cls < 8 := by decide) (hopc : opc < 64 := by decide) : RoundTrips (mk i a b c d) :=
  roundTrips_three (c := (c, d)) (mk := fun j x y p => mk j x y p.1 p.2) h hsite henc hdec hcls hopc

end

/-- A user decode operation, whose fields take the place of OPC (R240). -/
theorem roundTrips_userDecode (i : Site) (u : BitVec 4) (p0 p1 p2 : BitVec 5) (p3 : BitVec 4) :
    RoundTrips (.userDecodeOperation i u p0 p1 p2 p3) := by
  intro j hs hi
  obtain rfl : i = j := Option.some.inj hs
  have hpack : packLong 6 0 (u.toNat * 2 ^ 19 + p0.toNat * 2 ^ 14 + p1.toNat * 2 ^ 9 + p2.toNat * 16 + p3.toNat) =
      word [⟨3, 6⟩, ⟨4, u⟩, ⟨5, p0⟩, ⟨5, p1⟩, ⟨5, p2⟩, ⟨4, p3⟩] := by
    simp [packLong, word, width, Nat.add_assoc]
  have h := holds_word 0 [⟨3, 6⟩, ⟨4, u⟩, ⟨5, p0⟩, ⟨5, p1⟩, ⟨5, p2⟩, ⟨4, p3⟩]
  rw [Nat.zero_mul, Nat.zero_add] at h
  refine ⟨_, congrArg some hpack, word_lt _, ?_⟩
  generalize word _ = w at h ⊢
  have hfield : fieldAt 3 w 23 = 6 := h 0
  have hcls : w / 2 ^ 23 % 8 = 6 := by simpa [fieldAt] using congrArg BitVec.toNat hfield
  rw [decodeLong_eq, hcls]
  show some (Instr.userDecodeOperation (i.mark false) _ _ _ _ _) = _
  rw [mark_unset hi]
  exact congrArg some
    (congr (congr (congr (congr (congrArg (Instr.userDecodeOperation i) (h 1)) (h 2)) (h 3)) (h 4)) (h 5))

/-- Every operation is written in the format in which its cell of the opcode map is read. -/
theorem roundTrips_of_formOk (op : Instr) (hform : formOk op = true) : RoundTrips op := by
  cases op
  case ld _ f | ldD _ f | st _ f | stD _ f | vld _ f | vst _ f | vlds _ f | vsts _ f | aadd _ f | palloc _ f |
    pfree _ f => exact (spells_am _ f).roundTrips_address rfl rfl fun _ => rfl
  case vldx _ f | vstx _ f => exact (spells_ax _ f).roundTrips_address rfl rfl fun _ => rfl
  case aaddi _ sl an v =>
    exact (spells_ai _ an v).roundTrips_two (mk := fun j => .aaddi j sl) rfl rfl
      (fun _ => decodeCell_address ..) (slotClass_lt sl)
  case amv _ sl rd rs =>
    exact (spells_ar _ rd rs).roundTrips_two (mk := fun j => .amv j sl) rfl rfl
      (fun _ => decodeCell_address ..) (slotClass_lt sl)
  case amovl _ sl r v =>
    exact (spells_ak 7 r v).roundTrips_two (mk := fun j => .amovl j sl) rfl rfl
      (fun _ => decodeCell_two (by omega) (decodeCell_address ..) (decodeCell_address ..)) (slotClass_lt sl) (by omega)
  case amovh _ sl r v =>
    exact (spells_ak 8 r v).roundTrips_two (mk := fun j => .amovh j sl) rfl rfl
      (fun _ => decodeCell_two (by omega) (decodeCell_address ..) (decodeCell_address ..)) (slotClass_lt sl) (by omega)
  case adc _ f | sbc _ f | neg _ f | abs _ f | mov _ f | min _ f | max _ f | minu _ f | maxu _ f | and _ f | or _ f |
    xor _ f | andn _ f | not _ f | lsh _ f | ash _ f | lshD _ f | ashD _ f | addD _ f | adcD _ f | subD _ f | sbcD _ f |
    cmpD _ f | negD _ f | movD _ f | mvad _ f | mpy _ f | mac _ f | msu _ f | cmpy _ f | cmac _ f | cmacj _ f |
    adda _ f | suba _ f | nega _ f | clra _ f | mvp _ f | mulf _ f | mulD _ f | mvr _ f | mvi _ f | div _ f | divu _ f |
    dadd _ f | dsub _ f | daj _ f | tget _ f | vadd _ f | vsub _ f | vadds _ f | vsubs _ f | vaddh _ f | vsubh _ f |
    vneg _ f | vabs _ f | vmin _ f | vmax _ f | vand _ f | vor _ f | vxor _ f | vandn _ f | vlsh _ f | vash _ f |
    vmulf _ f | vcmulf _ f | vcmuljf _ f | vconj _ f | vmulj _ f | vswri _ f | vmov _ f | vbcast _ f | vbcastc _ f |
    vperm _ f | vzip _ f | vunz _ f | vmpy _ f | vmac _ f | vmsu _ f | vmacs _ f | vmpyp _ f | vmacp _ f | vcmpy _ f |
    vcmac _ f | vcmacj _ f | vcmacs _ f | vclra _ f | vmvr _ f | vmvi _ f | vmaxi _ f | vmini _ f | setvl _ f |
    fadd _ f | fsub _ f | fmul _ f | fma _ f | fdiv _ f | fsqrt _ f | fmin _ f | fmax _ f | fcmp _ f | fcmpe _ f |
    fmov _ f | fneg _ f | fabs _ f | fmvf _ f | fmvd _ f | fkind _ f | tset _ f =>
    exact (spells_r3 _ f).roundTrips rfl rfl fun _ _ => rfl
  case asha _ f | setvlImmediate _ f => exact (spells_ri6 _ f).roundTrips rfl rfl fun _ _ => rfl
  case vext _ f | vins _ f | fcvtFD _ f | fcvtFDD _ f | fcvtDF _ f | fcvtDDF _ f =>
    exact (spells_ri5 _ f).roundTrips rfl rfl fun _ _ => rfl
  case lsl _ f | asl _ f | vlsl _ f | vasl _ f =>
    have hlow : ¬ 32 ≤ f.i.toNat := Nat.not_le.2 (of_decide_eq_true hform)
    exact (spells_ri6 _ f).roundTrips rfl rfl fun _ hr => congrArg some (if_neg (by subst hr; exact hlow))
  case lsr _ f | asr _ f | vlsr _ f | vasr _ f =>
    have hhigh : 32 ≤ f.i.toNat := of_decide_eq_true hform
    exact (spells_ri6 _ f).roundTrips rfl rfl fun _ hr => congrArg some (if_pos (by subst hr; exact hhigh))
  case expdS _ f | vexpdS _ f | vmaxirS _ f | vminirS _ f | vmaxiaS _ f | vminiaS _ f =>
    have hstart : f.b = 1 := eq_of_beq hform
    exact (spells_r3 _ f).roundTrips rfl rfl fun _ hr => congrArg some (if_pos (by subst hr; exact hstart))
  case expd _ f | vexpd _ f | vmaxir _ f | vminir _ f | vmaxia _ f | vminia _ f =>
    have hplain : f.b ≠ 1 := ne_of_beq_false (Bool.not_eq_true' _ ▸ hform)
    exact (spells_r3 _ f).roundTrips rfl rfl fun _ hr => congrArg some (if_neg (by subst hr; exact hplain))
  case add _ f =>
    cases f with
    | reg f => exact (spells_r3 _ f).roundTrips (mk := fun j f => .add j (.reg f)) rfl rfl fun _ _ => rfl
    | imm x y v =>
      exact (spells_ri8 9 x y v).roundTrips_three (mk := fun j x y v => .add j (.imm x y v)) rfl rfl
        (fun _ => decodeCell_two (by omega) rfl rfl) (hopc := by omega)
  case sub _ f =>
    cases f with
    | reg f => exact (spells_r3 _ f).roundTrips (mk := fun j f => .sub j (.reg f)) rfl rfl fun _ _ => rfl
    | imm x y v =>
      exact (spells_ri8 10 x y v).roundTrips_three (mk := fun j x y v => .sub j (.imm x y v)) rfl rfl
        (fun _ => decodeCell_two (by omega) rfl rfl) (hopc := by omega)
  case cmp _ f =>
    cases f with
    | reg f => exact (spells_r3 _ f).roundTrips (mk := fun j f => .cmp j (.reg f)) rfl rfl fun _ _ => rfl
    | imm x v => exact (spells_ci8 _ x v).roundTrips_two (mk := fun j x v => .cmp j (.imm x v)) rfl rfl fun _ => rfl
  case mvs _ x sys dir => exact (spells_ms _ x sys dir).roundTrips_three rfl rfl fun _ => rfl
  case movi _ x v =>
    exact (spells_wi 15 x v).roundTrips_two rfl rfl
      (fun _ => decodeCell_four (by omega) rfl rfl rfl rfl) (hopc := by omega)
  case vslide _ d s t u => exact (spells_vs _ d s t u).roundTrips_four rfl rfl fun _ => rfl
  case fbar _ | nop _ | rte _ | flushp _ | waite _ => exact roundTrips_noOperand rfl rfl fun _ => rfl
  case bCc _ cc a d => exact (spells_cb _ cc a d).roundTrips_three rfl rfl fun _ => rfl
  case bra _ a d | call _ a d | callo _ a d =>
    exact (spells_cj _ a d).roundTrips_two rfl rfl fun _ => rfl
  case jmp _ a an | callAn _ a an | calloAn _ a an =>
    exact (spells_cr _ a an).roundTrips_two rfl rfl fun _ => rfl
  case ret _ a | reto _ a => exact (spells_ca _ a).roundTrips rfl rfl fun _ _ => rfl
  case loop _ f =>
    cases f with
    | imm c d =>
      exact (spells_li 3 c d).roundTrips_two (mk := fun j c d => .loop j (.imm c d)) rfl rfl
        (fun _ => decodeCell_four (by omega) rfl rfl rfl rfl) (hopc := by omega)
    | reg ds d => exact (spells_lr _ ds d).roundTrips_two (mk := fun j ds d => .loop j (.reg ds d)) rfl rfl fun _ => rfl
  case rep _ f =>
    cases f with
    | imm c r => exact (spells_rp _ c r).roundTrips_two (mk := fun j c r => .rep j (.imm c r)) rfl rfl fun _ => rfl
    | reg ds r => exact (spells_rr _ ds r).roundTrips_two (mk := fun j ds r => .rep j (.reg ds r)) rfl rfl fun _ => rfl
  case barp _ b => exact (spells_bit _ b).roundTrips rfl rfl fun _ _ => rfl
  case signal _ c | tresume _ c | tstop _ c => exact (spells_ctCode _ c).roundTrips rfl rfl fun _ _ => rfl
  case tstart _ ds c => exact (spells_ct _ ds c).roundTrips_two rfl rfl fun _ => rfl
  case userDecodeOperation _ u p0 p1 p2 p3 => exact roundTrips_userDecode _ u p0 p1 p2 p3
  all_goals exact roundTrips_of_noSite rfl

/-- Settles O56: each operation is written in the format in which its cell of the opcode map is read. -/
theorem longOperationsRoundTrip : Obligations.LongOperationsRoundTrip := by
  intro op i hs hw hi _
  obtain ⟨-, hform, -⟩ := Laws.Sited.of_wellFormed op hw
  exact roundTrips_of_formOk op hform i hs hi

end Sys2Proof.Encoding
end

section
/-! PROOFS. Address arithmetic and the moves of address registers (R225, R226, R250, R251), and user decode operations of one
micro-operation (R240–R242). -/

namespace Sys2Proof.Machine
open Sys2Proof Sys2Proof.Laws

/-! ### Address registers -/

/-- A legal operation of an address slot whose effects write registers alone. -/
theorem aOut_writes {x : IssueCtx} {ok wflags : Bool} {sl : List SlotK} {acts : List Act} {ws : List (RegW × Nat)}
    (hok : ok = true) (hacts : acts = wrActs ws) (hlater : Later ws := by simp) :
    Writes x (whenLegal ok sl { slots := sl, acts := acts, wflags := wflags }) ws := by
  subst hok hacts
  exact ⟨rfl, rfl, nofun, rfl, rfl, hlater⟩

theorem okSel_of {r : BitVec 6} (h : r.toNat < 40) : okSel r = true := by simp [okSel, h]

/-- Settles O16: arithmetic post-updates its pointer, and a move writes the one register that its selector names. -/
theorem addressArithmetic : Obligations.AddressArithmetic := by
  intro f sl an imm r q added
  refine ⟨fun hx ham => ?_, ?_, fun hr => ⟨fun hq => ?_, ?_, ?_⟩⟩
  · exact completesAlways_of_writes (fun _ => ⟨rfl, rfl⟩) fun _ _ =>
      aOut_writes (by rw [okZero_of hx, okZero_of ham]; rfl) (postUpdate_eq_wrActs ..) (later_postWrites _ (some _) _)
  · exact completesAlways_of_writes (fun _ => ⟨rfl, rfl⟩) fun _ _ =>
      aOut_writes rfl (postUpdate_eq_wrActs ..) (later_postWrites _ (some _) _)
  · exact completesAlways_of_writes (fun _ => ⟨rfl, rfl⟩) fun _ _ =>
      aOut_writes (by rw [okSel_of hr, okSel_of hq]; rfl) rfl
  iterate 2 · exact completesAlways_of_writes (fun _ => ⟨rfl, rfl⟩) fun _ _ => aOut_writes (okSel_of hr) rfl

/-! ### User decode operations -/

/-- An entry of one micro-operation has the micro-operation that its words decode to. -/
theorem microOps_one {i : Site} {udt : SMap 14} {u : Nat} {p : List Nat} (hlen : udtLen udt u = 1) :
    microOps i udt u p = [decodeLong { i with short := false, fin := .more, rsv := false } (microWord udt u 0 p)] := by
  rw [microOps, hlen]; rfl

/-- A micro-operation that raises nothing answers as the operation it is (R242). -/
theorem microOut_legal {x : IssueCtx} {mop : Instr} {j : Site} {g : IssueCtx → OpOut} (hop : opBase mop = some (j, g))
    (hj : j.rsv = false) (hexcs : (g x).excs = []) : microOut x (some mop) = g x := by
  simp [microOut, hop, hj, withUnit, hexcs]

/-- A valid entry of one micro-operation that raises nothing has that operation's effects and needs (R240–R242). -/
theorem opUserDecode_one {i : Site} {uidx : BitVec 4} {p0 p1 p2 : BitVec 5} {p3 : BitVec 4} {x : IssueCtx} {mop : Instr}
    {j : Site} {g : IssueCtx → OpOut} (hkind : x.c.kind = .signal) (hvalid : udtValid x.c.udt uidx.toNat = true)
    (hlen : udtLen x.c.udt uidx.toNat = 1)
    (hdec : decodeLong { i with short := false, fin := .more, rsv := false }
      (microWord x.c.udt uidx.toNat 0 [p0.toNat, p1.toNat, p2.toNat, p3.toNat]) = some mop)
    (hop : opBase mop = some (j, g)) (hj : j.rsv = false) (hexcs : (g x).excs = []) :
    let o := opUserDecode i uidx p0 p1 p2 p3 x
    o.acts = (g x).acts ∧ o.excs = [] ∧ o.vec = (g x).vec ∧ o.fuse = (g x).fuse ∧ o.isRep = false := by
  simp [opUserDecode, hkind, hvalid, microOps_one hlen, hdec, microOut_legal hop hj hexcs, hexcs]

/-- Settles O22: its answer has the micro-operation's writes, which land as those of any operation. -/
theorem userDecodeOperation : Obligations.UserDecodeOperation := by
  intro s i k c t uidx p0 p1 p2 p3 mop j g ws op x hq hkind hvalid hlen hdec hop hj hacts hexcs hvec hfuse hlater
  obtain ⟨oacts, oexcs, ovec, ofuse, orep⟩ :=
    opUserDecode_one (i := i) (x := x) hkind hvalid hlen hdec hop hj hexcs
  rw [exec_operation rfl, issueOp_landing hq rfl ws hlater x rfl (oacts.trans hacts) oexcs (ovec ▸ hvec) (ofuse ▸ hfuse)
    (by simp [orep])]

end Sys2Proof.Machine
end

section
/-! PROOFS. Loads, stores and page requests (R245–R252, R254, R256, R262, R265, R268, R273): an access of core-local words moves
them at once, one of a window leaves a request per row or an entry of the store buffer, PALLOC and PFREE a page request. -/

namespace Sys2Proof.Machine
open Sys2Proof Sys2Proof.Laws

/-! ### Answers that neither raise an exception nor need a unit -/

/-- The answer raises nothing, needs no unit and holds no level. -/
structure Plain (o : OpOut) : Prop where
  excs : o.excs = []
  vec : o.vec = false
  fuse : o.fuse = false
  rep : o.isRep = false

/-- An effect that neither transfers control nor expands. -/
def Act.simple : Act → Bool
  | .ctl _ => false
  | .micros _ => false
  | _ => true

/-- Effects that begin with such a one, and that write registers otherwise, transfer no control and do not expand. -/
theorem ctlOf_simple {o : OpOut} {a : Act} {vs : List (RegW × Nat)} (ha : o.acts = a :: wrActs vs) (hk : a.simple = true) :
    ctlOf [o] = none ∧ ∀ b ∈ o.acts, ∀ is, b ≠ .micros is := by
  have hall : ∀ b ∈ o.acts, b.simple = true := by
    intro b hb
    rw [ha] at hb
    rcases List.mem_cons.1 hb with rfl | hb
    · exact hk
    · obtain ⟨w, -, rfl⟩ := List.mem_map.1 hb
      rfl
  refine ⟨?_, fun b hb is h => by have := hall b hb; rw [h] at this; cases this⟩
  rw [ctlOf, List.flatMap_singleton, List.findSome?_eq_none_iff]
  intro b hb
  have := hall b hb
  cases b with
  | ctl => cases this
  | wr | store | load | put | signal | page | unit | micros => rfl

section
variable {s : State} {i : Site} {op : Instr} {k : Nat} {c : Core} {t : Thread} {g : IssueCtx → OpOut}

/-- An operation whose effects are stores to X and Y memory and register writes. -/
theorem exec_of_stores (hs : siteOf op = some i) (hm : opMeaning op = some (i, g)) (hq : Quiet s i op k c t)
    (hp : Plain (g (viewOf i op k c t))) {ms : List (Bool × Nat × Word)} {ws : List (RegW × Nat)} (hl : Later ws)
    (ha : (g (viewOf i op k c t)).acts = stActs ms ++ wrActs ws) :
    exec op s = .next (issuedWith s i k ws (withStores ms)) := by
  rw [exec_operation hs, issueOp_writes hq hm ms ws hl _ rfl ha hp.excs (by simp [hp.vec]) (by simp [hp.fuse])
    (by simp [hp.rep])]

/-- An operation whose effects write registers, fill the store buffer and send requests, `d` the core behind it. -/
theorem exec_of_requests (hs : siteOf op = some i) (hm : opMeaning op = some (i, g)) (hq : Quiet s i op k c t)
    (hp : Plain (g (viewOf i op k c t))) {ws : List (RegW × Nat)} (hl : Later ws) {sb : List SbEntry} {n : Nat}
    {reqs greqs : List MemReq} {pages : List PageReq} {f : Core → Core}
    (hf : f c = withParts c c.x c.y sb n c.divu c.fdivu)
    {a : Act} {vs : List (RegW × Nat)} (ha : (g (viewOf i op k c t)).acts = a :: wrActs vs) (hk : a.simple = true)
    (hroom : sb.length ≤ 4 ∧ reqs.length + greqs.length ≤ 8) (hub : i.core = .hub → greqs = [])
    (hr : ∀ d : Core, d.sb = [] → d.nextId = c.nextId →
      applyActs (s.outside i.core) k t.adv t.seq false { core := d } (a :: wrActs vs) =
      { core := onThread { d with sb := sb, nextId := n } k (fun u => { u with flight := u.flight ++ pends t ws })
        reqs := reqs, greqs := greqs, pages := pages }) :
    exec op s = .next (withRequests (issuedWith s i k ws f) i.core reqs greqs pages) := by
  rw [exec_operation hs, issueOp_plain hq hm _ rfl hp.excs (by simp [hp.vec]) (by simp [hp.fuse]) (by simp [hp.rep])
    (.inr hp.vec) ws c.x c.y sb n c.divu c.fdivu reqs greqs pages (ctlOf_simple ha hk).1 (ctlOf_simple ha hk).2 hl hroom _ hub,
    issuedWith_congr hq.core k ws hf.symm]
  intro d hx hy hsb hn hdu hfu
  rw [ha, hr d (hsb.trans hq.sb) hn, withParts, ← hx, ← hy, ← hdu, ← hfu]

end

/-! ### Accesses of core-local words -/

theorem placeOf_eq {sl : ASlot} {ea : AWord} {p : Bool × Nat} (h : localPlace sl ea = some p) : placeOf sl ea = p := by
  rw [placeOf, h, Option.getD_some]

/-- A load of one word, or of two, that lie in X or Y memory. -/
theorem loadActs_word (c : Core) (sl : ASlot) (a : AWord) (d : Nat) :
    loadActs c (localTargets sl [(0, a)]) (.d d) = wrActs [(.d d (localRead c (placeOf sl a)), 2)] := by
  simp only [localTargets, List.map_cons, List.map_nil]
  rcases placeOf sl a with ⟨_ | _, m⟩ <;> rfl

theorem loadActs_words (c : Core) (sl : ASlot) (a b : AWord) (lo hi : Nat) :
    loadActs c (localTargets sl [(0, a), (1, b)]) (.dd lo hi) =
      wrActs [(.d lo (localRead c (placeOf sl a)), 2), (.d hi (localRead c (placeOf sl b)), 2)] := by
  simp only [localTargets, List.map_cons, List.map_nil]
  rcases placeOf sl a with ⟨_ | _, m⟩ <;> rcases placeOf sl b with ⟨_ | _, n⟩ <;> rfl

/-- A store of such words. -/
theorem storeActs_word (a1 : Bool) (sl : ASlot) (e : Nat × AWord) (v : Word) :
    storeActs a1 (((localTargets sl [e]).map (fun p => p.2.2)).zip [v]) =
      stActs [((placeOf sl e.2).1, (placeOf sl e.2).2, v)] := by
  simp only [localTargets, List.map_cons, List.map_nil]
  rcases placeOf sl e.2 with ⟨_ | _, m⟩ <;> rfl

theorem storeActs_words (a1 : Bool) (sl : ASlot) (e f : Nat × AWord) (v w : Word) :
    storeActs a1 (((localTargets sl [e, f]).map (fun p => p.2.2)).zip [v, w]) =
      stActs [((placeOf sl e.2).1, (placeOf sl e.2).2, v), ((placeOf sl f.2).1, (placeOf sl f.2).2, w)] := by
  simp only [localTargets, List.map_cons, List.map_nil]
  rcases placeOf sl e.2 with ⟨_ | _, m⟩ <;> rcases placeOf sl f.2 with ⟨_ | _, n⟩ <;> rfl

section
variable {x : IssueCtx} {sl : ASlot} {as : List (Nat × AWord)} {n : Nat} {post : Option AWord} {cb : Bool}

/-- A load or a store of core-local words needs nothing else. -/
theorem loadOut_plain (h : AllLocal sl as) (dst : LoadDst) : Plain (loadOut x sl as dst n post cb false) :=
  ⟨by rw [loadOut, targets_local h, accessFault_local], rfl, rfl, rfl⟩

theorem storeOut_plain (h : AllLocal sl as) (ws : List Word) (rs : List WName) :
    Plain (storeOut x sl as ws rs n post cb false) :=
  ⟨by rw [storeOut, targets_local h, accessFault_local], rfl, rfl, rfl⟩

theorem loadOut_acts (h : AllLocal sl as) {dst : LoadDst} {ws : List (RegW × Nat)}
    (hl : loadActs x.c (localTargets sl as) dst = wrActs ws) :
    (loadOut x sl as dst n post cb false).acts = stActs [] ++ wrActs (ws ++ postWrites n post cb) := by
  rw [loadOut, targets_local h, hl, postUpdate_eq_wrActs, wrActs_append]; rfl

theorem storeOut_acts (h : AllLocal sl as) {vs : List Word} {rs : List WName} {ms : List (Bool × Nat × Word)}
    (hs : storeActs (isA1 sl) (((localTargets sl as).map (fun p => p.2.2)).zip vs) = stActs ms) :
    (storeOut x sl as vs rs n post cb false).acts = stActs ms ++ wrActs (postWrites n post cb) := by
  rw [storeOut, targets_local h, hs, postUpdate_eq_wrActs]

end

/-- Settles O13: each load and store by the places of its words. -/
theorem localLoadsAndStores : Obligations.LocalLoadsAndStores := by
  intro f s i k c t ea post cb p q n next
  refine ⟨fun hm hp => ?_, fun hm hp hp' he => ?_⟩
  · have hl : AllLocal f.slot [(0, ea)] := by simp [AllLocal, hp]
    rw [← placeOf_eq hp]
    refine ⟨fun hq => ?_, fun hq => ?_⟩
    · have ho : opLd i f (viewOf i (.ld i f) k c t) =
          loadOut (viewOf i (.ld i f) k c t) f.slot [(0, ea)] (.d (dPhys t.wpos f.x.toNat)) n post cb false := by
        rw [opLd, viewOf_t, hm]
      exact exec_of_stores rfl rfl hq (ho ▸ loadOut_plain hl _) (by simp) (ho ▸ loadOut_acts hl (loadActs_word ..))
    · have ho : opSt i f (viewOf i (.st i f) k c t) = storeOut (viewOf i (.st i f) k c t) f.slot [(0, ea)]
          [t.rd f.x.toNat] [dName t f.x.toNat] n post cb false := by
        rw [opSt, viewOf_t, hm]
      exact exec_of_stores rfl rfl hq (ho ▸ storeOut_plain hl _ _) (by simp) (ho ▸ storeOut_acts hl (storeActs_word ..))
  · have hl : AllLocal f.slot [(0, ea), (1, next.1)] := by simp [AllLocal, hp, hp']
    rw [← placeOf_eq hp, ← placeOf_eq hp']
    intro cb2
    refine ⟨fun hq => ?_, fun hq => ?_⟩
    · have ho : opLdD i f (viewOf i (.ldD i f) k c t) =
          loadOut (viewOf i (.ldD i f) k c t) f.slot [(0, ea), (1, next.1)]
            (.dd (dPhys t.wpos f.x.toNat) (dPhys t.wpos (f.x.toNat + 1))) n post cb2 false := by
        rw [opLdD, viewOf_t, hm]
        simp only [okEven_of he, whenLegal_true]; rfl
      exact exec_of_stores rfl rfl hq (ho ▸ loadOut_plain hl _) (by simp) (ho ▸ loadOut_acts hl (loadActs_words ..))
    · have ho : opStD i f (viewOf i (.stD i f) k c t) = storeOut (viewOf i (.stD i f) k c t) f.slot
          [(0, ea), (1, next.1)] [t.rd f.x.toNat, t.rd (f.x.toNat + 1)] (ddName t f.x.toNat) n post cb2 false := by
        rw [opStD, viewOf_t, hm]
        simp only [okEven_of he, whenLegal_true]; rfl
      exact exec_of_stores rfl rfl hq (ho ▸ storeOut_plain hl _ _) (by simp)
        (ho ▸ storeOut_acts hl (storeActs_words ..))

/-! ### Accesses of the windows -/

section
variable {x : IssueCtx} {sl : ASlot} {ea : AWord} {o : Bool × Nat} {n : Nat} {post : Option AWord} {cb : Bool}

theorem accessFault_window {T : Target} (h : offsetOf T = some o) (vec : Bool) : accessFault vec [(0, ea, T)] = [] := by
  cases T with
  | pageFault => cases h
  | x | y | shm | glb => rfl

/-- A word that a window holds is loaded by a request, and stored through the store buffer (R256, R273). -/
theorem loadActs_window {T : Target} (h : offsetOf T = some o) (c : Core) (d : Nat) :
    loadActs c [(0, ea, T)] (.d d) = [.load [(0, o)] (.d d)] := by
  cases T <;> cases h <;> rfl

theorem storeActs_window {T : Target} (h : offsetOf T = some o) (a1 : Bool) (v : Word) :
    storeActs a1 [(T, v)] = [.put a1 [(o.1, o.2, v)]] := by
  cases T <;> cases h <;> rfl

theorem loadOut_window (h : offsetOf (target x (isA1 sl) false ea) = some o) (d : Nat) :
    Plain (loadOut x sl [(0, ea)] (.d d) n post cb false) ∧
      (loadOut x sl [(0, ea)] (.d d) n post cb false).acts = .load [(0, o)] (.d d) :: wrActs (postWrites n post cb) := by
  refine ⟨⟨accessFault_window h false, rfl, rfl, rfl⟩, ?_⟩
  show loadActs x.c [(0, ea, _)] (.d d) ++ _ = _
  rw [loadActs_window h, postUpdate_eq_wrActs]; rfl

theorem storeOut_window (h : offsetOf (target x (isA1 sl) true ea) = some o) (v : Word) (rs : List WName) :
    Plain (storeOut x sl [(0, ea)] [v] rs n post cb false) ∧
      (storeOut x sl [(0, ea)] [v] rs n post cb false).acts =
        .put (isA1 sl) [(o.1, o.2, v)] :: wrActs (postWrites n post cb) := by
  refine ⟨⟨accessFault_window h false, rfl, rfl, rfl⟩, ?_⟩
  show storeActs (isA1 sl) [(_, v)] ++ _ = _
  rw [storeActs_window h, postUpdate_eq_wrActs]; rfl

end

theorem loadReqs_one (me : Requester) (tid rid : Nat) (o : Bool × Nat) :
    loadReqs me tid rid [(0, o)] =
      [(o.1, { id := rid, by_ := me, tid := tid, rid := rid, offs := [(0, o.2)] })] := by
  simp [loadReqs, rowsOf]

theorem storeEntries_one (id : Nat) (e : Bool × Nat × Word) :
    storeEntries id [e] = [⟨id, if e.1 then .glb [e.2] else .shm [e.2]⟩] := by
  simp [storeEntries, rowsOf]

/-! ### What the effects leave -/

/-- The core with the writes `ws` of its thread `k` on their way. -/
def sending (k : Nat) (t : Thread) (ws : List (RegW × Nat)) (d : Core) : Core :=
  onThread d k (fun u => { u with flight := u.flight ++ pends t ws })

theorem sending_sending (k : Nat) (t : Thread) (vs ws : List (RegW × Nat)) (d : Core) :
    sending k t ws (sending k t vs d) = sending k t (vs ++ ws) d := by
  simp only [sending, onThread_onThread, pends, List.map_append, List.append_assoc]

section
variable {o : Outside} {k n : Nat} {t : Thread} {d : Core}

/-- A window load lands behind its 16 cycles, and its request waits (R256). -/
theorem applyAct_load (off : Bool × Nat) (p : Nat) (h : d.nextId = n) :
    applyAct o k t.adv t.seq false { core := d } (.load [(0, off)] (.d p)) =
      { core := sending k t [(.load n 1 (.d p), 16)] { d with nextId := n + 2 }
        reqs := ((loadReqs o.me k n [(0, off)]).filter (fun m => !m.1)).map (fun m => m.2)
        greqs := ((loadReqs o.me k n [(0, off)]).filter (fun m => m.1)).map (fun m => m.2) } := by
  subst h
  simp only [applyAct, loadReqs_one]
  rfl

theorem actRank_wrActs {ws : List (RegW × Nat)} : ∀ a ∈ wrActs ws, actRank a = 0 := fun a ha => by
  obtain ⟨w, -, rfl⟩ := List.mem_map.1 ha; rfl

/-- It goes before the post-update of its address. -/
theorem applyActs_load (off : Bool × Nat) (p : Nat) (ws : List (RegW × Nat)) (h : d.nextId = n) :
    applyActs o k t.adv t.seq false { core := d } (.load [(0, off)] (.d p) :: wrActs ws) =
      { core := sending k t ((.load n 1 (.d p), 16) :: ws) { d with nextId := n + 2 }
        reqs := ((loadReqs o.me k n [(0, off)]).filter (fun m => !m.1)).map (fun m => m.2)
        greqs := ((loadReqs o.me k n [(0, off)]).filter (fun m => m.1)).map (fun m => m.2) } := by
  rw [applyActs, ordered_rank0 _ (List.forall_mem_cons.2 ⟨rfl, actRank_wrActs⟩), List.foldl_cons,
    fold_wr _ _ _ _ _ t ws rfl rfl, applyAct_load off p h]
  exact congrArg (fun e => Issued.mk e _ _ _ _ _ _) (sending_sending k t _ ws _)

/-- Effects of rank 0 come before a store to a window. -/
theorem ordered_put {as : List Act} (h : ∀ a ∈ as, actRank a = 0) (a1 : Bool) (es : List (Bool × Nat × Word)) :
    ordered (.put a1 es :: as) = as ++ [.put a1 es] := by
  have h0 : as.filter (fun a => actRank a == 0) = as := List.filter_eq_self.2 fun a ha => by simp [h a ha]
  have hn (n : Nat) : as.filter (fun a => actRank a == n + 1) = [] :=
    List.filter_eq_nil_iff.2 fun a ha => by simp [h a ha]
  show ([0, 1, 2, 3] : List Nat).flatMap _ = _
  have hf : actRank (.put false es) = 1 := rfl
  have ht : actRank (.put true es) = 2 := rfl
  cases a1 <;> simp [List.filter_cons, h0, hn 0, hn 1, hn 2, hf, ht]

/-- The post-update of an address lands beside the store's entry (R248, R250, R273). -/
theorem applyActs_put (a1 : Bool) (e : Bool × Nat × Word) (ws : List (RegW × Nat)) (hs : d.sb = []) (h : d.nextId = n) :
    applyActs o k t.adv t.seq false { core := d } (.put a1 [e] :: wrActs ws) =
      { core := sending k t ws { d with sb := storeEntries n [e], nextId := n + 1 } } := by
  have hput : applyAct o k t.adv t.seq false { core := sending k t ws d } (.put a1 [e]) =
      { core := sending k t ws { d with sb := d.sb ++ storeEntries d.nextId [e], nextId := d.nextId + 1 } } := by
    simp only [applyAct, storeEntries_one]
    rfl
  rw [applyActs, ordered_put actRank_wrActs, List.foldl_append, fold_wr _ _ _ _ _ t ws rfl rfl]
  refine hput.trans ?_
  rw [hs, h, List.nil_append]

/-- A page request lands behind its 16 cycles, and waits at the allocator (R265). -/
theorem applyActs_page (alloc a1 : Bool) (tb v : Nat) (h : d.nextId = n) :
    applyActs o k t.adv t.seq false { core := d } [.page alloc a1 tb v] =
      { core := sending k t [(.page n tb v, 16)] { d with nextId := n + 1 }
        pages := [⟨n, o.idx, tb, a1, alloc, v⟩] } := by
  subst h
  rfl

end

/-- Settles O15: a load leaves its request, a store its entry of the store buffer. -/
theorem windowLoadsAndStores : Obligations.WindowLoadsAndStores := by
  intro f s i k c t ea post cb o hg hm
  have hub : i.core ≠ .hub := fun h => hg (h ▸ rfl)
  refine ⟨fun ho hq => ?_, fun ho hq => ?_⟩
  · have hop : opLd i f (viewOf i (.ld i f) k c t) = loadOut (viewOf i (.ld i f) k c t) f.slot [(0, ea)]
        (.d (dPhys t.wpos f.x.toNat)) f.an.toNat post cb false := by
      rw [opLd, viewOf_t, hm]
    obtain ⟨hp, ha⟩ := loadOut_window (n := f.an.toNat) (post := post) (cb := cb) ho (dPhys t.wpos f.x.toNat)
    rw [← hop] at hp ha
    refine exec_of_requests rfl rfl hq hp (by simp) (sb := []) (by rw [withParts, ← hq.sb]) ha rfl ?_
      (fun h => absurd h hub) fun d hs hn => ?_
    · rw [loadReqs_one]
      obtain ⟨_ | _, a⟩ := o <;> simp
    · rw [applyActs_load o _ _ hn, ← hs]; rfl
  · have hop : opSt i f (viewOf i (.st i f) k c t) = storeOut (viewOf i (.st i f) k c t) f.slot [(0, ea)]
        [t.rd f.x.toNat] [dName t f.x.toNat] f.an.toNat post cb false := by
      rw [opSt, viewOf_t, hm]
    obtain ⟨hp, ha⟩ := storeOut_window (n := f.an.toNat) (post := post) (cb := cb) ho (t.rd f.x.toNat)
      [dName t f.x.toNat]
    rw [← hop] at hp ha
    refine Eq.trans ?_ (congrArg Host.Outcome.next (withRequests_nil _ i.core))
    refine exec_of_requests rfl rfl hq hp (by simp) rfl ha rfl (by simp [storeEntries_one]) (fun _ => rfl)
      fun d hs hn => ?_
    rw [applyActs_put _ _ _ hs hn]; rfl

/-- PALLOC and PFREE of an address in the shared window (R265). -/
theorem pageOut_legal {alloc : Bool} {f : AMF} {x : IssueCtx} (hx : f.x = 0) (ham : f.am = 0) (hmm : f.mm = 0)
    (hlo : 0x400000 ≤ (smGet x.t.a f.an.toNat).toNat) (hhi : (smGet x.t.a f.an.toNat).toNat < 0x800000)
    (hkind : x.c.kind ≠ .hub) :
    pageOut alloc f x =
      { slots := [slotOf f.slot]
        acts := [.page alloc (isA1 f.slot) (pageTable x) (((smGet x.t.a f.an.toNat).toNat - 0x400000) / 4096)]
        wflags := true } := by
  simp [pageOut, okZero_of hx, okZero_of ham, okZero_of hmm, hlo, hhi, hkind]

/-- Settles O17: the answer of each is one page request. -/
theorem pageRequests : Obligations.PageRequests := by
  intro f s i k c t hx ham hmm a hlo hhi hkind r hr hq tb v
  have hop : ∃ g, siteOf r.1 = some i ∧ opMeaning r.1 = some (i, g) ∧ g = pageOut r.2 f := by
    rcases List.mem_pair.1 hr with rfl | rfl <;> exact ⟨_, rfl, rfl, rfl⟩
  obtain ⟨_, hs, hm, rfl⟩ := hop
  have ho := pageOut_legal (alloc := r.2) (x := viewOf i r.1 k c t) hx ham hmm hlo hhi hkind
  refine exec_of_requests hs hm hq (ho ▸ ⟨rfl, rfl, rfl, rfl⟩) (by simp) (sb := []) (vs := []) (by rw [withParts, ← hq.sb])
    (congrArg OpOut.acts ho) rfl (by simp) (fun _ => rfl) fun d hs hn => ?_
  exact (applyActs_page _ _ _ _ hn).trans (by rw [← hs]; rfl)

end Sys2Proof.Machine
end

section
/-! PROOFS. Requests served in a column and through the device-global path (R255, R256, R260, R270): where no error is marked, a
request reads its words and changes nothing, and they go to the core that asked for them. -/

namespace Sys2Proof.Machine
open Sys2Proof Sys2Proof.Laws

/-! ### Reads where no error is marked -/

section
variable {s : State} {g : Nat} {x : Geode}

/-- A word of the bank-slot table is read (R270). -/
theorem bstRead_clean (h : (s.geode g).bstE = {}) (i : Nat) : s.bstRead g i = s := by simp [State.bstRead, h]

/-- A word of shared memory, or of hub memory, is read (R270). -/
theorem shmRead_clean (hx : s.geode g = x) (hc : x.mem.corr = []) (hu : x.mem.unc = []) (a : Nat) :
    s.shmRead g a = (s, smGet x.mem.cells a) := by
  simp [State.shmRead, State.shmReadOf, hx, hc, hu]

theorem hubRead_clean (hc : s.hub.mem.corr = []) (hu : s.hub.mem.unc = []) (a : Nat) :
    s.hubRead a = (s, smGet s.hub.mem.cells a) := by
  simp [State.hubRead, State.hubReadBy, hc, hu]

/-- A word of the device-global window: of hub memory, or of a geode's fabric registers (R246, R270). -/
theorem glbRead_clean (hc : s.hub.mem.corr = []) (hu : s.hub.mem.unc = []) (hb : ∀ k, (s.geode k).bstE = {}) (a : Nat) :
    s.glbRead a = (s, if a < 0x880000 then smGet s.hub.mem.cells (a - 0x800000)
      else s.fabricRead ((a - 0x880000) / 0x1000 % 8) (a % 0x1000)) := by
  rw [State.glbRead]
  split
  · exact hubRead_clean hc hu _
  · rw [State.fabricReadE]
    split
    · rw [bstRead_clean (hb _)]
    · rfl

end

/-- Reads that change nothing collect their words. -/
theorem foldl_reads {α β σ : Type} {F : σ × List β → α → σ × List β} {s : σ} {f : α → β}
    {l : List α} (h : ∀ p ∈ l, ∀ ws, F (s, ws) p = (s, ws ++ [f p])) (ws : List β) :
    l.foldl F (s, ws) = (s, ws ++ l.map f) := by
  induction l generalizing ws with
  | nil => simp
  | cons p l ih =>
    rw [List.forall_mem_cons] at h
    simp [h.1, ih h.2]

/-- A request of a core without stores on their way reads what its words read as, where reads change nothing (R274). -/
theorem readReq_clean {s : State} {core g : Nat} {glb : Bool} {q : MemReq} {f : Nat → Word}
    (hsb : (s.coreAt core).sb = [])
    (hr : ∀ p ∈ q.offs, (if glb then s.glbRead p.2 else s.shmRead g p.2) = (s, f p.2)) :
    s.readReq core g glb q = (s, q.offs.map (fun p => (q.tid, q.rid, p.1, f p.2))) := by
  rw [State.readReq, hsb]
  exact (foldl_reads (f := fun p => (q.tid, q.rid, p.1, f p.2)) (fun p hp ws => by
    simp only [sbLook, List.foldl_nil, hr p hp]) []).trans (by rw [List.nil_append])

/-! ### The words go to their core -/

/-- The core that a requester of a geode is. -/
theorem coreIdx_coreOfReq {g : Fin 8} {me : Requester} (h : ∀ n, me = .core n → n < 9) :
    coreIdx (coreOfReq g me) = reqCore g.val me := by
  cases me with
  | core n => simp [coreOfReq, coreIdx, reqCore, Fin.ofNat, Nat.mod_eq_of_lt (h n rfl)]
  | sup | dma | quad => rfl

/-- A core that neither waits for requests nor holds any takes the words alone. -/
theorem answer_plain {s : State} {g : Fin 8} {q : MemReq} {c : Core} (hi : coreIdx (coreOfReq g q.by_) = reqCore g.val q.by_)
    (hc : s.cores[coreIdx (coreOfReq g q.by_)]? = some c) (hstop : c.stop = none) (hst : c.stall ≠ some .requests)
    (hl : c.lateReqs = []) (ws : List (Nat × Nat × Nat × Word)) :
    s.answer g q ws = s.onCore (coreOfReq g q.by_) (fun d => { d with inbox := d.inbox ++ ws }) := by
  have hd : s.deliver g.val q ws = s.onCore (coreOfReq g q.by_) (fun d => { d with inbox := d.inbox ++ ws }) := by
    rw [State.deliver, ← hi]
    exact onCore_congr hc (by simp [hstop])
  rw [State.answer, hd, State.leaveLate]
  simp only [core_onCore _ hc, hl]
  rw [onCore_retryIf hc rfl rfl, if_neg fun h => hst h.1]

theorem onGeode_onGeode (s : State) (g : Nat) (f h : Geode → Geode) :
    (s.onGeode g f).onGeode g h = s.onGeode g (fun x => h (f x)) := by
  simp only [State.onGeode, modAt_modAt]

/-! ### The turn of free slots and of hub memory -/

/-- The first of a run of candidates that gives something gives it. -/
theorem findSome?_range_map {α β : Type} {p : α → Option β} {f : Nat → α} {n k : Nat} {y : β} (hk : k < n)
    (hb : ∀ j, j < k → p (f j) = none) (hy : p (f k) = some y) : ((List.range n).map f).findSome? p = some y := by
  induction n generalizing k f with
  | zero => omega
  | succ n ih =>
    rw [List.range_succ_eq_map, List.map_cons, List.map_map]
    cases k with
    | zero => rw [List.findSome?_cons, hy]
    | succ k =>
      rw [List.findSome?_cons, hb 0 (by omega)]
      exact ih (by omega) (fun j hj => hb (j + 1) (by omega)) hy

section
variable {s : State} {g : Fin 8} {x : Geode}

/-- Hub memory's turn is at the first geode behind the last that asks (R260). -/
theorem hubTurn_first {k : Nat} (hk : k < 8) (hg : (s.hub.rrG + 1 + k) % 8 = g.val)
    (hb : ∀ j, j < k → (s.hub.rrG + 1 + j) % 8 ≠ g.val ∧ s.hubAsks ((s.hub.rrG + 1 + j) % 8) = false) :
    s.hubTurn g.val = true := by
  rw [State.hubTurn, List.find?_eq_findSome?_guard, findSome?_range_map (y := g.val) hk, beq_self_eq_true]
  · intro j hj
    obtain ⟨hne, hno⟩ := hb j hj
    simp [Option.guard, hne, hno]
  · simp [Option.guard, hg]

/-- A free slot goes to the first waiting requester in the order of the codes (R256). -/
theorem freeReq_first {b k : Nat} {q : MemReq} (hk : k < 13)
    (hb : ∀ j, j < k → ownedReq x b ((x.rr + 1 + j) % 13) = none) (hq : ownedReq x b ((x.rr + 1 + k) % 13) = some q) :
    freeReq x b = some ((x.rr + 1 + k) % 13, q) :=
  findSome?_range_map hk (fun j hj => by rw [hb j hj, Option.map_none]) (by rw [hq, Option.map_some])

/-- A slot that the table marks free goes by the round-robin, another one to its owner (R255, R256). -/
theorem servedReq_free {b col : Nat} (h : bstAt x.bst (16 * col + b) = 0xF) : servedReq x b col = freeReq x b := by
  rw [servedReq, h]
  rfl

theorem servedReq_owned {b col : Nat} (h : bstAt x.bst (16 * col + b) ≠ 0xF) :
    servedReq x b col = (ownedReq x b (bstAt x.bst (16 * col + b)).toNat).map (fun q => (x.rr, q)) :=
  if_neg fun e => h (BitVec.eq_of_toNat_eq e)

end

/-- Settles O26: each service by the request it selects, which then reads its words. -/
theorem requestsServed : Obligations.RequestsServed := by
  intro s g b col x q c hx hc hstop hsb hst hl hby hcorr hunc hbst hhc hhu hball o served
  have hi : coreIdx (coreOfReq g q.by_) = reqCore g.val q.by_ :=
    coreIdx_coreOfReq fun n e => by rw [e] at hby; exact hby
  have hown : (s.coreAt (reqCore g.val q.by_)).sb = [] := by
    rw [← hi, ← State.core, core_get hc, hsb]
  -- The bank's table is read, and the column stands.
  have hgx : (s.onGeode g.val (fun y => { y with column := col })).geode g.val = { x with column := col } :=
    geode_onGeode _ hx
  have hcol : (s.onGeode g.val (fun y => { y with column := col })).bstRead g.val (16 * col.toNat + b.toNat) =
      s.onGeode g.val (fun y => { y with column := col }) := bstRead_clean (by rw [hgx]; exact hbst) _
  have hsel (rr : Nat) (h : servedReq x b.toNat col.toNat = some (rr, q)) : served rr := by
    have hread := readReq_clean (s := s.onGeode g.val (fun y => { y with column := col })) (glb := false) (q := q) hown
      fun p _ => shmRead_clean hgx hcorr hunc p.2
    simp only [served, exec, execBankRequestServed, geode_get hx, h, hcol, hread]
    refine congrArg Host.Outcome.next ((answer_plain hi (?_ : _ = some c) hstop hst hl _).trans ?_)
    · exact hc
    · rw [onGeode_onGeode]
  refine ⟨fun ho hq => hsel _ ?_, fun ho hq => ?_, fun k ho hk hb hq => hsel _ ?_, fun rest hr hp hturn => ?_,
    fun rest hr hp => ?_⟩
  · rw [servedReq_owned ho, hq, Option.map_some]
  · have hnone : servedReq x b.toNat col.toNat = none := by rw [servedReq_owned ho, hq, Option.map_none]
    simp only [exec, execBankRequestServed, geode_get hx, hnone, hcol]
  · rw [servedReq_free ho, freeReq_first hk hb hq]
  · obtain ⟨k, hk, hg, hb⟩ := hturn
    have hasks : s.hubAsks g.val = true := by simpa [State.hubAsks, geode_get hx, hr] using hp
    have hread := readReq_clean (s := s.hubServed g.val) (g := g.val) (glb := true) (q := q) hown
      (f := fun a => smGet s.hub.mem.cells (a - 0x800000)) fun p hpq => by
        refine (if_pos rfl).trans ((glbRead_clean (s := s.hubServed g.val) hhc hhu hball p.2).trans ?_)
        rw [if_pos (hp p hpq)]; rfl
    simp only [exec, execBankRequestServed, geode_get hx, hr, hasks, hubTurn_first hk hg hb, Bool.not_true, Bool.and_false,
      Bool.false_eq_true, if_false, if_true, hread]
    refine congrArg Host.Outcome.next ((answer_plain hi (?_ : _ = some c) hstop hst hl _).trans ?_)
    · exact hc
    · rfl
  · obtain ⟨p, hpq, hge⟩ := hp
    have hasks : s.hubAsks g.val = false := by
      simp only [State.hubAsks, geode_get hx, hr, List.all_eq_false, decide_eq_true_eq]
      exact ⟨p, hpq, by omega⟩
    have hread := readReq_clean (s := s) (g := g.val) (glb := true) (q := q) hown
      (f := fun a => if a < 0x880000 then smGet s.hub.mem.cells (a - 0x800000)
        else s.fabricRead ((a - 0x880000) / 0x1000 % 8) (a % 0x1000))
      fun p _ => (if_pos rfl).trans (glbRead_clean hhc hhu hball p.2)
    simp only [exec, execBankRequestServed, geode_get hx, hr, hasks, Bool.false_and, Bool.false_eq_true, if_false, hread]
    refine congrArg Host.Outcome.next ((answer_plain hi (?_ : _ = some c) hstop hst hl _).trans ?_)
    · exact hc
    · rfl

end Sys2Proof.Machine
end

section
/-! PROOFS. A store that drains into a channel's CQHEAD (R282, R283): word 10 of a control block in hub memory is a register of
the channel, so the drain changes the channel beside the memory, which the statement leaves as it was. -/

namespace Sys2Proof.Machine
open Sys2Proof Sys2Proof.Laws

/-- A hub core whose store buffer holds a store of 1 to the CQHEAD of host channel 0. -/
def hubStoring : Core := { Core.hubReset with sb := [⟨0, .glb [(0x87F00A, 1)]⟩] }

def hubStoringState : State := State.reset.onCore .hub (fun _ => hubStoring)

/-- CQHEAD of host channel 0 in the state that follows. -/
def nextCqhead : Host.Outcome State Fault Refusal → Option Word
  | .next u => (u.hub.chans[0]?).map (fun c => c.cqhead)
  | _ => none

/-- The drain writes the register. -/
theorem storeBufferDrain_writes_cqhead : nextCqhead (exec (.storeBufferDrain .hub) hubStoringState) = some 1 := by decide

/-- Refutes O27: the second clause lets a drain into hub memory change the memory alone, where the store of a CQHEAD also
changes its channel. -/
theorem not_storeBufferDrains : ¬ Obligations.StoreBufferDrains := by
  intro h
  obtain ⟨-, hglb, -, -⟩ := h hubStoringState .hub hubStoring _ [] (by decide) rfl
  have hexec := hglb [(0x87F00A, 1)] rfl (by decide) rfl nofun
  exact absurd storeBufferDrain_writes_cqhead (by rw [hexec]; decide)

end Sys2Proof.Machine
end

section
/-! PROOFS. The page allocator (R265–R267, R281): the decision of a page request, the arrival of a drain marker, and the zeroing
of a page. -/

namespace Sys2Proof.Machine
open Sys2Proof Sys2Proof.Laws

/-! ### Lists and memories -/

/-- The first element that passes the test is taken out of the list. -/
theorem takeFirst_append {α : Type} {p : α → Bool} {before after : List α} {m : α} (hb : ∀ n ∈ before, p n = false)
    (hm : p m = true) : takeFirst p (before ++ m :: after) = some (m, before ++ after) := by
  induction before with
  | nil => simp [takeFirst, hm]
  | cons b bs ih =>
    rw [List.forall_mem_cons] at hb
    simp [takeFirst, hb.1, ih hb.2]

/-- Words of a cleared run read 0, the others as before. -/
theorem smGet_smClear {w : Nat} (m : SMap w) (i n a : Nat) :
    smGet (smClear m i n) a = if i ≤ a ∧ a < i + n then 0 else smGet m a := by
  induction m with
  | nil => simp [smClear, smGet]
  | cons e m ih =>
    obtain ⟨k, v⟩ := e
    rw [smClear, List.filter_cons, ← smClear]
    split
    · rename_i hk
      rw [smGet, smGet, ih]
      by_cases hak : a = k
      · subst hak
        rw [if_pos rfl, if_pos rfl, if_neg (by simp at hk; omega)]
      · rw [if_neg hak, if_neg hak]
    · rename_i hk
      rw [ih, smGet]
      have hin : i ≤ k ∧ k < i + n := by simpa using hk
      by_cases hak : a = k
      · subst hak
        rw [if_pos hin, if_pos hin]
      · rw [if_neg hak]

/-! ### The decision of a page request -/

/-- The geode with an entry of its tables unmapped, and the drain marker of its page owed (R265). -/
def entryCleared (x : Geode) (i : Nat) : Geode :=
  { x with master := smPut x.master i (smGet x.master i &&& 0x1FFF)
           owed := x.owed ++ [(smGet x.master i).toNat % 512] }

/-- A page that no entry maps any more goes to zeroing, page 0 never (R265, R281). -/
theorem unmapEntry_eq (x : Geode) (i : Nat) :
    unmapEntry x i =
      { entryCleared x i with
        zeroing := if (smGet x.master i).toNat % 512 ≠ 0 ∧
            pageCount (entryCleared x i) ((smGet x.master i).toNat % 512) = 0 then
          x.zeroing ++ [(smGet x.master i).toNat % 512] else x.zeroing } := by
  rw [show unmapEntry x i = if ((smGet x.master i).toNat % 512 != 0 &&
      pageCount (entryCleared x i) ((smGet x.master i).toNat % 512) == 0) = true then
        { entryCleared x i with zeroing := x.zeroing ++ [(smGet x.master i).toNat % 512] }
      else entryCleared x i from rfl]
  simp only [Bool.and_eq_true, bne_iff_ne, beq_iff_eq]
  split
  · rfl
  · rfl

section
variable {s : State} {g : Fin 8} {x : Geode} {c : Core} {q : PageReq} {rest : List PageReq}

/-- A request is decided by the geode `y`, the entry and Z and V that the allocator answers (R265, R266). -/
theorem pageRequestDecided_of (hx : s.geodes[g.val]? = some x) (hq : x.pageReqs = q :: rest)
    (hc : s.cores[coreIdx (pageCore g q.core)]? = some c) (hstop : c.stop = none) {y : Geode} {e : Word} {z v : Bool}
    (hd : decidePage x q = (y, e, z, v)) :
    exec (.pageRequestDecided g) s = .next
      (let u := (s.onGeode g.val (fun _ => { y with pageReqs := rest })).onCore (pageCore g q.core) (fun d =>
          { d with pageRes := d.pageRes ++ [(q.id, e, z, v)] })
        if c.stall = some .loadData ∧ c.live = true then u.retry (pageCore g q.core) else u) := by
  have hc1 : (s.onGeode g.val (fun _ => { y with pageReqs := rest })).cores[coreIdx (pageCore g q.core)]? = some c := hc
  simp only [exec, execPageRequestDecided, geode_get hx, hq, hd]
  rw [onCore_congr hc1 (g := fun d => { d with pageRes := d.pageRes ++ [(q.id, e, z, v)] }) (by simp [hstop]),
    onCore_retryIf hc1 rfl rfl]

end

/-- Settles O28: each request by the allocator's decision, each marker and each page by what precedes it. -/
theorem pageAllocation : Obligations.PageAllocation := by
  intro s g x c q rest hx
  refine ⟨?_, fun m before after hm hb hok => ?_, fun k before after hz hb hk hwf hidle => ?_⟩
  · intro hq hc hstop i e k cleared answers
    have key (y : Geode) (e : Word) (z v : Bool) (h : decidePage x q = (y, e, z, v)) : answers y e z v :=
      pageRequestDecided_of hx hq hc hstop h
    refine ⟨fun ha hb => key _ _ _ _ ?_, fun ha hb hp => key _ _ _ _ ?_, fun p ps ha hb hp => key _ _ _ _ ?_,
      fun ha hb => key _ _ _ _ ?_, fun ha hb => key _ _ _ _ ?_⟩
    · simp only [e, i] at hb ⊢
      simp [decidePage, ha, hb]
    · simp only [e, i] at hb ⊢
      simp [decidePage, ha, hb, hp]
    · simp only [e, i] at hb ⊢
      simp [decidePage, ha, hb, hp]
    · simp only [e, i] at hb
      simp only [decidePage, ha, hb, unmapEntry_eq, Bool.false_eq_true, if_false, if_true]
      rfl
    · simp only [e, i] at hb ⊢
      simp [decidePage, ha, hb]
  · simp only [exec, execDrainMarkerArrival, geode_get hx, hm, takeFirst_append hb hok]
  · have hfind : takeFirst (fun n => !x.owed.contains n) x.zeroing = some (k, before ++ after) := by
      rw [hz]
      exact takeFirst_append (fun n hn => by simp [hb n hn]) (by simp [hk])
    have hall : (List.range 16).all (bankIdle x) = true := by simpa using hidle
    refine ⟨_, { x with mem := zeroPage x.mem k, zeroing := before ++ after, pool := insAsc x.pool k }, rfl, ?_, rfl, rfl,
      zeroPage_wf _ _ hwf, rfl, fun a => smGet_smClear _ _ _ _⟩
    rw [State.onGeode_geodes, modAt_get, if_pos rfl, hx, Option.map_some]
    simp only [hall, hfind, Bool.not_true, Bool.false_eq_true, if_false]

end Sys2Proof.Machine
end

section
/-! PROOFS. Scrubbing (R270–R272): what a step leaves where its word or row holds no uncorrectable error, and what an
uncorrectable word of a core in service does. -/

namespace Sys2Proof.Machine
open Sys2Proof Sys2Proof.Laws

section
variable {s : State} {r : CoreRef} {c : Core}

/-- A scrub step of a core's own memory that finds no uncorrectable word. -/
theorem scrubOwn_clean (hc : s.cores[coreIdx r]? = some c) {which : Nat} (h : (scrubCore c which).2 = none)
    {f : Core → Core} (hf : (scrubCore c which).1 = f c) : s.scrubOwn r which = s.onCore r f := by
  simp only [State.scrubOwn, core_get hc, h]
  exact onCore_congr hc hf

/-- A word of X memory that is uncorrectable is found, and its error counted (R271, R272). -/
theorem scrubCore_bad (h : c.scrubX ∈ c.x.unc) : (scrubCore c 0).2 = some c.scrubX := by
  simp [scrubCore, scrubWord, h]

end

/-- Of a core in service it sets the attention and raises the supervisor's line for it (R272). -/
theorem scrubBad_inService {s : State} {g : Fin 8} {n : Fin 9} (h : (s.core (.sig g n)).svc = true) (which a : Nat) :
    s.scrubBad (.sig g n) which a =
      (s.onCore (.sig g n) (fun k => { k with attn := true })).raiseSup g.val (1 + n.val) := by
  simp [State.scrubBad, h]

/-- A line of a geode's supervisor is pending, and no other core changes. -/
theorem core_raiseSup {s : State} {g : Nat} {d : Core} (hd : s.cores[72 + g]? = some d) (m : Nat) :
    (s.raiseSup g m).coreAt (72 + g) = raiseLine d m ∧ ∀ j, j ≠ 72 + g → (s.raiseSup g m).coreAt j = s.coreAt j :=
  ⟨getD_modAt _ _ _ _ _ hd, fun _ h => getD_modAt_ne _ _ _ _ _ (Ne.symm h)⟩

/-- What the step that finds an uncorrectable word leaves of its core, in service, and of the supervisor's line. -/
theorem scrubOwn_found {s : State} {g : Fin 8} {n : Fin 9} {c d : Core} (hc : s.cores[coreIdx (.sig g n)]? = some c)
    (h : c.scrubX ∈ c.x.unc) (hsvc : c.svc = true) (hd : s.cores[72 + g.val]? = some d) :
    (s.scrubOwn (.sig g n) 0).core (.sig g n) = { (scrubCore c 0).1 with attn := true } ∧
      linePending ((s.scrubOwn (.sig g n) 0).core (.sup g)) (1 + n.val) = true := by
  have hidx : coreIdx (.sig g n) ≠ 72 + g.val := by simp only [coreIdx]; omega
  have hc1 : (s.onCore (.sig g n) (fun _ => (scrubCore c 0).1)).cores[coreIdx (.sig g n)]? = some (scrubCore c 0).1 := by
    simp [hc]
  have hd2 : ((s.onCore (.sig g n) (fun _ => (scrubCore c 0).1)).onCore (.sig g n)
      (fun k => { k with attn := true })).cores[72 + g.val]? = some d := by
    simp only [State.onCore_cores, modAt_get_ne _ _ _ _ hidx, hd]
  have hsv : (scrubCore c 0).1.svc = true := hsvc
  simp only [State.scrubOwn, core_get hc, scrubCore_bad h]
  rw [scrubBad_inService (by rw [core_get hc1]; exact hsv)]
  obtain ⟨hsup, hother⟩ := core_raiseSup hd2 (1 + n.val)
  exact ⟨(hother _ hidx).trans (core_onCore _ hc1), by
    rw [State.core, coreIdx, hsup]; exact linePending_raiseLine d (by omega)⟩

theorem filter_contains_nil {l ms : List Nat} (h : ∀ a ∈ l, a ∉ ms) : l.filter (fun a => ms.contains a) = [] :=
  List.filter_eq_nil_iff.2 fun a ha => by simp [h a ha]

/-- A counter that has not moved has not come to its maximum (R473). -/
theorem counterStuck_same (s : State) (block idx n : Nat) : s.counterStuck block idx n n = s := by
  simp [State.counterStuck]

/-- Settles O29: each step by the errors of its word or row. -/
theorem scrubbing : Obligations.Scrubbing := by
  intro s r c g n x hc hx fixed
  refine ⟨fun h => ?_, fun h => ?_, fun hr h => ?_, fun d hr h hsvc hd => ?_, fun h => ?_, fun h hu hlt => ?_, fun h => ?_⟩
  · exact congrArg Host.Outcome.next (scrubOwn_clean hc (which := 0) (by simp [scrubCore, scrubWord, h])
      (by simp [scrubCore, scrubWord, h, b2n, fixed]))
  · exact congrArg Host.Outcome.next (scrubOwn_clean hc (which := 1) (by simp [scrubCore, scrubWord, h])
      (by simp [scrubCore, scrubWord, h, b2n, fixed]))
  · subst hr
    exact congrArg Host.Outcome.next (scrubOwn_clean hc (which := 2) (by simp [scrubCore, scrubWord, h])
      (by simp [scrubCore, scrubWord, h, b2n, fixed]))
  · subst hr
    obtain ⟨hcore, hsup⟩ := scrubOwn_found hc h hsvc hd
    refine ⟨_, rfl, ?_⟩
    rw [hcore]
    exact ⟨rfl, rfl, rfl, rfl, hsup⟩
  · show Host.Outcome.next (if !bankIdle (s.geode g.val) _ then s else _) = _
    simp [geode_get hx, h]
  · simp only [exec, execScrubStep, geode_get hx, h, Bool.not_true, Bool.false_eq_true, if_false,
      filter_contains_nil hu, List.foldl_nil, geode_onGeode _ hx, hlt, if_true]
    rw [counterStuck_same]
    exact congrArg Host.Outcome.next (onGeode_congr hx (by simp [hlt, Nat.mod_eq_of_lt hlt]))
  · simp only [exec, execScrubStep, filter_contains_nil h, List.foldl_nil, List.length_nil]
    rfl

end Sys2Proof.Machine
end

section
/-! PROOFS. What answering the host leaves alone (R429, R433–R436, R440, R441, R450): messages and entries of the reply ring
change the functions and what leaves the device, and nothing else. -/

namespace Sys2Proof.Machine
open Sys2Proof Sys2Proof.Laws

/-! ### Messages and entries -/

/-- The device but for its functions and what has left it. -/
def State.sansFns (s : State) : State := { s with fns := [], out := [] }

@[simp] theorem State.onFn_sansFns (s : State) (n : Nat) (f : Fn → Fn) : (s.onFn n f).sansFns = s.sansFns := rfl
@[simp] theorem State.emit_sansFns (s : State) (o : Out) : (s.emit o).sansFns = s.sansFns := rfl

@[simp] theorem State.sendMsix_sansFns (s : State) (f v : Nat) : (s.sendMsix f v).sansFns = s.sansFns := by
  unfold State.sendMsix
  extract_lets x w
  split
  · rfl
  · split <;> rfl

@[simp] theorem State.signalEntry_sansFns (s : State) (f v : Nat) : (s.signalEntry f v).sansFns = s.sansFns := by
  unfold State.signalEntry
  extract_lets n rest
  split <;> simp

@[simp] theorem State.writeEntry_sansFns (s : State) (f : Nat) (e : Entry) : (s.writeEntry f e).sansFns = s.sansFns := by
  unfold State.writeEntry
  extract_lets x z len padded at_ next s1 s2
  have h1 : s1.sansFns = s.sansFns := by simp only [s1]; split <;> rfl
  rw [State.signalEntry_sansFns, State.onFn_sansFns]
  simp only [s2, State.emit_sansFns, h1]

@[simp] theorem State.flushRing_sansFns (s : State) (f n : Nat) : (s.flushRing f n).sansFns = s.sansFns := by
  induction n generalizing s with
  | zero => rfl
  | succ n ih =>
    unfold State.flushRing
    split
    · rfl
    · split
      · rfl
      · split
        · rw [ih, State.onFn_sansFns, State.writeEntry_sansFns]
        · split
          · exact State.sendMsix_sansFns _ f 1
          · rfl

@[simp] theorem State.reply_sansFns (s : State) (h : CmdHdr) (status : U16) (payload : List Byte) :
    (s.reply h status payload).sansFns = s.sansFns := by
  unfold State.reply
  split
  · rfl
  · exact State.flushRing_sansFns _ _ _

/-- A change of DEVSTATE changes it, and tells the functions (R450). -/
theorem State.setDev_sansFns (s : State) (d : DevState) :
    (s.setDev d).sansFns = (s.onAon (fun a => { a with devstate := d })).sansFns := by
  unfold State.setDev
  split
  · next h => rw [← h]; rfl
  · exact foldl_keeps State.sansFns (fun t f => t.sendMsix_sansFns f 1) _ _

theorem State.reply_hub (s : State) (h : CmdHdr) (status : U16) (payload : List Byte) :
    (s.reply h status payload).hub = s.hub := (congrArg State.hub (s.reply_sansFns h status payload) :)

theorem State.reply_aon (s : State) (h : CmdHdr) (status : U16) (payload : List Byte) :
    (s.reply h status payload).aon = s.aon := (congrArg State.aon (s.reply_sansFns h status payload) :)

theorem State.setDev_hub (s : State) (d : DevState) : (s.setDev d).hub = s.hub :=
  (congrArg State.hub (s.setDev_sansFns d) :)

theorem State.setDev_cores (s : State) (d : DevState) : (s.setDev d).cores = s.cores :=
  (congrArg State.cores (s.setDev_sansFns d) :)

/-! ### Commands -/

/-- Taking a command from what was fetched changes the functions alone (R441). -/
theorem State.takeFetched_frame (s : State) (h : CmdHdr) (opcode : Nat) :
    ∃ l, s.takeFetched h opcode = { s with fns := l } := by
  unfold State.takeFetched
  split <;> exact ⟨_, rfl⟩

/-- A command that fails no check of R440 and R441 does its own. -/
theorem cmd_done {s : State} {h : CmdHdr} {r : CmdRule} (hs : s.serves h r.job) (hok : r.ok = true) (hd : r.denied = false)
    (body : State → State) : s.cmd h r body = body (s.takeFetched h r.opcode) := by
  obtain ⟨hup, hdev, hjob⟩ := hs
  obtain ⟨l, ht⟩ := s.takeFetched_frame h r.opcode
  simp [State.cmd, hup, hok, hjob, hd, ht, hdev]

/-- A command that is answered and uses no free value. -/
theorem answered_zero (s : State) (h : CmdHdr) (opcode : Nat) (status : U16) (payload : List Byte) :
    s.answered h opcode status payload 0 = (s.takeFetched h opcode).reply h status payload := by
  obtain ⟨l, ht⟩ := s.takeFetched_frame h opcode
  rw [State.answered, ht]
  rfl

theorem State.takeFetched_pos (s : State) (h : CmdHdr) (opcode p : Nat) : (s.takeFetched h opcode).pos p = s.pos p := by
  obtain ⟨l, ht⟩ := s.takeFetched_frame h opcode
  rw [ht]
  rfl

/-- A command of the PF is not denied to it. -/
theorem notPf_pf {h : CmdHdr} (hf : h.fn.val = 0) : notPf h = false := by simp [notPf, hf]

end Sys2Proof.Machine
end

section
/-! PROOFS. Commands that set something, and TIME_SET, DUSK_ENTER and firmware (R27, R28, R271, R339, R349, R378, R414, R442,
R444, R446, R450, R456, R458–R460). -/

namespace Sys2Proof.Machine
open Sys2Proof Sys2Proof.Laws

/-! ### Memory that the host reads and writes (R444) -/

/-- Words of hub memory without errors are read as they stand. -/
theorem cmdReadN_hub {s : State} (hc : s.hub.mem.corr = []) (hu : s.hub.mem.unc = []) (g c a n : Nat) :
    s.cmdReadN 0 g c a n = (s, (List.range n).map (fun k => smGet s.hub.mem.cells (a + k)), false) := by
  induction n generalizing a with
  | zero => rfl
  | succ n ih =>
    have hread : s.cmdRead 0 g c a = (s, smGet s.hub.mem.cells a, false) := by
      simp [State.cmdRead, State.hubReadBy, hc, hu]
    simp [State.cmdReadN, hread, ih, List.range_succ_eq_map, Nat.add_assoc, Nat.add_comm 1]

/-- Words written from an address on below the control blocks of the hub's channels. -/
theorem foldl_cmdWrite_hub (ws : List Word) (s : State) (g c a i : Nat) (ha : a + i + ws.length ≤ 0x7F000) :
    (ws.zip (List.range' i ws.length)).foldl (fun u q => u.cmdWrite 0 g c (a + q.2) q.1) s =
      s.onHub (fun x => { x with mem := x.mem.writeList (a + i) ws }) := by
  induction ws generalizing s i with
  | nil => rfl
  | cons w ws ih =>
    rw [List.length_cons] at ha
    have hstep : s.cmdWrite 0 g c (a + i) w = s.onHub (fun x => { x with mem := x.mem.write (a + i) w }) := by
      have hmod : (a + i) % 0x80000 = a + i := Nat.mod_eq_of_lt (by omega)
      have hlow : ¬ 0x7F000 ≤ a + i := by omega
      simp [State.cmdWrite, State.hubWrite, Hub.store, hmod, hlow]
    rw [List.length_cons, List.range'_succ, List.zip_cons_cons, List.foldl_cons, hstep, ih _ _ (by omega)]
    rfl

/-- What a run of writes leaves at each address. -/
theorem writeList_read {w : Nat} (vs : List (BitVec w)) (m : EMem w) (a b : Nat) (h : Memory.wf m = true) :
    smGet (m.writeList a vs).cells b = if a ≤ b ∧ b < a + vs.length then vs.getD (b - a) 0 else smGet m.cells b := by
  induction vs generalizing m a with
  | nil => simp [EMem.writeList]
  | cons v vs ih =>
    rw [EMem.writeList, ih _ _ (write_wf m a v h), write_read m a b v h]
    rcases Nat.lt_trichotomy b a with hb | rfl | hb
    · rw [if_neg (by omega), if_neg (by omega), if_neg (by simp; omega)]
    · simp
    · have hsub : b - a = b - (a + 1) + 1 := by omega
      rw [if_neg (by omega : ¬ b = a), hsub, List.getD_cons_succ]
      exact if_congr (by rw [List.length_cons]; omega) rfl rfl

/-- The units of a bit stream (R9). -/
theorem unpackBits_length (bs : List Byte) (acc bits : Nat) (hb : bits < 14) :
    (unpackBits 14 acc bits bs).length = (bits + 8 * bs.length) / 14 := by
  induction bs generalizing acc bits with
  | nil => simp [unpackBits, Nat.div_eq_of_lt hb]
  | cons b bs ih =>
    rw [unpackBits]
    split
    · rw [List.length_cons, ih _ _ (by omega), List.length_cons]
      omega
    · rw [ih _ _ (by omega), List.length_cons]
      omega

/-- Every unit that the bytes of a PK14 payload hold is written. -/
theorem unpack_take_length {bs : List Byte} {n : Nat} (h : bs.length = packLen 1 n) : ((unpack 1 bs).take n).length = n := by
  have hlen : (unpack 1 bs).length = (0 + 8 * bs.length) / 14 := unpackBits_length bs 0 0 (by decide)
  have hn : bs.length = (14 * n + 7) / 8 := h
  rw [List.length_take]
  omega

/-- MEM_WRITE below the hub's control blocks (R444). -/
theorem memWrite_done {s : State} {h : CmdHdr} {a n : U32} {bs : List Byte} (hs : s.serves h false) (hf : h.fn.val = 0)
    (hlo : 0x78000 ≤ a.toNat) (hhi : a.toNat + n.toNat ≤ 0x7F000) (hb : bs.length = packLen 1 n.toNat) :
    exec (.memWrite h 0 0 0 1 a n bs) s = .next (((s.takeFetched h 0x0601).onHub (fun x =>
      { x with mem := x.mem.writeList a.toNat (((unpack 1 bs).take n.toNat).map (BitVec.ofNat 14)) })).reply h 0 []) := by
  have hok : (memRangeOk 0 0 0 1 a.toNat n.toNat && bs.length == packLen 1 n.toNat) = true := by
    have hlen : packLen 1 n.toNat ≤ 0x100000 := by
      show (14 * n.toNat + 7) / 8 ≤ 0x100000
      omega
    simp [memRangeOk, unitWords, hb, hlen]
    omega
  have hreach : (s.takeFetched h 0x0601).writeReach 0 0 0 a.toNat n.toNat = true := by simp [State.writeReach, hlo, hhi]
  have hws : (((unpack 1 bs).take n.toNat).map (BitVec.ofNat 14)).length = n.toNat := by
    rw [List.length_map, unpack_take_length hb]
  have hfold := foldl_cmdWrite_hub (((unpack 1 bs).take n.toNat).map (BitVec.ofNat 14)) (s.takeFetched h 0x0601) 0 0 a.toNat 0
    (by omega)
  rw [← List.range_eq_range'] at hfold
  have hexec : exec (.memWrite h 0 0 0 1 a n bs) s = execMemWrite h 0 0 0 1 a n bs s := rfl
  rw [hexec, execMemWrite]
  refine congrArg Host.Outcome.next ((cmd_done hs hok (notPf_pf hf) _).trans ?_)
  refine (if_neg (c := (!(s.takeFetched h 0x0601).writeReach 0 0 0 a.toNat n.toNat) = true) (by simp [hreach])).trans ?_
  exact congrArg (fun t => State.reply t h 0 []) hfold

/-! ### Modules (R373, R444) -/

theorem State.setMod_sansLanes (s : State) (b : Nat) (m : ModState) :
    (s.setMod b m).sansLanes = (s.onPos b (fun x => { x with mod := m })).sansLanes := by
  unfold State.setMod
  extract_lets lanes
  refine foldl_keeps State.sansLanes (fun t p => ?_) _ _
  split
  · rfl
  · exact t.setLane_sansLanes p _

theorem sansLanes_poss_length {s u : State} (h : u.sansLanes = s.sansLanes) : u.poss.length = s.poss.length := by
  simpa [State.sansLanes] using congrArg (fun t => t.poss.length) h

/-- A module's new state, with its pins as they were. -/
theorem State.setMod_get {s : State} {b : Nat} {x : Pos} (hx : s.poss[b]? = some x) (m : ModState) :
    ∃ y, (s.setMod b m).poss[b]? = some y ∧ y.mod = m ∧ y.mrst = x.mrst := by
  have h := congrArg (fun t => t.poss[b]?) (s.setMod_sansLanes b m)
  simp only [State.sansLanes, List.getElem?_map, State.onPos, modAt_get_self, hx, Option.map_some] at h
  obtain ⟨y, hy, he⟩ := Option.map_eq_some_iff.1 h
  exact ⟨y, hy, (congrArg Pos.mod he :), (congrArg Pos.mrst he :)⟩

@[simp] theorem State.nextCtl_poss_length (s : State) (b : Nat) : (s.nextCtl b).poss.length = s.poss.length := by
  unfold State.nextCtl
  split
  · exact modAt_length _ _ _
  · rfl

@[simp] theorem State.stopSolve_poss_length (s : State) (b : Nat) : (s.stopSolve b).poss.length = s.poss.length := by
  have hsend (t : State) : (t.sendInject b false).poss.length = t.poss.length := by
    simp [State.sendInject, State.sendCtl, State.onPos]
  unfold State.stopSolve
  extract_lets g s1 s2
  have h2 : s2.poss.length = s.poss.length := (hsend s1).trans (modAt_length _ _ _)
  split
  · exact h2
  · have hwide : (s2.wideCores g false).poss = s2.poss :=
      foldl_keeps State.poss (f := fun t k => t.onCoreAt (9 * g + k) (fun c => wideCore c false)) (fun _ _ => rfl) _ _
    rw [hwide]
    exact h2

/-- A module that leaves is in reset (R396). -/
theorem State.leave_get {s : State} {b : Nat} {x : Pos} (hx : s.poss[b]? = some x) :
    ∃ z, (s.leave b).poss[b]? = some z ∧ z.mrst = true := by
  unfold State.leave
  extract_lets s0 s1
  have h0 : s0.poss.length = s.poss.length := by
    simp only [s0]
    split
    · exact s.stopSolve_poss_length b
    · rfl
  have h1 : s1.poss.length = s0.poss.length :=
    foldl_keeps (fun t : State => t.poss.length) (fun t p => modAt_length t.poss p _) _ _
  have h2 : (s1.setMod b .absent).poss.length = s1.poss.length :=
    (sansLanes_poss_length (s1.setMod_sansLanes b .absent)).trans (modAt_length _ _ _)
  have hb : b < (s1.setMod b .absent).poss.length := by
    rw [h2, h1, h0]
    exact (List.getElem?_eq_some_iff.1 hx).1
  exact ⟨_, by rw [State.onPos, modAt_get_self, List.getElem?_eq_getElem hb]; rfl, rfl⟩

/-- MODULE_RESET of a module that no job binds (R444). -/
theorem moduleReset_done {s : State} {h : CmdHdr} {p : Fin 32} {x : Pos} (hs : s.serves h false) (hf : h.fn.val = 0)
    (hx : s.poss[p.val]? = some x) (hm : x.mod ≠ .absent) (hst : x.stream = none) :
    ∃ (u : State) (y : Pos), exec (.moduleReset h p) s = .next (u.reply h 0 []) ∧ u.poss[p.val]? = some y ∧
      y.mod = .reading ∧ y.mrst = true := by
  obtain ⟨l, ht⟩ := s.takeFetched_frame h 0x0302
  have hpos : (s.takeFetched h 0x0302).poss[p.val]? = some x := by rw [ht]; exact hx
  obtain ⟨z, hz, hmrst⟩ := State.leave_get hpos
  obtain ⟨y, hy, hmod, hpins⟩ := State.setMod_get hz .reading
  refine ⟨_, y, congrArg Host.Outcome.next ((cmd_done hs rfl (notPf_pf hf) _).trans (if_neg ?_)), hy, hmod, hpins.trans hmrst⟩
  simp [pos_get hpos, hm, hst]

/-! ### Dusk (R446, R459, R460) -/

/-- DUSK_ENTER with nothing admitted or loading. -/
theorem duskEnter_done {s : State} {h : CmdHdr} (hs : s.serves h false) (hf : h.fn.val = 0)
    (hadm : s.reserving.any (fun j => j.state == .admitted) = false)
    (hload : s.hub.slots.any (fun x => x.state == .loading) = false) :
    ∃ u : State, exec (.duskEnter h) s = .next u ∧ u.aon.devstate = .leaving ∧ u.hub.duskAt = some (s.beaconNow + 2) ∧
      u.hub.jobs = s.hub.jobs.map (fun j => if j.state = .running then
        { j with suspendAt := some (toMultiple j.k (s.beaconNow + 2)) } else j) := by
  obtain ⟨l, ht⟩ := s.takeFetched_frame h 0x0700
  obtain ⟨es, k, hlog⟩ := ((s.takeFetched h 0x0700).reply h 0 []).log_frame
    { kind := 0x02, fn := byteOf h.fn.val, a := (s.takeFetched h 0x0700).beaconNow + 2 }
  refine ⟨_, congrArg Host.Outcome.next ((cmd_done hs rfl (notPf_pf hf) _).trans (if_neg ?_)), ?_, ?_, ?_⟩
  · rw [ht]
    exact Bool.eq_false_iff.1 (Bool.or_eq_false_iff.2 ⟨hadm, hload⟩)
  · rw [State.setDev_aon]
  · rw [State.setDev_hub, ht]
    rfl
  · rw [State.setDev_hub]
    simp only [hlog, State.onHub, State.reply_hub]
    rw [ht]
    rfl

/-- DUSK_QUIESCE with nothing left to post. -/
theorem duskQuiesce_done {s : State} {d : U32} (hd : s.hub.duskAt = some d) (hup : s.hubUp = true)
    (hdev : s.aon.devstate = .leaving) (hn : atOrAfter s.beaconNow d = true)
    (hq : s.hub.jobs.all (quietJob s.beaconNow) = true) :
    ∃ u : State, exec .duskQuiesce s = .next u ∧ u.aon.devstate = .dusk ∧ u.aon.islandsOff = true ∧ u.hub.duskAt = none ∧
      u.hub.window = none ∧ u.hub.windowQ = [] ∧ (∀ c ∈ u.cores, c.vpow = false) := by
  have hexec : exec .duskQuiesce s = execDuskQuiesce s := rfl
  rw [hexec, execDuskQuiesce, hd]
  refine ⟨_, congrArg Host.Outcome.next (if_neg ?_), ?_, ?_, ?_, ?_, ?_, ?_⟩
  · simp [hup, hdev, hn, hq]
  · rw [State.setDev_aon]
  · rw [State.setDev_aon]
    rfl
  · rw [State.setDev_hub]
    rfl
  · rw [State.setDev_hub]
    rfl
  · rw [State.setDev_hub]
    rfl
  · rw [State.setDev_cores]
    generalize List.foldl _ s (List.range 32) = t
    exact List.forall_mem_map.2 fun _ _ => rfl

/-! ### Firmware and time (R27, R444, R446, R450, R456, R458) -/

/-- The slots of the hub are emptied (R458). -/
theorem foldl_emptySlot (ns : List Nat) (s : State) : (ns.foldl (fun t n => t.emptySlot n) s).sansSlots = s.sansSlots ∧
    (ns.foldl (fun t n => t.emptySlot n) s).hub.slots = ns.foldl (fun l n => modAt l n (fun _ => {})) s.hub.slots := by
  refine ⟨foldl_keeps State.sansSlots (f := fun t n => t.emptySlot n) (fun t n => (t.emptySlot_keeps n).1) ns s, ?_⟩
  induction ns generalizing s with
  | nil => rfl
  | cons n ns ih => rw [List.foldl_cons, ih, (s.emptySlot_keeps n).2, List.foldl_cons]

theorem State.emptySlot_aon (s : State) (n : Nat) : (s.emptySlot n).aon = s.aon :=
  foldl_keeps State.aon (f := fun (t : State) (p : Nat × List Nat) => t.onGeode p.1 (fun g => freePages g p.2)) (fun _ _ => rfl) _ _

/-- The beacon period that waits is of the always-on domain (R28). -/
theorem State.fixPeriod_hub (s : State) : s.fixPeriod.hub = s.hub := by
  unfold State.fixPeriod
  split <;> rfl

theorem State.fixPeriod_devstate (s : State) : s.fixPeriod.aon.devstate = s.aon.devstate := by
  unfold State.fixPeriod
  split <;> rfl

/-- A hub reset that begins (R456, R458). -/
theorem beginHubReset_done {s : State} (hr : (s.aon.inReset || s.hub.resetting || s.aon.islandsOff) = false)
    (hl : s.hub.slots.length = 16) :
    (s.beginHubReset true).hub.resetting = true ∧ (s.beginHubReset true).hub.fwActivate = true ∧
      (s.beginHubReset true).hub.mem = {} ∧ (s.beginHubReset true).aon.devstate = s.aon.devstate ∧
      (s.beginHubReset true).hub.patch = s.hub.patch ∧ ∀ x ∈ (s.beginHubReset true).hub.slots, x.state = .empty := by
  obtain ⟨hkeep, hslots⟩ := foldl_emptySlot (List.range 16) s
  have haon := foldl_keeps State.aon (f := fun t n => t.emptySlot n) State.emptySlot_aon (List.range 16) s
  have hempty : ∀ x ∈ ((List.range 16).foldl (fun l n => modAt l n (fun _ => ({} : LodeSlot))) s.hub.slots), x.state = .empty :=
    fun x hx => by
      obtain ⟨n, hn⟩ := List.mem_iff_getElem?.1 hx
      rw [foldl_modAt_get (f := fun _ _ => ({} : LodeSlot)) (fun _ _ => rfl)] at hn
      split at hn
      · obtain ⟨_, -, rfl⟩ := Option.map_eq_some_iff.1 hn
        rfl
      · next h =>
        have := (List.getElem?_eq_some_iff.1 hn).1
        exact absurd (List.mem_range.2 (by omega)) h
  rw [← hslots] at hempty
  simp only [State.beginHubReset, if_neg (Bool.eq_false_iff.1 hr), State.fixPeriod_hub, State.fixPeriod_devstate]
  generalize (List.range 16).foldl (fun t n => t.emptySlot n) s = t at hkeep haon hempty ⊢
  have hpatch : t.hub.patch = s.hub.patch := (congrArg (fun k => k.1.patch) hkeep :)
  exact ⟨rfl, rfl, rfl, (congrArg Aon.devstate haon :), hpatch, hempty⟩

/-- FW_ACTIVATE with no job and a loaded patch (R446, R450). -/
theorem fwActivate_done {s : State} {h : CmdHdr} (hs : s.serves h false) (hf : h.fn.val = 0) (hj : s.hub.jobs = [])
    (hp : s.hub.patch.state = 1) (hl : s.hub.slots.length = 16) :
    ∃ u : State, exec (.fwActivate h) s = .next u ∧ u.hub.resetting = true ∧ u.hub.fwActivate = true ∧ u.hub.mem = {} ∧
      u.aon.devstate = .leaving ∧ u.hub.patch = s.hub.patch ∧ (∀ x ∈ u.hub.slots, x.state = .empty) := by
  obtain ⟨l, ht⟩ := s.takeFetched_frame h 0x0F02
  have hhub : (((s.takeFetched h 0x0F02).reply h 0 []).setDev .leaving).hub = s.hub := by
    rw [State.setDev_hub, State.reply_hub, ht]
  have haon : (((s.takeFetched h 0x0F02).reply h 0 []).setDev .leaving).aon = { s.aon with devstate := .leaving } := by
    rw [State.setDev_aon, State.reply_aon, ht]
  have hup := hs.1
  simp only [State.hubUp, Bool.and_eq_true, Bool.not_eq_true'] at hup
  obtain ⟨⟨⟨⟨⟨-, hresetting⟩, -⟩, -⟩, hislands⟩, hreset⟩ := hup
  obtain ⟨h1, h2, h3, h4, h5, h6⟩ :=
    beginHubReset_done (s := ((s.takeFetched h 0x0F02).reply h 0 []).setDev .leaving)
      (by rw [hhub, haon]; simp [hresetting, hislands, hreset]) (by rw [hhub]; exact hl)
  refine ⟨_, congrArg Host.Outcome.next ((cmd_done hs rfl (notPf_pf hf) _).trans ?_), h1, h2, h3, ?_, ?_, h6⟩
  · rw [if_neg (by simp [ht, hj]), if_neg (by simp [ht, hp])]
  · rw [h4, haon]
  · rw [h5, hhub]

section
variable {s : State} {h : CmdHdr} {once : Bool} {src : BitVec 2} {n : U32} {sec frac : U64}

/-- TIME_SET with no job waits for its tick (R444). -/
theorem timeSet_waits (hs : s.serves h false) (hf : h.fn.val = 0) (ht : s.aon.timeSet = none) (hj : s.hub.jobs = [])
    (hsrc : src ≠ 3) :
    exec (.timeSet h once src n sec frac) s = .next ((s.takeFetched h 0x0501).onAon (fun a =>
      { a with timeSet := some ⟨h, once, once, src, n,
          BitVec.ofNat 122 (sec.toNat % 2 ^ 42 * 2 ^ 80 + frac.toNat / 2 ^ 8 * 2 ^ 24)⟩ })) := by
  obtain ⟨l, hl⟩ := s.takeFetched_frame h 0x0501
  refine congrArg Host.Outcome.next ((if_neg (by simp [ht])).trans
    ((cmd_done (r := { opcode := 0x0501, ok := src != 3, denied := notPf h }) hs (bne_iff_ne.2 hsrc) (notPf_pf hf) _).trans
      (if_neg ?_)))
  simp [hl, hj]

/-- TIME_SET with a job in the table is refused, unless one waits before it (R444). -/
theorem timeSet_refused (hs : s.serves h false) (hf : h.fn.val = 0) (hj : s.hub.jobs ≠ []) :
    exec (.timeSet h once src n sec frac) s = .next (if s.aon.timeSet.isSome then s
      else if src = 3 then (s.takeFetched h 0x0501).malformedAt h (s.offsetOf h 0x0501) 0x0501 0x0206
      else s.answered h 0x0501 0x0308 [] 0) := by
  obtain ⟨l, hl⟩ := s.takeFetched_frame h 0x0501
  rw [answered_zero]
  refine congrArg Host.Outcome.next (if_congr Iff.rfl rfl ?_)
  split
  · next hsrc => simp [State.cmd, hs.1, hsrc]
  · next hsrc =>
    exact (cmd_done (r := { opcode := 0x0501, ok := src != 3, denied := notPf h }) hs (bne_iff_ne.2 hsrc) (notPf_pf hf) _).trans
      (if_pos (by simp [hl, hj]))

end

/-- TIME_SET_APPLY at its tick (R27, R444). -/
theorem timeSetApply_done {s : State} {r : TimeSetReq} (hr : s.aon.timeSet = some r) (ha : r.armed = true) :
    ∃ u : State, exec .timeSetApply s = .next (u.reply r.hdr 0 (timeBytes (s.aon.time + BitVec.ofNat 122 s.aon.rate))) ∧
      u.aon.time = r.t ∧ u.aon.t0 = r.t ∧ u.aon.n0 = r.n ∧ u.aon.nextBeacon = r.n ∧ u.aon.source = r.source ∧
      u.aon.timeSet = none ∧ u.aon.locked = false ∧ (r.source = 0 → u.aon.rate = 12089258196146292) ∧
      u.hub = s.hub ∧ u.geodes = s.geodes := by
  have hexec : exec .timeSetApply s = execTimeSetApply s := rfl
  rw [hexec, execTimeSetApply]
  simp only [hr, ha, Bool.not_true, Bool.false_eq_true, if_false]
  exact ⟨_, rfl, rfl, rfl, rfl, rfl, rfl, rfl, rfl, fun h => if_pos h, rfl, rfl⟩

/-- A share as SHARE_SET gives it (R339, R442). -/
theorem shareSet_done {s : State} {h : CmdHdr} {f : Fin 8} {g post stag : Nat} (hs : s.serves h false) (hf : h.fn.val = 0)
    (hg : g ≤ 8) (hp : post ≤ admissible s.link) (hp32 : post < 2 ^ 32) (hstag : stag ≤ 224) :
    exec (.shareSet h f (byteOf g) (u32 post) (u32 stag)) s = .next (((s.takeFetched h 0x0203).onHub (fun x =>
      { x with shares := modAt x.shares f.val (fun _ => ⟨g, post, stag, false⟩) })).reply h
      (if g < (demandOf (ofFn s.reserving f.val)).1 ∨ post < (demandOf (ofFn s.reserving f.val)).2.1 ∨
        stag < (demandOf (ofFn s.reserving f.val)).2.2 then 0x0103 else 0) []) := by
  obtain ⟨l, ht⟩ := s.takeFetched_frame h 0x0203
  have hg' : (byteOf g).toNat = g := by simp [byteOf]; omega
  have hp' : (u32 post).toNat = post := by simp [u32]; omega
  have hs' : (u32 stag).toNat = stag := by simp [u32]; omega
  refine congrArg Host.Outcome.next ((cmd_done hs ?_ (notPf_pf hf) _).trans ?_)
  · simp [hg', hp', hs', hg, hp, hstag]
  · have hres : (s.takeFetched h 0x0203).reserving = s.reserving := by rw [ht]; rfl
    simp only [hg', hp', hs', hres, Bool.or_eq_true, decide_eq_true_eq, or_assoc]

/-- LANE_CONFIG of a quad that no job binds (R378, R444). -/
theorem laneConfig_done {s : State} {h : CmdHdr} {q : Fin 8} (hs : s.serves h false) (hf : h.fn.val = 0)
    (hq : s.quadBound q.val = false) (qctl l0 l1 l2 l3 : Word) :
    exec (.laneConfig h q qctl [l0, l1, l2, l3]) s = .next ((((((
      (s.takeFetched h 0x0301).onQuad q.val (fun x => { x with dlink := bitOf qctl 13 })).writeLcfg (4 * q.val) l0).writeLcfg
        (4 * q.val + 1) l1).writeLcfg (4 * q.val + 2) l2).writeLcfg (4 * q.val + 3) l3).reply h 0 []) := by
  have hq' : (s.takeFetched h 0x0301).quadBound q.val = false := by
    obtain ⟨l, ht⟩ := s.takeFetched_frame h 0x0301
    rw [ht]
    exact hq
  have hqctl : (s.takeFetched h 0x0301).writeQctl q.val qctl =
      (s.takeFetched h 0x0301).onQuad q.val (fun x => { x with dlink := bitOf qctl 13 }) := by
    simp [State.writeQctl, hq']
  refine congrArg Host.Outcome.next ((cmd_done hs rfl (notPf_pf hf) _).trans ((if_neg (by simp [hq'])).trans ?_))
  rw [hqctl]
  rfl

/-- LANE_CONFIG of a quad that a job binds does not change its link (R378, R444). -/
theorem laneConfig_bound {s : State} {h : CmdHdr} {q : Fin 8} {qctl : Word} (hs : s.serves h false) (hf : h.fn.val = 0)
    (hq : s.quadBound q.val = true) (hd : bitOf qctl 13 ≠ (s.quad q.val).dlink) (l0 l1 l2 l3 : Word) :
    exec (.laneConfig h q qctl [l0, l1, l2, l3]) s = .next (s.answered h 0x0301 0x0308 [] 0) := by
  rw [answered_zero]
  refine congrArg Host.Outcome.next ((cmd_done hs rfl (notPf_pf hf) _).trans (if_pos ?_))
  obtain ⟨l, ht⟩ := s.takeFetched_frame h 0x0301
  rw [ht]
  exact Bool.and_eq_true_iff.2 ⟨hq, bne_iff_ne.2 hd⟩

/-- MEM_READ of hub memory without errors (R444). -/
theorem memRead_done {s : State} {h : CmdHdr} {a n : U32} (hs : s.serves h false) (hf : h.fn.val = 0) (hn : n.toNat ≤ 64)
    (hc : s.hub.mem.corr = []) (hu : s.hub.mem.unc = []) (ha : a.toNat + n.toNat ≤ 0x80000)
    (hfit : replyFits (s.fn 0) (packLen 1 n.toNat) = true) :
    exec (.memRead h 0 0 0 1 a n) s = .next (s.answered h 0x0600 0
      (pack 1 ((List.range n.toNat).map (fun k => (smGet s.hub.mem.cells (a.toNat + k)).toNat))) 0) := by
  have hok : (memRangeOk 0 0 0 1 a.toNat n.toNat && replyFits (s.fn h.fn.val) (packLen 1 n.toNat)) = true := by
    have hlen : packLen 1 n.toNat ≤ 0x100000 := by
      show (14 * n.toNat + 7) / 8 ≤ 0x100000
      omega
    simp [memRangeOk, unitWords, hf, hfit, hlen, ha]
  obtain ⟨l, ht⟩ := s.takeFetched_frame h 0x0600
  have hread := cmdReadN_hub (s := s.takeFetched h 0x0600) (by rw [ht]; exact hc) (by rw [ht]; exact hu) 0 0 a.toNat n.toNat
  have hmem : (s.takeFetched h 0x0600).hub = s.hub := by rw [ht]
  have hexec : exec (.memRead h 0 0 0 1 a n) s = execMemRead h 0 0 0 1 a n s := rfl
  rw [answered_zero, hexec, execMemRead]
  refine congrArg Host.Outcome.next ((cmd_done hs hok (notPf_pf hf) _).trans ((if_neg (by simp)).trans ?_))
  refine (congrArg (fun r : State × List Word × Bool =>
    r.1.reply h (if r.2.2 then 0x0401 else 0) (pack 1 (unitsOfWords 1 r.2.1))) hread).trans ?_
  simp [unitsOfWords, hmem, Function.comp_def]

section
variable {s : State} {h : CmdHdr} {bs : List Byte}

/-- A first chunk that is not the last is kept (R446). -/
theorem fwChunk_kept (hs : s.serves h false) (hf : h.fn.val = 0) (hb : bs.length < 2 ^ 20) :
    exec (.fwChunk h true false 0 (u32 (bs.length + 1)) bs) s = .next (((s.takeFetched h 0x0F01).onHub (fun x =>
      { x with patch := { x.patch with bytes := bs, len := bs.length + 1, loading := true } })).reply h 0 []) := by
  have hlen : (u32 (bs.length + 1)).toNat = bs.length + 1 := by simp [u32]; omega
  refine congrArg Host.Outcome.next ((cmd_done hs rfl (notPf_pf hf) _).trans ((if_neg ?_).trans ?_))
  · simp [hlen]
  · simp [hlen, State.onHub]

/-- A patch that comes whole and passes its check is loaded (R446, R450). -/
theorem fwChunk_checked (hs : s.serves h false) (hf : h.fn.val = 0) (hb : bs.length < 2 ^ 20) (hc : Config.patchCheck bs = true) :
    exec (.fwChunk h true true 0 (u32 bs.length) bs) s = .next (((s.takeFetched h 0x0F01).onHub (fun x =>
      { x with patch := ⟨1, Config.patchVersion bs, bs, bs.length, false⟩ })).reply h 0 []) := by
  have hlen : (u32 bs.length).toNat = bs.length := by simp [u32]; omega
  refine congrArg Host.Outcome.next ((cmd_done hs rfl (notPf_pf hf) _).trans ((if_neg ?_).trans ?_))
  · simp [hlen]
  · simp [hlen, hc]

/-- One that fails its check is not (R446). -/
theorem fwChunk_refused (hs : s.serves h false) (hf : h.fn.val = 0) (hb : bs.length < 2 ^ 20)
    (hc : Config.patchCheck bs = false) :
    ∃ u : State, exec (.fwChunk h true true 0 (u32 bs.length) bs) s = .next (u.reply h 0x0404 []) ∧
      u.hub.patch.loading = false ∧ u.hub.patch.version = s.hub.patch.version := by
  have hlen : (u32 bs.length).toNat = bs.length := by simp [u32]; omega
  obtain ⟨l, ht⟩ := s.takeFetched_frame h 0x0F01
  refine ⟨_, congrArg Host.Outcome.next ((cmd_done hs rfl (notPf_pf hf) _).trans ((if_neg ?_).trans
    ((if_neg (by simp)).trans (if_neg ?_)))), rfl, ?_⟩
  · simp [hlen]
  · simp [hc]
  · rw [ht]
    rfl

end

/-- Settles O38: each command by what its own part does once the hub serves it. -/
theorem hostSettingsTimeAndFirmware : Obligations.HostSettingsTimeAndFirmware := by
  unfold Obligations.HostSettingsTimeAndFirmware
  refine ⟨fun s h f q p g post stag key qctl l0 l1 l2 l3 a n hs hf => ?_, fun s h once src n sec frac r d bs => ⟨fun hs hf => ?_,
    timeSetApply_done, duskQuiesce_done⟩⟩
  · refine ⟨fun arg ha => ?_, fun arg ha hk => ?_, shareSet_done hs hf, fun hq => laneConfig_done hs hf hq qctl l0 l1 l2 l3,
      fun hq hd => laneConfig_bound hs hf hq hd l0 l1 l2 l3, fun x => moduleReset_done hs hf, fun hm hst hcap => ?_, fun hm => ?_,
      fun _ hn hc hu ha hfit => memRead_done hs hf hn hc hu ha hfit, fun bs hlo hhi hb => ?_⟩
    · exact congrArg Host.Outcome.next (cmd_done hs (by simp [signOk, ha]) (notPf_pf hf) _)
    · exact congrArg Host.Outcome.next (cmd_done hs (by simp [signOk, ha, hk]) (notPf_pf hf) _)
    · refine congrArg Host.Outcome.next ((cmd_done hs rfl (notPf_pf hf) _).trans (if_neg ?_))
      rw [State.takeFetched_pos]
      simp [hm, hst, hcap]
    · rw [answered_zero]
      refine congrArg Host.Outcome.next ((cmd_done hs rfl (notPf_pf hf) _).trans (if_pos ?_))
      rw [State.takeFetched_pos]
      exact hm.imp_right Or.inl
    · obtain ⟨l, ht⟩ := s.takeFetched_frame h 0x0601
      refine ⟨_, memWrite_done hs hf hlo hhi hb, by rw [ht]; rfl, by rw [ht]; rfl, fun hwf k => ?_⟩
      rw [ht]
      refine (writeList_read _ _ _ _ hwf).trans ?_
      rw [List.length_map, unpack_take_length hb]
      exact if_congr Iff.rfl (List.getD_map ..) rfl
  · refine ⟨fun ht hj hsrc => ?_, duskEnter_done hs hf, fun hb => ⟨?_, fun hc => ?_, fun hc => ?_⟩, fwActivate_done hs hf,
      fun hj => ⟨?_, ?_⟩⟩
    · exact timeSet_waits hs hf ht hj hsrc
    · exact fwChunk_kept hs hf hb
    · exact fwChunk_checked hs hf hb hc
    · exact fwChunk_refused hs hf hb hc
    · exact timeSet_refused hs hf hj
    · rw [answered_zero]
      obtain ⟨l, hl⟩ := s.takeFetched_frame h 0x0F02
      exact congrArg Host.Outcome.next ((cmd_done hs rfl (notPf_pf hf) _).trans (if_pos (by simp [hl, hj])))

end Sys2Proof.Machine
end
